-- ==== Sys2Proof/Word.lean ====
section
/-!
DEFINITION. Word.lean: the words of the device: a byte, a 64-byte line with its byte enables, and the plainest
arithmetic on register values (numbers that fit their field).
-/
namespace Sys2Proof

/-- One byte. -/
abbrev Byte := BitVec 8

/-- The data of one 64-byte line, byte 0 least significant (R20). -/
abbrev Line := BitVec 512

/-- A burst of 16 beats on 40 pins (R138): bit t of symbol j, which pin j carries in beat t, is bit 16 j + t (R140). As the operand of a read that returns it
says which bits came flipped against what the stack holds: the line code is linear, so what the decoder finds depends on the flipped bits alone. -/
abbrev Burst := BitVec 640

/-- The byte enables of a partial write: bit b stands for byte b of the line. -/
abbrev Mask := BitVec 64

/-- An exact fraction, for quantities that the spec computes without a rounding rule (R412). -/
structure Frac where
  num : Int
  den : Nat
  deriving DecidableEq, Repr

/-- The value of bits hi down to lo of a number. -/
def bits (v hi lo : Nat) : Nat := v / 2 ^ lo % 2 ^ (hi + 1 - lo)

/-- The one bit at place b of a number, as a truth value. -/
def bitOf (v b : Nat) : Bool := v / 2 ^ b % 2 == 1

/-- A number brought into w bits. -/
def trunc (w v : Nat) : Nat := v % 2 ^ w

/-- A truth value as a one-bit field. -/
def b2n (b : Bool) : Nat := if b then 1 else 0

/-- The number a w-bit field stands for when it is read as signed two's complement. -/
def signed (w v : Nat) : Int := if v % 2 ^ w < 2 ^ (w - 1) then (v % 2 ^ w : Nat) else (v % 2 ^ w : Nat) - (2 ^ w : Nat)

/-- A signed number written into a w-bit field. -/
def unsigned (w : Nat) (v : Int) : Nat := (v % (2 ^ w : Nat)).toNat

/-- Addition that stops at a limit instead of wrapping (saturating counters). -/
def satAdd (lim a b : Nat) : Nat := min lim (a + b)

end Sys2Proof
end

