-- ==== Sys2Proof/Units.lean ====
section
/-!
DEFINITION. Units.lean: the units of the device tree (R4, R29) as a type: every part of the device that has registers.
-/
namespace Sys2Proof

/-- One port: port p of group g (R4). -/
structure PortId where
  g : Fin 64
  p : Fin 2
  deriving DecidableEq, Repr

/-- One lane of a port (R6). -/
structure LaneId where
  port : PortId
  l : Fin 8
  deriving DecidableEq, Repr

/-- A unit of the tree (R4, R29). -/
inductive UnitId where
  | root
  | quadrant (q : Fin 4)
  | group (g : Fin 64)
  | port (pt : PortId)
  | lane (ln : LaneId)
  | stack (s : Fin 4)
  | pc (s : Fin 4) (c : Fin 32)
  | engine (e : Fin 8)
  | inst (i : Fin 1024)
  | slot (k : Fin 64)
  deriving DecidableEq, Repr

/-- The unit classes, and the register range of a management port's rings (R277), which is no unit of the tree. -/
inductive UClass where
  | root | quadrant | group | port | lane | stack | pc | engine | inst | slot
  | ring
  | every
  deriving DecidableEq, Repr

/-- Who accesses a register: a host port function, Headwater for an Asryn command, or the debug master (R9). -/
inductive Master where
  | hostFn (pt : PortId) (fn : Fin 65)
  | headwater
  | debug
  deriving DecidableEq, Repr

/-- A place in the register space that a register access names: a unit's register at an offset of its block. -/
structure RegRef where
  unit : UnitId
  off : Nat
  deriving DecidableEq, Repr

end Sys2Proof
end

