-- ==== Sys2Proof/Messages.lean ====
section
/-!
DEFINITION. Messages.lean: what travels between the units of the device and between the device and its neighbours: cells and their
tags (R99), fabric headers (R252, R328), Millrace headers (R219), tracked requests (R124).
-/
namespace Sys2Proof

/-- The traffic classes in the order of their numbers (R99, R101). -/
inductive Cls where
  | mreq | mrsp | bisn | birs | iotx | rmac | rmab
  deriving DecidableEq, Repr

/-- The class number of the cell tag (R99). -/
def Cls.num : Cls → Nat
  | .mreq => 0 | .mrsp => 1 | .bisn => 2 | .birs => 3 | .iotx => 4 | .rmac => 5 | .rmab => 6

/-- A crossbar port, 0-63 groups and 64-71 X0-X7, with p1 of a split group told apart (R27, R99). -/
structure XPort where
  ix : Fin 72
  sub : Bool
  deriving DecidableEq, Repr

/-- The key of a crossbar port in a table; p0 before p1 (R113). -/
def XPort.key (x : XPort) : Nat := x.ix.val * 2 + (if x.sub then 1 else 0)

/-- The crossbar port of an external port. -/
def PortId.x (pt : PortId) : XPort := ⟨⟨pt.g.val, by omega⟩, pt.p.val == 1⟩

/-- The index of a port among the 128 places of the device. -/
def PortId.ix (pt : PortId) : Nat := pt.g.val * 2 + pt.p.val

/-- Internal crossbar port X0-X7 (R27). -/
def XPort.int (n : Fin 8) : XPort := ⟨⟨64 + n.val, by omega⟩, false⟩

/-- The unit that counts for a crossbar port (R496). -/
def XPort.unit (x : XPort) : UnitId :=
  if h : x.ix.val < 64 then .port ⟨⟨x.ix.val, h⟩, if x.sub then 1 else 0⟩
  else match x.ix.val - 64 with
    | 0 => .stack 0 | 1 => .stack 1 | 2 => .stack 2 | 3 => .stack 3
    | 4 => .engine 0 | 5 => .engine 1 | 6 => .engine 2
    | _ => .root

/-- The port of a crossbar port, where it is external. -/
def XPort.port? (x : XPort) : Option PortId :=
  if h : x.ix.val < 64 then some ⟨⟨x.ix.val, h⟩, if x.sub then 1 else 0⟩ else none

/-- The requesters of tracked requests (R124, REQ_KIND). -/
inductive ReqKind where
  | host | otherSwitch | e0 | e1 | atomicUnit | dataMover | cacheFill | headwater | directory
  deriving DecidableEq, Repr

/-- The operations of tracked requests (R124, OPC). -/
inductive OrtOp where
  | read | fullWrite | partialWrite | atomic | ioRead | ioWrite
  deriving DecidableEq, Repr

/-- Whether an operation stores. -/
def OrtOp.isWrite : OrtOp → Bool
  | .fullWrite | .partialWrite => true
  | _ => false

/-- What a non-posted request brings to the outstanding-request tracker (R124). -/
structure ReqInfo where
  kind : ReqKind
  op : OrtOp
  tag : BitVec 16
  addr : Nat
  len : Nat
  inst : Option (Fin 1024)
  srcSw : Fin 16
  deriving DecidableEq, Repr

/-- The Millrace packet types (R220). -/
inductive MType where
  | wdata | rreq | rdata | atomic | arsp | ack | trim | abort
  deriving DecidableEq, Repr

/-- The class of a Millrace packet (R220). -/
def MType.cls : MType → Cls
  | .wdata | .rdata => .rmab
  | _ => .rmac

/-- The header of a Millrace packet (R219). -/
structure MHdr where
  type : MType
  final : Bool
  retx : Bool
  srcSw : Fin 16
  dstSw : Fin 16
  dstFlow : Fin 16384
  srcFlow : Fin 16384
  fgen : BitVec 8
  seq : BitVec 24
  orig : Option MType
  rkey : BitVec 32
  roff : Nat
  len : Nat
  segmask : BitVec 16
  stat : BitVec 8
  seg : Fin 16
  una : BitVec 24
  op1 : BitVec 64
  op2 : BitVec 64
  deriving DecidableEq, Repr

/-- A packet as its engine takes it: its header, and whether the Reservoir's code cannot correct what is read for it of the flow's state or of the region's entry
(R241). -/
structure MIn where
  hdr : MHdr
  flowBad : Bool
  keyBad : Bool
  deriving DecidableEq, Repr

/-- Where an SPDM exchange runs (R259, R484): over MCTP, over the DOE of an H port's function 0, or with the peer of a fabric link. -/
inductive SpdmAt where
  | i3c
  | doe (pt : PortId)
  | link (g : Fin 64)
  deriving DecidableEq, Repr

/-- What the peer of a fabric link has answered to GET_VERSION and NEGOTIATE_ALGORITHMS (R259): the SPDM versions it offers (0x13 is 1.3), and whether ECDSA P-384
and SHA-384 are among its algorithms. -/
structure SpdmPeer where
  versions : List (BitVec 8)
  p384 : Bool
  sha384 : Bool
  deriving DecidableEq, Repr

/-- What the peer's certificate chain has shown (R260): whether every signature in it holds, whether its leaf is a group unit's certificate, and its
length in bytes. -/
structure SpdmChain where
  intact : Bool
  groupUnit : Bool
  len : Nat
  deriving DecidableEq, Repr

/-- Where a cell leaves: an egress of this switch, or another switch of the fabric (R249). -/
inductive Dest where
  | here (x : XPort)
  | switch (d : Fin 16)
  deriving DecidableEq, Repr

/-- One cell as it crosses Watersmeet: its tag (R99) and, for a cell of a fabric packet, the header that travels with it
(R252). `req` is set on a non-posted request that no ORT entry of this switch tracks yet; `ort` names the entry the cell opens
or answers; `bytes` is the count of valid bytes, `cells` the cells of its packet (R100), and `opc` the opcode of its own protocol, as a
sample record names it (R509). `size` is the bytes of the whole packet as its own header counts them, where a cell of it may leave before its last has come
(R103, R328). `data` says that a cell that answers carries the data of its response (R136). `content` is the 128 bytes the
cell carries, byte 0 the lowest. -/
structure Cell where
  cls : Cls
  dst : Dest
  ing : XPort
  sop : Bool
  eop : Bool
  bad : Bool
  epar : Bool
  psn : Bool
  ort : Option (Nat × Nat)
  answers : Bool
  data : Bool
  req : Option ReqInfo
  srcSw : Fin 16
  hops : Fin 16
  bytes : Nat
  cells : Nat
  opc : Fin 64
  mill : Option MHdr
  content : BitVec 1024
  size : Nat := 0
  deriving DecidableEq, Repr

/-- What arrives of an RMAB packet (R109): the tag of its first cell, and whether all its cells have arrived with that one; or the tag of a later cell of a packet that
has not. `fast` says that the next hop has credit and the egress is no faster than the ingress (R103); `rest` is the content of the later cells of a packet that is
whole. -/
structure BulkIn where
  cell : Cell
  whole : Bool
  fast : Bool
  rest : List (BitVec 1024) := []
  deriving DecidableEq, Repr

/-- The turn of the ingresses that wait for a class (R108); `fast` says of the cell whose turn it is that the next hop has credit and its egress is no faster than its
ingress (R103). -/
structure AdmitTurn where
  cls : Cls
  fast : Bool
  deriving DecidableEq, Repr

/-- Whether a cell is a trim notice (R109). -/
def Cell.isTrim (c : Cell) : Bool := (c.mill.map MHdr.type) == some .trim

/-- The CXL.mem requests of a host: those of R183, MemSpecRd, and any opcode the device does not serve (R282). -/
inductive M2S where
  | memRd | memRdData | memInv | memWr | memWrPtl | memClnEvct | memSpecRd | other
  deriving DecidableEq, Repr

/-- Whether a request stores data. -/
def M2S.isWrite : M2S → Bool
  | .memWr | .memWrPtl => true
  | _ => false

/-- Whether a request asks for data. -/
def M2S.isRead : M2S → Bool
  | .memRd | .memRdData => true
  | _ => false

/-- The operations of the atomic unit (R195). -/
inductive AtomOp where
  | fadd64 (addend : BitVec 64)
  | cas64 (cmp swap : BitVec 64)
  deriving DecidableEq, Repr

/-- The back-invalidate responses a host sends (R187). -/
inductive BiRsp where
  | i | s | e
  deriving DecidableEq, Repr

/-- What an error code says of a word read: clean, an error it corrected, or one it cannot correct. -/
inductive Ecc where
  | ok | corrected | uncorrectable
  deriving DecidableEq, Repr

/-- How a line came from where it was read: as poison from its module, or from the Reservoir with these bits turned over. -/
structure LineIn where
  poison : Bool
  flips : Burst
  deriving DecidableEq, Repr

/-- What Meander's read of a poison-list line finds of the other copy, and the errors that the stacks and the tag-hint cache hold by then for reads of the device's own:
lines that their next read brings with these bits turned over, and sets whose hint entry fails its parity (log entry 144). -/
structure ScrubIn where
  both : Bool
  struck : List (Fin 4 × Fin 32 × Fin (2 ^ 24) × Burst)
  hints : List Nat
  deriving DecidableEq, Repr

/-- BIConflict: the tag it carries, and the line that tag's request is for (R188). -/
structure Conflict where
  tag : BitVec 16
  la : BitVec 44
  deriving DecidableEq, Repr

/-- A look of the coherence engine at a line: which, and what the code of the entry cache says of the set it reads (R180). -/
structure CohLook where
  la : BitVec 44
  ecc : Ecc
  deriving DecidableEq, Repr

/-- The MetaValue of a request or a response: the state asked for or granted (R183). -/
inductive MetaV where
  | i | s | a
  deriving DecidableEq, Repr

/-- The window types (R172). -/
inductive WType where
  | priv | sharedSw | sharedHw
  deriving DecidableEq, Repr

/-- Who an access to pool memory comes from and where its answer goes: a host of this switch, another switch (with the tag that
switch's tracker gave the request), a Millrace engine's work item, the atomic unit's operation, or Headwater's command. -/
inductive Origin where
  | host (pt : PortId) (tag : BitVec 16)
  | switch (sw : Fin 16) (ing : XPort) (ort : Nat × Nat)
  | mill (e : Fin 2) (item : Nat)
  | atomic (id : Nat)
  | headwater (item : Nat)
  deriving DecidableEq, Repr

/-- A target of an extent (R48): a module address in 2 MiB units, an extent of a stripe set, or a unit of the cache region. -/
inductive Tgt where
  | module (mport : Fin 128) (dpaX : Nat)
  | stripe (sset : Fin 4096) (soff : Nat)
  | pinned (unit : Nat)
  deriving DecidableEq, Repr

/-- An access to one line of pool memory on its way through the device: what it asks, the address, the data and byte enables of
a write, the window type and cache mode it came under, the epoch and the target its translation chose, and the host that asks
(R40, R67, R72, R152, R172). -/
structure Acc where
  origin : Origin
  op : M2S
  mv : MetaV
  gpa : Nat
  data : Line
  mask : Mask
  wtype : WType
  cmode : Fin 4
  epoch : Nat
  tgt : Option Tgt
  host : Option (Fin 64)
  inst : Option (Fin 1024)
  deriving DecidableEq, Repr

/-- The line address GPA[49:6]. -/
def Acc.la (a : Acc) : Nat := a.gpa / 64

/-- The extent number GPA[49:21] (R45). -/
def Acc.x (a : Acc) : Nat := a.gpa / 2 ^ 21

/-- Whether an access is the atomic unit's (R196). -/
def Acc.isAtomic (a : Acc) : Bool := match a.origin with | .atomic _ => true | _ => false

/-- The crossbar port a requester stands behind (R27). -/
def Origin.xport : Origin → XPort
  | .host pt _ => pt.x
  | .switch _ ing _ => ing
  | .mill e _ => XPort.int ⟨4 + e.val, by omega⟩
  | .atomic _ => XPort.int 6
  | .headwater _ => XPort.int 7

/-- The unit that raises the crossbar's own events about a crossbar port: the port, or the root for an internal port (R74). -/
def XPort.evUnit (x : XPort) : UnitId := match x.port? with | some pt => .port pt | none => .root

/-- The unit that raises an event about a requester's access. -/
def Origin.unit (o : Origin) : UnitId := o.xport.evUnit

/-- The REQ_KIND of a requester (R124). -/
def Origin.kind : Origin → ReqKind
  | .host _ _ => .host
  | .switch _ _ _ => .otherSwitch
  | .mill e _ => if e.val = 0 then .e0 else .e1
  | .atomic _ => .atomicUnit
  | .headwater _ => .headwater

/-- The requester's own tag (R124). -/
def Origin.tag : Origin → BitVec 16
  | .host _ t => t
  | .switch _ _ o => BitVec.ofNat 16 o.1
  | .mill _ i => BitVec.ofNat 16 i
  | .atomic i => BitVec.ofNat 16 i
  | .headwater i => BitVec.ofNat 16 i

/-- The path an Asryn command arrived by and its reply returns on (R467): MCTP, the rings of a management port, or the CMD
register of a unit (R546). -/
inductive ReplyPath where
  | mctp
  | ring (pt : PortId)
  | unit (u : UnitId)
  deriving DecidableEq, Repr

/-- The fields of a command's header that its run and its reply use (R459): the path it came by, OPCODE, SEQ, CTX, QUIET and PATH; and, for one from a
ring, the bus address and the length of its reply buffer (R470). -/
structure Hdr where
  path : ReplyPath
  opcode : BitVec 16
  seq : BitVec 16
  ctx : BitVec 64
  quiet : Bool
  target : BitVec 32
  buf : BitVec 64
  blen : BitVec 32
  deriving DecidableEq, Repr

/-- A 16-byte slot of a flit the device sends (R323, R327): idle; a fabric header; a content slot, whether it ends its packet,
whether that packet is stomped, and its bytes; a CTRL message. -/
inductive TxSlot where
  | idle
  | head (h : BitVec 128)
  | data (last stomp : Bool) (v : BitVec 128)
  | ctrl (m : BitVec 128)
  deriving DecidableEq, Repr

/-- A flit as the device sends it: the header fields of R324 and the payload slots in order. -/
structure TxFlit where
  seq : Nat
  ack : Nat
  nak : Bool
  null : Bool
  crPool : Nat
  crCnt : Nat
  crCtrl : Nat
  ctNext : Nat
  stomp : Nat
  slots : List TxSlot
  deriving DecidableEq, Repr

/-- The flit header of R324. -/
def TxFlit.header (f : TxFlit) : BitVec 64 := BitVec.ofNat 64 (f.seq % 4096 + f.ack % 4096 * 2 ^ 12
  + (if f.nak then 2 ^ 24 else 0) + (if f.null then 2 ^ 25 else 0) + f.crPool % 8 * 2 ^ 26 + f.crCnt % 512 * 2 ^ 29
  + f.crCtrl % 4 * 2 ^ 38 + f.ctNext % 32 * 2 ^ 40 + f.stomp % 65536 * 2 ^ 45)

/-- The 16 bytes of a slot (R323, R327, R331, R343). -/
def TxSlot.word : TxSlot → BitVec 128
  | .idle => 0
  | .head h => h
  | .data _ _ v => v
  | .ctrl m => m

/-- What a module's link has negotiated (R272, R273): CXL, and flit mode. -/
structure LinkCxl where
  cxl : Bool
  flit : Bool
  deriving DecidableEq, Repr

/-- What the equalization phases of PCI Express have left on a lane (R373, R374): PRE and POST of its transmitter. -/
structure LaneTx where
  pre : Fin 17
  post : Fin 25
  deriving DecidableEq, Repr

/-- What a receiver has adapted (R374): its CTLE code, the three thresholds and the DFE taps. -/
structure LaneRx where
  ctle : Fin 16
  vl : Fin 64
  vm : Fin 64
  vh : Fin 64
  taps : BitVec 64
  deriving DecidableEq, Repr

/-- The thresholds that a receiver has adapted (R374): VREF_L, VREF_M and VREF_H. -/
structure Vrefs where
  vl : Fin 64
  vm : Fin 64
  vh : Fin 64
  deriving DecidableEq, Repr

/-- The thresholds among them. -/
def LaneRx.vrefs (x : LaneRx) : Vrefs := { vl := x.vl, vm := x.vm, vh := x.vh }

/-- What adaptation ended with on one lane (R364 step 6, R365): the phase window at the middle eye, and what the receiver has adapted. -/
structure LaneFit where
  window : Fin 65
  rx : LaneRx
  deriving DecidableEq, Repr

/-- What the hold of a preset has shown (R367): the phase window at the middle eye, and the CTLE code that has adapted. -/
structure PresetHold where
  window : Fin 65
  ctle : Fin 16
  deriving DecidableEq, Repr

/-- What a slot channel senses at one moment (R396): VIN_SLOT and VOUT in mV, the current in mA, the thermistor's resistance in ohms (none: open),
the latch closed, the button pressed. -/
structure SlotSample where
  vin : Nat
  vout : Nat
  iout : Nat
  ntc : Option Nat
  latch : Bool
  button : Bool
  deriving DecidableEq, Repr

/-- What the device has seen of a sampled transaction when it ends (R508, R509): the record's FLAGS and INST, LEN minus one, ADDR and EPOCH, the
switch it went to, the stack that answered a Reservoir hit, and the ns from its arrival to crossbar entry, to the start at the egress and to the
arrival of its response. -/
structure SmpEnd where
  flags : BitVec 8
  inst : Option (Fin 1024)
  lenM1 : Fin 8192
  addr : BitVec 64
  epoch : BitVec 32
  dstSw : Fin 16
  stack : Option (Fin 4)
  entry : Nat
  out : Nat
  resp : Nat
  deriving DecidableEq, Repr

/-- What verification finds in a valid firmware image (R472): its version, SVN and the microcode versions of e0-e7. -/
structure Fw where
  ver : BitVec 32
  svn : BitVec 16
  ucode : List (BitVec 32)
  deriving DecidableEq, Repr

/-- The numbers of an image that keys and digests depend on. -/
def Fw.nums (f : Fw) : List Nat := f.ver.toNat :: f.svn.toNat :: f.ucode.map BitVec.toNat

/-- The clock whose loss brings the device safe state (R383). -/
inductive MainClock where
  | sysclk | corePll | hwPll | rsvPll
  deriving DecidableEq, Repr

/-- What starts a port reset of an H port (R287). -/
inductive PortResetCause where
  | perst | hotReset | linkDisable | linkDown
  deriving DecidableEq, Repr

/-- What lets an H port train again after a port reset (R287): PERST_L of its group rises, or its host enables its link again. -/
inductive PortRelease where
  | perst (g : Fin 64)
  | link (pt : PortId)
  deriving DecidableEq, Repr

/-- Where an image lies (R302): a bus address on a named H port, or a pool address. -/
inductive ImgBuf where
  | bus (pt : PortId) (addr : Nat)
  | pool (gpa : Nat)
  deriving DecidableEq, Repr

/-- The buffer of INS_RESTORE (R302): where it lies, its length, and what the reads of it bring: its bytes, or nothing where one of them fails (log entry 149). -/
structure ImgRead where
  buf : ImgBuf
  len : BitVec 32
  data : Option (List Byte)
  deriving DecidableEq, Repr

/-- The halves of a register access (R9): the whole register, or the low or the high 32 bits of a 64-bit one. -/
inductive RegPart where
  | whole | low | high
  deriving DecidableEq, Repr

/-- An Asryn command: its opcode, with the parameters its chapter gives it (R463, R464). `badParam` is a CMD write whose PARAM its
opcode does not take (R546), `unknown` an opcode the table does not list (R460). RSV_READ comes with the 64-byte lines of its range that the code
finds uncorrectable when they are read (R511). -/
inductive AsrynCmd where
  | ping
  | regRead (off : BitVec 32) (width : BitVec 8)
  | regWrite (off : BitVec 32) (width : BitVec 8) (value : BitVec 64)
  | unitReset
  | devReset
  | hwRestart
  | faultAck (cls : BitVec 8)
  | faultQuery
  | faultRelease
  | mapStage (x : Fin 536870912) (entry : BitVec 128)
  | mapAdvance
  | ssetDefine (n : Fin 4096) (width : Fin 4) (next : BitVec 24) (members : List (Fin 128 × Fin 2097152))
  | moveQuery (t : Fin 65536)
  | dmCopy (src dst : PortId) (sdpa ddpa len : BitVec 42)
  | rsvResize (mapGib dirGib : BitVec 8)
  | rsvPurge (x : Fin 536870912) (n : BitVec 30)
  | rsvFlush (x : Fin 536870912) (n : BitVec 30) (inval : Bool)
  | rsvUnpin (x : Fin 536870912) (n : BitVec 30)
  | rsvSetClear (set : Option Nat)
  | psnClear (x : Fin 536870912) (line : Option (Fin 32768))
  | psnQuery (x : Fin 536870912)
  | dirSetClear (set : Option Nat)
  | flowCreate (f : Fin 16384) (i : Fin 1024) (slot : BitVec 16) (peerSw : Fin 16) (peerFlow : Fin 16384) (fgen : BitVec 8)
  | flowDestroy (f : Fin 16384)
  | regionRevoke (key : BitVec 32)
  | insFreeze
  | insSave (buf : ImgBuf) (len : BitVec 32)
  | insRestore (src : Option (Fin 1024)) (image : ImgRead)
  | insThaw
  | insDiscard
  | flowRepoint (f : Fin 16384) (sw : Fin 16) (peer : Fin 16384)
  | insReset
  | fabTrustSet (digests : List (BitVec 384))
  | fabLinkRetry
  | fabComplete
  | slotCmd (op : BitVec 8)
  | modMbox (op : BitVec 16) (data : List Nat)
  | poolRead (gpa : BitVec 64) (len : BitVec 32)
  | poolWrite (gpa : BitVec 64) (len : BitVec 32) (data : List Byte)
  | rsvRead (addr : BitVec 64) (len : BitVec 32) (flips : List (Fin 64 × Burst))
  | rsvWrite (addr : BitVec 64) (len : BitVec 32) (data : List Byte)
  | fwWrite (off : BitVec 32) (slot : BitVec 8) (data : List Byte)
  | fwActivate (slot : BitVec 8)
  | ucodeLoad
  | cfgWrite (off : BitVec 32) (slot : BitVec 8) (data : List Byte)
  | cfgCommit (slot : BitVec 8)
  | unitCertGet (off : BitVec 32)
  | unitSign (nonce : BitVec 256)
  | badParam (opc : BitVec 16)
  | unknown (opc : BitVec 16)
  deriving DecidableEq, Repr

/-- The opcode of a command (R463). -/
def AsrynCmd.opcode : AsrynCmd → Nat
  | .ping => 0x0001 | .regRead _ _ => 0x0002 | .regWrite _ _ _ => 0x0003 | .unitReset => 0x0004 | .devReset => 0x0005
  | .hwRestart => 0x0006 | .faultAck _ => 0x0010 | .faultQuery => 0x0011 | .faultRelease => 0x0012
  | .mapStage _ _ => 0x0100 | .mapAdvance => 0x0101 | .ssetDefine _ _ _ _ => 0x0102 | .moveQuery _ => 0x0103
  | .dmCopy _ _ _ _ _ => 0x0104
  | .rsvResize _ _ => 0x0200 | .rsvPurge _ _ => 0x0201 | .rsvFlush _ _ _ => 0x0202 | .rsvUnpin _ _ => 0x0203
  | .rsvSetClear _ => 0x0204 | .psnClear _ _ => 0x0205 | .psnQuery _ => 0x0206 | .dirSetClear _ => 0x0207
  | .flowCreate _ _ _ _ _ _ => 0x0300 | .flowDestroy _ => 0x0301 | .regionRevoke _ => 0x0302
  | .insFreeze => 0x0303 | .insSave _ _ => 0x0304 | .insRestore _ _ => 0x0305 | .insThaw => 0x0306 | .insDiscard => 0x0307
  | .flowRepoint _ _ _ => 0x0308 | .insReset => 0x0309
  | .fabTrustSet _ => 0x0400 | .fabLinkRetry => 0x0401 | .fabComplete => 0x0402
  | .slotCmd _ => 0x0500 | .modMbox _ _ => 0x0501
  | .poolRead _ _ => 0x0600 | .poolWrite _ _ _ => 0x0601 | .rsvRead _ _ _ => 0x0602 | .rsvWrite _ _ _ => 0x0603
  | .fwWrite _ _ _ => 0x0700 | .fwActivate _ => 0x0701 | .ucodeLoad => 0x0702 | .cfgWrite _ _ _ => 0x0703
  | .cfgCommit _ => 0x0704
  | .unitCertGet _ => 0x0800 | .unitSign _ => 0x0801
  | .badParam opc => opc.toNat | .unknown opc => opc.toNat

/-- A droop sensor that reads below the warning level of its rail: VDD_SRAM or else VDD_CORE (R445, R446). -/
structure DroopRead where
  sensor : Fin 16
  sram : Bool
  deriving DecidableEq, Repr

/-- An Asryn packet as its path delivers it: the 32 bytes of its header (R459), bytes 32-63 of a ring's entry (R470), and the parameter bytes that came with
it; `cmd` is what the parameters say for an opcode whose chapter lays out no bytes (log entry 15). -/
structure Packet where
  head : List Byte
  tail : List Byte
  params : List Byte
  cmd : AsrynCmd
  deriving DecidableEq, Repr

end Sys2Proof
end

