-- ==== Sys2Proof/Syntax.lean ====
section
/-!
DEFINITION. Syntax.lean: the commands of the device as syntax, one constructor per row of the table of steps. The operands of a
command are what its sender or its outside cause brings: addresses, data, message fields, and outcomes of units that are
not this device (a module's answer, an error-code verdict, a measured value).
-/
namespace Sys2Proof


/-- The commands of the device: one constructor per row of the table of steps, with what the outside brings to it. -/
inductive Instr where
  /-- REGISTER_WRITE (R9). A master writes a register that has no row of its own; 64-bit halves are held or combined per
  master, and reserved encodings are refused. -/
  | registerWrite (m : Master) (u : UnitId) (off : Nat) (part : RegPart) (value : BitVec 64)
  /-- LOW_HALF_READ (R9). A 32-bit read of the low half of a 64-bit register latches the high half for that master. -/
  | lowHalfRead (m : Master) (u : UnitId) (off : Nat)
  /-- RC_FIELD_READ (R11). A read of a register with an RC field returns the field and clears it, crossing into the field's
  domain where needed. -/
  | rcFieldRead (m : Master) (u : UnitId) (off : Nat) (part : RegPart)
  /-- CXLMEM_REQUEST (R40). A CXL.mem request arrives at a host port and is matched to a window, checked by the Levee,
  translated through the extent cache and routed or served. -/
  | cxlmemRequest (pt : PortId) (op : M2S) (mv : MetaV) (hpa : BitVec 52) (tag : BitVec 16) (data : Line) (mask : Mask) (hurt : List (Fin 536870912 × Ecc))
  /-- HOME_ACCESS (R51). An access cell arriving from a fabric port at the home switch is translated and sent to its target,
  the cache, or parked in a hold. -/
  | homeAccess (ing : PortId) (src : Fin 16) (ort : Fin 65536) (gen : Fin 16) (from_ : Option PortId) (op : M2S) (mv : MetaV) (gpa : BitVec 50) (wtype : WType) (cmode : Fin 4) (data : Line) (mask : Mask) (hurt : List (Fin 536870912 × Ecc))
  /-- EXTENT_CACHE_FILL (R59). Engine e5's read of a Plains map entry returns, the entry is installed unless sealed, and the
  waiting lookups proceed. -/
  | extentCacheFill (x : Fin 536870912) (flips : Burst)
  /-- WINDOW_ENABLE (R41). A write of PRT_WINn_CTL setting EN is checked for overlap, range and host limit, and either
  enables the window or is refused with EV040. -/
  | windowEnable (m : Master) (pt : PortId) (n : Fin 16) (wtype : Fin 4) (cmode : Fin 4) (lock : Bool)
  /-- WINDOW_DISABLE (R42). A write of PRT_WINn_CTL clearing EN disables the window, keeping WTYPE and CMODE. -/
  | windowDisable (m : Master) (pt : PortId) (n : Fin 16) (wtype : Fin 4) (cmode : Fin 4)
  /-- WINDOW_LOCK (R44). A write setting PRT_WINn_CTL.LOCK locks every field of the window until warm or cold reset. -/
  | windowLock (m : Master) (pt : PortId) (n : Fin 16) (wtype : Fin 4) (cmode : Fin 4) (en : Bool)
  /-- MAP_STAGE (R57). The manager stages a Plains map entry into the open buffer after its checks. -/
  | mapStage (h : Hdr) (x : Fin 536870912) (entry : BitVec 128)
  /-- MAP_ADVANCE (R65). The manager seals the open buffer and starts or queues an epoch advance, replying with the epoch
  number. -/
  | mapAdvance (h : Hdr)
  /-- SEALED_ENTRIES_WRITTEN (R69). Engine e5 finishes writing the sealed entries to the map region and extent cache. -/
  | sealedEntriesWritten
  /-- EPOCH_ADVANCE_COMPLETE (R69). The last transaction of the old epoch ends, the sealed buffer is released,
  DEV_EPOCH_DONE advances, EV045 or EV048 is logged and a queued advance starts. -/
  | epochAdvanceComplete
  /-- EPOCH_WARN_EXPIRY (R71). An advance still incomplete WARN_US after it started logs EV046. -/
  | epochWarnExpiry
  /-- SSET_DEFINE (R56). The manager defines a stripe-set entry atomically after its checks. -/
  | ssetDefine (h : Hdr) (n : Fin 4096) (width : Fin 4) (next : BitVec 24) (members : List (Fin 128 × Fin 2097152))
  /-- EXTENT_CACHE_INVALIDATE (R63). A write of DEV_XC_CTL.INV starts invalidation of every extent-cache entry line. -/
  | extentCacheInvalidate (m : Master)
  /-- EXTENT_CACHE_INVALIDATE_DONE (R63). The extent-cache invalidation ends and DEV_XC_CTL.BUSY clears. -/
  | extentCacheInvalidateDone
  /-- MOVE_PASS_COMPLETE (R83). The data mover ends a pass over an extent, counts its marked lines and marks it READY or
  HOT. -/
  | movePassComplete (t : Fin 65536)
  /-- COPY_READ_COMPLETE (R82). A line read by the data mover from a source returns and is written to the destination, or
  copied as poison if uncorrectable. -/
  | copyReadComplete (t : Fin 65536) (line : Fin 32768) (data : Line) (came : LineIn)
  /-- DATA_MOVER_PAUSE (R84). A write of DEV_MOV_CTL.PAUSE stops or resumes all copying and holds at a line boundary. -/
  | dataMoverPause (m : Master) (value : BitVec 32)
  /-- MOVE_QUERY (R85). The manager reads the state, pass count and marked lines of a bitmap slot. -/
  | moveQuery (h : Hdr) (t : Fin 65536)
  /-- HOLD_START (R86). The data mover starts a final hold of READY extents once the epoch is steady, parking new writes. -/
  | holdStart
  /-- HOLD_SOURCE_DRAIN_DONE (R87). No accepted-but-unacknowledged write to the held extents remains, and the recopy of
  marked lines begins. -/
  | holdSourceDrainDone
  /-- FLIP (R87). Every recopy write is acknowledged, the final entries are sealed as the next epoch and the parked writes
  are released to their destinations. -/
  | flip
  /-- HOLD_ABORT (R88). A hold step exceeds its time bound, the hold is aborted, parked writes go to TGT_A and EV049 is
  logged. -/
  | holdAbort
  /-- DM_COPY (R463). The manager copies a DPA range from one module port to another without tracking. -/
  | dmCopy (h : Hdr) (src : PortId) (dst : PortId) (sdpa : BitVec 42) (ddpa : BitVec 42) (len : BitVec 42)
  /-- LOSSLESS_CELL_ARRIVAL (R108). A lossless cell arrives at an ingress and is admitted into reserved or shared space,
  causes push-out, or waits at ingress. -/
  | losslessCellArrival (c : Cell) (fast : Bool)
  /-- WAITING_CELL_ADMIT (R108). A cell waiting at its ingress is admitted once space frees, round robin among waiting
  ingresses. -/
  | waitingCellAdmit (turn : AdmitTurn)
  /-- RMAB_PACKET_ARRIVAL (R109). An RMAB packet's first cell arrives and the packet is admitted or trimmed at admission. -/
  | rmabPacketArrival (b : BulkIn)
  /-- CELL_SEND (R102). An egress finishes a cell or packet and chooses the next by tier, weight and credit. -/
  | cellSend (x : XPort) (credit : List Cls) (ecc : Ecc)
  /-- RMAB_AGE_EVICTION (R116). An RMAB packet that waited beyond AGE_US at its egress is evicted and trimmed. -/
  | rmabAgeEviction (x : XPort)
  /-- FP_THRESHOLD_WRITE (R111). A write of a Floodplain class reservation or shared limit is applied or refused with EV062. -/
  | fpThresholdWrite (m : Master) (k : Fin 7) (shared : Bool) (value : BitVec 32)
  /-- ORT_RESPONSE (R130). A response arrives for an ORT entry, is forwarded to the requester, and frees the entry, or is
  discarded as late. -/
  | ortResponse (pt : PortId) (tag : BitVec 16) (ix : Fin 65536) (gen : Fin 16) (data : Line) (poison : Bool) (mv : MetaV) (code : Fin 7) (old : BitVec 64)
  /-- ORT_TIMEOUT (R127). An ORT entry OPEN for TMO_US is declared a lost path and EV067 is logged. -/
  | ortTimeout (ix : Fin 65536)
  /-- ORT_LOST_PATH_ANSWER (R128). Engine e7 answers the entries of a lost path with synthesized responses and moves them to
  QUAR. -/
  | ortLostPathAnswer
  /-- ORT_QUARANTINE_EXPIRY (R130). A QUAR entry reaches QUAR_MS and becomes FREE, or moves its owed poison-add notice into
  the notice queue. -/
  | ortQuarantineExpiry (ix : Fin 65536)
  /-- POISON_ADD_NOTICE_SEND (R131). An owed poison-add notice is sent to its home switch once a path exists. -/
  | poisonAddNoticeSend (line : BitVec 44)
  /-- POISON_ADD_NOTICE (R131). The home switch receives a poison-add notice, adds the lines to its poison list and
  acknowledges it. -/
  | poisonAddNotice (src : Fin 16) (line : BitVec 44) (n : Fin 65)
  /-- POISON_ADD_NOTICE_ACK (R131). The sender receives the acknowledgement of a poison-add notice and drops the owed
  notice. -/
  | poisonAddNoticeAck (src : Fin 16) (line : BitVec 44)
  /-- EGRESS_STALL (R132). An egress that sends nothing for STALL_US is declared stalled and down, flushed and contained. -/
  | egressStall (x : XPort)
  /-- RSV_RESIZE (R145). The manager starts a Reservoir partition resize, or it is refused as busy. -/
  | rsvResize (h : Hdr) (mapGib : BitVec 8) (dirGib : BitVec 8)
  /-- RESIZE_FLUSH_DONE (R146). All dirty lines are written back, the boundaries move, the directory re-forms and allocation
  resumes. -/
  | resizeFlushDone
  /-- CACHE_SET_READ_RETURN (R150). A parallel read of a cache set returns, installs the hint entry and decides hit or miss. -/
  | cacheSetReadReturn (id : Nat) (flips : List (Fin 16 × Burst)) (hintBad : Bool)
  /-- RSV_PURGE (R155). The manager invalidates the cached lines of an extent range, discarding dirty data. -/
  | rsvPurge (h : Hdr) (x : Fin 536870912) (n : BitVec 30)
  /-- RSV_FLUSH (R155). The manager writes back the dirty lines of an extent range, optionally invalidating them. -/
  | rsvFlush (h : Hdr) (x : Fin 536870912) (n : BitVec 30) (inval : Bool)
  /-- RSV_UNPIN (R155). The manager clears PIN on the lines of an extent range. -/
  | rsvUnpin (h : Hdr) (x : Fin 536870912) (n : BitVec 30)
  /-- RSV_SET_CLEAR (R161). The manager ends a suspect cache set, or all of them, freeing LOST ways. -/
  | rsvSetClear (h : Hdr) (set : Option Nat)
  /-- PINNED_UNIT_WITHDRAWN (R158). The withdrawal of a Reservoir-pinned unit's sets ends and the waiting accesses proceed. -/
  | pinnedUnitWithdrawn (u : BitVec 16)
  /-- PARTIAL_WRITE_MERGE (R160). A partial write to Reservoir-held data merges into a merge-buffer entry or allocates one
  and starts the old-line read. -/
  | partialWriteMerge (o : Origin) (gpa : BitVec 50) (data : Line) (mask : Mask) (cmode : Fin 4)
  /-- MERGE_OLD_LINE_ARRIVAL (R160). The old line for a merge-buffer entry arrives, merges, and the merged line is written. -/
  | mergeOldLineArrival (la : BitVec 44) (data : Line) (came : LineIn)
  /-- MERGE_WRITE_COMPLETE (R160). A merged line's DRAM write completes and frees the entry for writes that waited. -/
  | mergeWriteComplete (la : BitVec 44)
  /-- SCRUB_READ (R164). Meander issues the next scrub read in a pseudo-channel whose queue is idle, starting a lap at line
  0. -/
  | scrubRead (st : Fin 4) (c : Fin 32)
  /-- SCRUB_READ_RETURN (R164). A scrub read returns and a correctable line is written back unless a write intervened. -/
  | scrubReadReturn (st : Fin 4) (c : Fin 32) (data : BitVec 512) (words : BitVec 64) (check : BitVec 64) (came : ScrubIn)
  /-- SCRUB_LAP_WARN (R165). A lap that has run longer than LAP_WARN logs EV074. -/
  | scrubLapWarn (st : Fin 4) (c : Fin 32)
  /-- PSN_CLEAR (R169). The manager removes poison-list entries of a line or extent. -/
  | psnClear (h : Hdr) (x : Fin 536870912) (line : Option (Fin 32768))
  /-- PSN_QUERY (R169). The manager reads the poison-list entries of an extent. -/
  | psnQuery (h : Hdr) (x : Fin 536870912)
  /-- COHERENCE_REQUEST (R183). Engine e4 serves a request at the head of its line's queue, sending snoops and updating the
  directory entry. -/
  | coherenceRequest (look : CohLook)
  /-- DIRECTORY_SET_READ_RETURN (R180). A directory set read from the region returns into the entry cache, or makes the set
  suspect when uncorrectable. -/
  | directorySetReadReturn (set : BitVec 30) (flips : Burst)
  /-- BIRSP (R187). A back-invalidate response arrives and ends its snoop, or is discarded when unmatched. -/
  | birsp (h : Fin 64) (la : BitVec 44) (rsp : BiRsp)
  /-- BICONFLICT (R188). A host sends BIConflict and the device answers BIConflictAck after earlier responses. -/
  | biconflict (pt : PortId) (c : Conflict)
  /-- SNOOP_TIMEOUT (R190). A snoop unanswered for BI_TMO_US contains the host, marks it lost and ends its snoops. -/
  | snoopTimeout (h : Fin 64) (la : BitVec 44)
  /-- CONTAIN_NOTICE (R190). A switch receives a contain notice and contains the named host port. -/
  | containNotice (src : Fin 16) (sw : Fin 16) (pt : PortId)
  /-- HOST_RETIRE (R177). A write of V = 0 to a valid host-table entry retires the host and starts its walk. -/
  | hostRetire (m : Master) (n : Fin 64) (value : BitVec 32)
  /-- HOST_WALK_COMPLETE (R192). The directory walk for lost hosts ends, their bits clear and EV080 is logged. -/
  | hostWalkComplete
  /-- DIR_SET_CLEAR (R193). The manager ends the suspect state of a directory set or all sets. -/
  | dirSetClear (h : Hdr) (set : Option Nat)
  /-- ATOMIC_OP (R196). The atomic unit takes a line's busy entry for an operation, recalls host copies and reads the value. -/
  | atomicOp (o : Origin) (op : AtomOp) (gpa : BitVec 64)
  /-- ATOMIC_READ_RETURN (R196). The atomic unit's read returns, the result is computed, written and returned, and the entry
  released. -/
  | atomicReadReturn (id : Nat) (data : Line) (bad : Bool)
  /-- FLOW_CREATE (R201). The manager creates a flow end bound to an instance and a peer. -/
  | flowCreate (h : Hdr) (f : Fin 16384) (i : Fin 1024) (slot : BitVec 16) (peerSw : Fin 16) (peerFlow : Fin 16384) (gen : BitVec 8)
  /-- FLOW_DESTROY (R201). The manager returns a flow end to FREE once its completions are written. -/
  | flowDestroy (h : Hdr) (f : Fin 16384)
  /-- EQ_SETUP (R205). The host driver sets up the instance's event queue through the command interface. -/
  | eqSetup (m : Master) (i : Fin 1024)
  /-- FLOW_SETUP (R205). The host driver gives a flow slot its submission and completion rings. -/
  | flowSetup (m : Master) (i : Fin 1024)
  /-- REGION_REGISTER (R214). The host driver registers a HOST or POOL region and receives its key, after Levee checks for
  POOL. -/
  | regionRegister (m : Master) (i : Fin 1024)
  /-- INSTANCE_REGION_REVOKE (R237). The host driver revokes one of its regions through the instance command interface,
  setting CLOSING. -/
  | instanceRegionRevoke (m : Master) (i : Fin 1024)
  /-- REGION_QUERY (R205). The host driver reads a region's base, length and state. -/
  | regionQuery (m : Master) (i : Fin 1024)
  /-- REGION_REVOKE (R237). The manager revokes a region with the Asryn command, setting CLOSING. -/
  | regionRevoke (h : Hdr) (key : BitVec 32)
  /-- REVOKE_DONE (R237). Every packet counted against a closing region has ended; GEN increments, the index is freed and
  REVOKE_DONE is reported. -/
  | revokeDone (ix : BitVec 24)
  /-- SQ_DOORBELL (R207). The host driver writes a new submission ring tail for a flow slot. -/
  | sqDoorbell (m : Master) (i : Fin 1024) (slot : Fin 1024) (value : BitVec 32)
  /-- CQ_DOORBELL (R207). The host driver writes a new completion ring head for a flow slot. -/
  | cqDoorbell (m : Master) (i : Fin 1024) (slot : Fin 1024) (value : BitVec 32)
  /-- EQ_DOORBELL (R242). The host driver frees event queue entries by writing MRC_EQ_DB. -/
  | eqDoorbell (m : Master) (i : Fin 1024) (value : BitVec 32)
  /-- DESCRIPTOR_FETCHED (R210). A descriptor fetched from the submission ring arrives and is decoded, completed as
  malformed, or started. -/
  | descriptorFetched (item : Nat) (bytes : Option (List Byte))
  /-- LOCAL_READ_COMPLETE (R218). The engine's bus-master read of a WRITE source returns and the data is cut into WDATA
  packets and sent within the window. -/
  | localReadComplete (item : Nat) (bytes : Option (List Byte))
  /-- WDATA (R221). A WDATA packet reaches the target engine, passes or fails its tests, and is recorded and placed. -/
  | wdata (p : MIn) (data : List Byte)
  /-- RREQ (R232). An RREQ reaches the target engine, is tested and its blocks are read. -/
  | rreq (p : MIn)
  /-- RREQ_READ_COMPLETE (R232). A target read of a requested block completes and an RDATA is returned. -/
  | rreqReadComplete (item : Nat) (stat : Fin 9) (data : List Byte)
  /-- ATOMIC (R233). An ATOMIC packet reaches the target engine, is tested and forwarded to the home atomic unit, or
  answered from the result cache. -/
  | atomic (p : MIn) (op : AtomOp)
  /-- ATOMIC_RESULT (R233). The atomic unit's result reaches the target engine, which caches it and sends an ARSP. -/
  | atomicResult (item : Nat) (code : Fin 7) (old : BitVec 64)
  /-- PLACEMENT_COMPLETE (R223). A WDATA placement ends, by the ordering read or by acceptance of pool writes, and the
  position is marked ended. -/
  | placementComplete (item : Nat)
  /-- ACK_DELAY_EXPIRY (R225). ACK_DELAY passes after an unacknowledged end and an ACK is sent. -/
  | ackDelayExpiry (f : Fin 16384)
  /-- ACK (R226). The sender receives an ACK, ends packets, resends trimmed ones and completes descriptors. -/
  | ack (p : MIn) (cum : BitVec 24) (start : BitVec 24) (sack : BitVec 256) (trans : List (Nat × Nat)) (rejs : List (Nat × Nat)) (more : Bool)
  /-- RDATA (R232). The initiator receives an RDATA block and writes it to LADDR. -/
  | rdata (p : MIn) (data : List Byte)
  /-- ARSP (R233). The initiator receives an ARSP and ends the ATOMIC. -/
  | arsp (p : MIn)
  /-- TRIM (R230). A trim notice reaches the destination engine, which reports a TRIM record or reissues the RREQ block. -/
  | trim (p : MIn)
  /-- RTO_EXPIRY (R229). A packet not ended RTO after its sending is resent with RETX, or ends RETRY_EXHAUSTED. -/
  | rtoExpiry (f : Fin 16384) (seq : BitVec 24)
  /-- RNR_RESEND (R231). RNR_US after a RETRY record the sender resends the packet. -/
  | rnrResend (f : Fin 16384) (seq : BitVec 24)
  /-- RNR_TIMEOUT (R231). A packet meets RETRY for RNR_MAX_MS, ends RNR_TIMEOUT and the flow end enters ERROR. -/
  | rnrTimeout (f : Fin 16384) (seq : BitVec 24)
  /-- ABORT (R240). A flow end receives ABORT from its peer and enters ERROR. -/
  | abort (p : MIn)
  /-- PATH_RECOVERY_TIMEOUT (R238). A peer path not restored within REC_MS puts the flow end in ERROR and writes
  PEER_UNREACHABLE. -/
  | pathRecoveryTimeout (f : Fin 16384)
  /-- FABRIC_ID_WRITE (R245). A write of DEV_FAB_ID is applied or refused with EV101 while a fabric link is active. -/
  | fabricIdWrite (m : Master) (value : BitVec 32)
  /-- ROUTING_TABLE_WRITE (R247). A write of a configured set DEV_FAB_RTn is applied or refused with EV101. -/
  | routingTableWrite (m : Master) (n : Fin 16) (value : BitVec 64)
  /-- EFFECTIVE_SET_RECOMPUTE (R248). After a change in link state or reach, the effective sets are recomputed and path-loss
  or restored notices raised. -/
  | effectiveSetRecompute
  /-- REACH_ADVERTISEMENT (R255). A reach advertisement arrives on a fabric link and is applied to the effective sets. -/
  | reachAdvertisement (g : Fin 64) (mask : BitVec 16) (seq : BitVec 32)
  /-- REACH_REFRESH (R254). REFRESH_US passes and the switch sends its reach advertisements again. -/
  | reachRefresh
  /-- LINK_AUTHENTICATION_COMPLETE (R259). The SPDM authentications of a fabric link end, passing into ADMIT or failing the
  link. -/
  | linkAuthenticationComplete (g : Fin 64) (version : SpdmPeer) (root : BitVec 384) (chain : SpdmChain) (signature : Bool)
  /-- IDENTITY (R261). A fabric link's identity message arrives and is checked against fabric ID, switch ID and expected
  peer. -/
  | identity (g : Fin 64) (fabId : BitVec 16) (sw : Fin 16) (grp : Fin 64) (mapGib : BitVec 8)
  /-- CRINIT (R333). A CRINIT message arrives and sets the sender's reserve and shared credits; the link goes UP when ADMIT
  is done. -/
  | crinit (g : Fin 64) (shared : BitVec 16) (reserves : List (BitVec 8)) (rbMax : BitVec 16)
  /-- AUTH_TIMEOUT (R262). Authentication and identity exchange not done within AUTH_MS fail the link. -/
  | authTimeout (g : Fin 64)
  /-- FAB_TRUST_SET (R260). The manager sets the trust list of root digests. -/
  | fabTrustSet (h : Hdr) (digests : List (BitVec 384))
  /-- FAB_LINK_RETRY (R262). The manager takes a failed fabric link out of FAIL to try again. -/
  | fabLinkRetry (h : Hdr)
  /-- FAB_COMPLETE (R264). The manager reports fabric bring-up complete; READY sets and flow ends leave DEPARTED. -/
  | fabComplete (h : Hdr)
  /-- GROUP_MODE_CHANGE (R270). A write of GRP_CFG is refused or starts a mode or width change. -/
  | groupModeChange (m : Master) (g : Fin 64) (value : BitVec 32)
  /-- GROUP_PHY_OFF_DONE (R271). The group PHY domain is off and the new mode and width take effect. -/
  | groupPhyOffDone (g : Fin 64)
  /-- GROUP_POWER_UP_DONE (R271). The group PHY domain is on with calibration applied; CHG clears, EV114 or EV183 is logged
  and training begins. -/
  | groupPowerUpDone (g : Fin 64)
  /-- HOST_PORT_CONFIG_WRITE (R279). A write of PRT_HCFG is applied or refused with EV115. -/
  | hostPortConfigWrite (m : Master) (pt : PortId) (value : BitVec 32)
  /-- MODULE_PORT_CONFIG_WRITE (R289). A write of PRT_MCFG binding a slot channel is applied or refused with EV115. -/
  | modulePortConfigWrite (m : Master) (pt : PortId) (value : BitVec 32)
  /-- HDM_DECODER_COMMIT (R275). A host commits a host-owned HDM decoder, which sets window BASE and EN or fails with EV109. -/
  | hdmDecoderCommit (pt : PortId) (n : Fin 16) (base : BitVec 52) (size : BitVec 53) (ways : Fin 17)
  /-- HDM_DECODER_DECOMMIT (R275). A host decommits a host-owned decoder and the window's EN clears. -/
  | hdmDecoderDecommit (pt : PortId) (n : Fin 16)
  /-- CDAT_READ (R276). A host reads the port's CDAT through DOE. -/
  | cdatRead (pt : PortId)
  /-- IDENTIFY_MEMORY_DEVICE (R280). A host's Identify Memory Device command returns the volatile capacity of its windows. -/
  | identifyMemoryDevice (pt : PortId)
  /-- GET_PARTITION_INFO (R280). A host's Get Partition Info command is answered by function 0. -/
  | getPartitionInfo (pt : PortId)
  /-- GET_SUPPORTED_LOGS (R280). A host's Get Supported Logs command is answered. -/
  | getSupportedLogs (pt : PortId)
  /-- GET_LOG (R280). A host reads the Command Effects Log. -/
  | getLog (pt : PortId) (effects : Bool)
  /-- GET_EVENT_RECORDS (R280). A host reads the port's relayed event records. -/
  | getEventRecords (pt : PortId)
  /-- CLEAR_EVENT_RECORDS (R280). A host clears relayed event records. -/
  | clearEventRecords (pt : PortId) (handles : List Nat)
  /-- GET_HEALTH_INFO (R280). A host reads the device's fault summary. -/
  | getHealthInfo (pt : PortId)
  /-- GET_POISON_LIST (R280). A host reads the poison-list lines within its enabled windows. -/
  | getPoisonList (pt : PortId)
  /-- CXLIO_MEMORY_REQUEST (R281). A CXL.io memory request reaches a host-port function and is served or answered as
  unimplemented. -/
  | cxlioMemoryRequest (pt : PortId) (fn : Fin 65) (bar2 : Bool) (write : Bool) (addr : BitVec 32) (lenM1 : Fin 4096) (value : BitVec 64) (tag : BitVec 10) (bi : Option Bool)
  /-- HOST_LINK_UP (R273). An H port's link trains and enables CXL.mem, or runs CXL.io only with EV108. -/
  | hostLinkUp (pt : PortId) (cxl : Bool) (rate : Fin 7) (width : Fin 9) (flit : Fin 3) (tx : List LaneTx) (rx : List LaneRx)
  /-- BME_CLEAR (R284). A function's Bus Master Enable goes to 0 and mastered writes are held. -/
  | bmeClear (pt : PortId) (fn : Fin 65)
  /-- BME_SET (R284). Bus Master Enable returns to 1 and held writes are issued in order. -/
  | bmeSet (pt : PortId) (fn : Fin 65)
  /-- BME_HOLD_EXPIRY (R285). The BME hold limit passes with BME still 0; held placements are rejected and flows enter
  ERROR. -/
  | bmeHoldExpiry (pt : PortId) (fn : Fin 65)
  /-- PORT_RESET (R287). PERST assertion, Hot Reset, Link Disable or link loss starts an H port reset. -/
  | portReset (pt : PortId) (cause : PortResetCause)
  /-- PORT_RESET_COMPLETE (R287). The port's instance resets and host walk end and the port may train. -/
  | portResetComplete (pt : PortId)
  /-- MODULE_ENUMERATION_START (R290). PG asserts on an enabled M port and Headwater starts enumerating the module. -/
  | moduleEnumerationStart (pt : PortId)
  /-- MODULE_LINK_TRAINED (R290). The module link trains and Headwater checks its class code and DVSEC. -/
  | moduleLinkTrained (pt : PortId) (l : LinkCxl) (rate : Fin 7) (width : Fin 9) (classOk : Bool) (tx : List LaneTx) (rx : List LaneRx)
  /-- MEMORY_ACTIVE (R290). The module reports Memory_Active and Headwater issues its identify commands. -/
  | memoryActive (pt : PortId)
  /-- MODULE_MAILBOX_RESPONSE (R290). A module mailbox command returns; Headwater commits decoder 0 and sets the port READY,
  or fails it. -/
  | moduleMailboxResponse (pt : PortId) (capacity : BitVec 64) (commit : Bool) (data : List Nat)
  /-- ENUMERATION_TIMEOUT (R290). An enumeration step exceeds its limit and the port enters FAIL with EV111. -/
  | enumerationTimeout (pt : PortId)
  /-- EVENT_POLL (R291). EVT_POLL_MS passes and Headwater reads, relays and clears the module's event records. -/
  | eventPoll (pt : PortId) (records : List (Nat × Nat))
  /-- MODULE_FATAL_ERROR (R291). A module reports a fatal error or viral indication and its port is contained. -/
  | moduleFatalError (pt : PortId)
  /-- MODULE_LINK_DOWN (R292). An M link goes down or its slot reports removal; lost paths are declared and the port becomes
  EMPTY. -/
  | moduleLinkDown (pt : PortId)
  /-- MOD_MBOX (R292). The manager passes a mailbox command to a READY module. -/
  | modMbox (h : Hdr) (opcode : BitVec 16) (data : List Nat)
  /-- VF_ENABLE_CHANGE (R294). The host changes VF Enable or NumVFs and instances leaving the range are reset. -/
  | vfEnableChange (pt : PortId) (n : Fin 65)
  /-- FUNCTION_LEVEL_RESET (R312). A Function Level Reset of a VF starts an instance reset. -/
  | functionLevelReset (pt : PortId) (fn : Fin 65)
  /-- MAILBOX_SLOT_WRITE (R299). A write to a mailbox slot is stored, or dropped with EV119 from the wrong side or while
  FULL. -/
  | mailboxSlotWrite (m : Master) (i : Fin 1024) (h2m : Bool) (j : Fin 64) (value : BitVec 32)
  /-- H2M_FULL_SET (R300). The instance side sets H2M_FULL; the pending bit sets and EV118 may be logged. -/
  | h2mFullSet (m : Master) (i : Fin 1024)
  /-- H2M_FULL_CLEAR (R300). The manager side clears H2M_FULL; the pending bit clears and the mailbox vector is sent. -/
  | h2mFullClear (m : Master) (i : Fin 1024)
  /-- M2H_FULL_SET (R300). The manager side sets M2H_FULL and the mailbox vector is sent. -/
  | m2hFullSet (m : Master) (i : Fin 1024)
  /-- M2H_FULL_CLEAR (R299). The instance side clears M2H_FULL. -/
  | m2hFullClear (m : Master) (i : Fin 1024)
  /-- INS_FREEZE (R303). The manager freezes an instance and starts its drain. -/
  | insFreeze (h : Hdr)
  /-- FREEZE_DRAIN_END (R303). A freeze drain ends and INS_FREEZE replies success. -/
  | freezeDrainEnd (i : Fin 1024)
  /-- FREEZE_DRAIN_TIMEOUT (R303). A freeze drain exceeds DRAIN_MS; the instance returns to ACTIVE and EV120 is logged. -/
  | freezeDrainTimeout (i : Fin 1024)
  /-- INS_SAVE (R304). The manager writes a frozen instance's image to a buffer. -/
  | insSave (h : Hdr) (buf : ImgBuf) (len : BitVec 32)
  /-- INS_RESTORE (R308). The manager checks an image and restores it into a target instance, which becomes FROZEN. -/
  | insRestore (h : Hdr) (src : Option (Fin 1024)) (image : ImgRead)
  /-- INS_THAW (R302). The manager returns a FROZEN instance to ACTIVE and fetching resumes. -/
  | insThaw (h : Hdr)
  /-- INS_DISCARD (R302). The manager frees a FROZEN instance's flows and regions and makes it ACTIVE and empty. -/
  | insDiscard (h : Hdr)
  /-- FLOW_REPOINT (R302). The manager sends a flow end's later packets to a new peer. -/
  | flowRepoint (h : Hdr) (f : Fin 16384) (sw : Fin 16) (peer : Fin 16384)
  /-- INS_RESET (R313). The manager starts an instance reset with drain and squash. -/
  | insReset (h : Hdr)
  /-- INSTANCE_RESET_SQUASH (R313). T_DRAIN expires or the drain empties; remaining ORT entries of the instance are
  squashed. -/
  | instanceResetSquash (i : Fin 1024)
  /-- INSTANCE_RESET_COMPLETE (R313). Flow ends are freed and regions revoked; the instance becomes ACTIVE or DISABLED and
  EV122 is logged. -/
  | instanceResetComplete (i : Fin 1024)
  /-- LEVEE_RULE_RANGE_WRITE (R320). A write of a rule's BASE or LIMIT is held until the rule's CTL write. -/
  | leveeRuleRangeWrite (m : Master) (n : Fin 4096) (limit : Bool) (value : BitVec 64)
  /-- LEVEE_RULE_CTL_WRITE (R320). A write of LEV_RULEn_CTL applies the rule with its held range, or is ignored when locked. -/
  | leveeRuleCtlWrite (m : Master) (n : Fin 4096) (value : BitVec 64)
  /-- LEVEE_RULE_LOCK (R320). A write setting LOCK locks the rule until cold reset. -/
  | leveeRuleLock (m : Master) (n : Fin 4096) (value : BitVec 63)
  /-- DEBUG_ACCESS (R321). The debug master reads or writes an address under the Levee and the secret-region rule. -/
  | debugAccess (space : Fin 3) (write : Bool) (addr : BitVec 64) (len : Fin 4097) (data : List Byte)
  /-- FLIT (R339). A flit arrives on a fabric link and is accepted, or refused with stomp, NAK and DISCARD. -/
  | flit (g : Fin 64) (flit : BitVec 4096)
  /-- CREDIT_RETURN_TIMER (R336). Returns pending for two flit times with no sequenced flit going out cause an idle
  sequenced flit to carry them. -/
  | creditReturnTimer (g : Fin 64)
  /-- ACK_TIMEOUT (R341). The peer's ACK has not advanced for ACK_TMO; the sender replays, or takes the link down at
  REPLAY_MAX. -/
  | ackTimeout (g : Fin 64)
  /-- RX_POOL_CONFIG_WRITE (R332). A write of PRT_FL_RXCFG or PRT_FL_RXLIM is stored for the next CRINIT or refused with
  EV139. -/
  | rxPoolConfigWrite (m : Master) (g : Fin 64) (lim : Bool) (value : BitVec 64)
  /-- RESHAPE (R348). A write of PRT_FL_RESHAPE.GO sends PAUSE_REQ, or is refused with EV139. -/
  | reshape (m : Master) (g : Fin 64) (value : BitVec 32)
  /-- PAUSE_REQ (R348). A PAUSE_REQ arrives and the peer answers with PAUSE_RSP and enters RETRAIN when accepted. -/
  | pauseReq (g : Fin 64) (width : BitVec 8) (base : BitVec 8) (rate : BitVec 8) (token : BitVec 8)
  /-- PAUSE_RSP (R349). A PAUSE_RSP arrives; on accept the requester enters RETRAIN, otherwise EV139 is logged. -/
  | pauseRsp (g : Fin 64) (result : BitVec 8) (token : BitVec 8)
  /-- RETRAIN_DONE (R349). Lanes have retrained; the ends exchange NULL flits, replay and return to RUN. -/
  | retrainDone (g : Fin 64) (good : BitVec 8)
  /-- RETRAIN_TIMEOUT (R351). A retrain exceeds RT_MAX_US and the link goes down. -/
  | retrainTimeout (g : Fin 64)
  /-- LANE_ALIGNMENT_LOSS (R368). A lane misses two markers in succession, loses alignment and the link degrades or goes
  down. -/
  | laneAlignmentLoss (ln : LaneId)
  /-- ALIGNMENT_MARKER (R359). A lane receives an alignment marker and takes its seed, position and preset request, or
  counts it as not accepted. -/
  | alignmentMarker (ln : LaneId) (symbols : BitVec 128) (frame : List (Fin 4)) (vref : Vrefs) (taps : BitVec 64) (move : Fin 3)
  /-- TRAIN_START (R364). A fabric link leaves DOWN and training starts with the forwarded clock and frames. -/
  | trainStart (g : Fin 64)
  /-- FCI_LOCK (R364). The forwarded clock is detected and classed, and receive clock distribution locks. -/
  | fciLock (g : Fin 64) (code : Fin 4)
  /-- PHASE_SWEEP_DONE (R364). Each lane finishes its phase sweep and sets its phase code. -/
  | phaseSweepDone (g : Fin 64) (codes : List (Fin 64))
  /-- LANE_DESKEW_DONE (R364). Lanes have accepted two markers, are mapped and deskewed. -/
  | laneDeskewDone (g : Fin 64)
  /-- PRESET_HOLD_EXPIRY (R367). A preset's 110 µs hold ends; the lane measures it and requests the next or the best. -/
  | presetHoldExpiry (ln : LaneId) (hold : PresetHold)
  /-- TRAIN_DONE (R365). Adaptation ends, the link width is chosen and training ends, or fails with AUTO_DEG 0. -/
  | trainDone (g : Fin 64) (fits : List LaneFit)
  /-- TRAIN_TIMEOUT (R364). Training not ended within its limit fails with EV140 and the link returns to DOWN. -/
  | trainTimeout (g : Fin 64)
  /-- TRAIN_RETRY (R364). TRY_MS after a failure a new training attempt starts. -/
  | trainRetry (g : Fin 64)
  /-- FCI_LOSS (R368). FCI_OK falls and all lanes of the group lose alignment with EV142. -/
  | fciLoss (g : Fin 64)
  /-- LINK_TEST (R370). A write of GRP_LTEST.GO takes the link down and starts a link test. -/
  | linkTest (m : Master) (g : Fin 64) (value : BitVec 32)
  /-- LINK_TEST_END (R370). The link test duration ends; EV145 is logged and the link starts TRAIN. -/
  | linkTestEnd (g : Fin 64)
  /-- MARGIN_MEASUREMENT (R377). A write of LN_MRG_CTL.GO starts a shadow-slicer measurement, or sets BLOCKED. -/
  | marginMeasurement (m : Master) (ln : LaneId) (value : BitVec 32)
  /-- MARGIN_MEASUREMENT_DONE (R377). A margin measurement ends; DONE sets and EV144 is logged. -/
  | marginMeasurementDone (ln : LaneId) (errs : BitVec 48)
  /-- TX_EQ_WRITE (R371). A write of LN_TXEQ is applied or refused for an insufficient main cursor. -/
  | txEqWrite (m : Master) (ln : LaneId) (value : BitVec 32)
  /-- USER_CALIBRATION_WRITE (R375). A write of LN_CAL_USR crosses to the lane and is applied at the next marker or symbol
  boundary, with clamping. -/
  | userCalibrationWrite (m : Master) (ln : LaneId) (value : BitVec 64)
  /-- SYSCLK_LOSS (R383). SYSCLK or a core, Headwater or Reservoir PLL is lost and the device enters its safe state. -/
  | sysclkLoss (c : MainClock)
  /-- REFCLK_LOSS (R383). REFCLKq is lost and every H and M port of its quadrant goes down. -/
  | refclkLoss (q : Fin 4)
  /-- GROUP_PLL_UNLOCK (R383). A group PLL loses lock and the group's ports go down. -/
  | groupPllUnlock (g : Fin 64)
  /-- AUXCLK_LOSS (R383). AUXCLK is lost and the always-on domain and slot die switch to the internal oscillator. -/
  | auxclkLoss
  /-- CLOCK_RESTORED (R383). A lost REFCLKq or AUXCLK is good for two windows and is taken back into use. -/
  | clockRestored (c : Option (Fin 4))
  /-- CROSSING_ACKNOWLEDGE (R388). A crossing's acknowledge returns; PEND clears or the shadow write starts its crossing. -/
  | crossingAcknowledge (u : UnitId) (off : Nat)
  /-- PRESENCE_STABLE (R400). A module's presence has been stable for 100 ms; the channel enters OFF or records a re-
  insertion. -/
  | presenceStable (k : Fin 64) (latch : Bool)
  /-- REMOVAL (R406). PRSNT_L reads high twice; the gate turns off, the port is contained and the channel enters COOLDOWN. -/
  | removal (k : Fin 64)
  /-- LATCH_OPEN (R406). MRL_L reads high twice with MRL_EN; a powered slot turns off and its port is contained. -/
  | latchOpen (k : Fin 64)
  /-- SHORT_PRESS (R414). A button press released within 2 s acts on the channel state. -/
  | shortPress (k : Fin 64)
  /-- LONG_PRESS (R414). A button held 5 s forces a powered slot off when FORCE_EN is 1. -/
  | longPress (k : Fin 64)
  /-- SLOT_CMD (R402). The manager issues a slot operation through the Asryn command to a channel or its ancestors. -/
  | slotCmd (h : Hdr) (op : BitVec 8)
  /-- SLOT_ON (R400). The manager's ON operation powers an admissible slot, or is refused. -/
  | slotOn (m : Master) (k : Fin 64)
  /-- SLOT_OFF (R403). The manager's OFF operation turns a slot's gate off into DISCHARGE. -/
  | slotOff (m : Master) (k : Fin 64)
  /-- SLOT_ABORT (R400). The manager's ABORT cancels an armed power-on or removal request. -/
  | slotAbort (m : Master) (k : Fin 64)
  /-- IDENT_ON (R415). The manager's IDENT_ON sets the identify pattern on ATTNLED. -/
  | identOn (m : Master) (k : Fin 64)
  /-- IDENT_OFF (R415). The manager's IDENT_OFF ends the identify pattern. -/
  | identOff (m : Master) (k : Fin 64)
  /-- ARM_TIMEOUT (R400). The ARM_S cancel window ends and the channel ramps, refuses or requests removal. -/
  | armTimeout (k : Fin 64)
  /-- VOUT_REACHED_PG_THR (R400). VOUT reaches PG_THR during RAMP and the channel enters ON. -/
  | voutReachedPgThr (k : Fin 64)
  /-- RAMP_TIMEOUT (R400). RAMP_MS passes without VOUT reaching PG_THR; the channel enters FAULT. -/
  | rampTimeout (k : Fin 64)
  /-- PG_ASSERT (R405). VOUT has held above PG_THR through t_PGDLY with the fault timer idle; PG asserts. -/
  | pgAssert (k : Fin 64)
  /-- PG_LOST (R405). VOUT drops below PG_THR with the gate on; PG falls and EV166 is logged. -/
  | pgLost (k : Fin 64)
  /-- DISCHARGE_END (R400). VOUT falls below VOFF_THR or DISCH_MS expires; the channel enters OFF. -/
  | dischargeEnd (k : Fin 64) (vout : BitVec 16)
  /-- COOLDOWN_END (R407). COOL_MS passes since the last removal; the channel enters OFF or EMPTY. -/
  | cooldownEnd (k : Fin 64)
  /-- AUTO_OFF (R400). In REQ_OFF with AUTO_OFF, the bound port becomes unreferenced and the channel turns off. -/
  | autoOff (k : Fin 64)
  /-- CURRENT_LIMIT (R408). The slot current reaches ILIM; the channel regulates and runs the fault timer. -/
  | currentLimit (k : Fin 64)
  /-- FAULT_TIMER_EXPIRY (R408). The fault timer reaches FT_US; the gate turns off and the channel enters FAULT. -/
  | faultTimerExpiry (k : Fin 64)
  /-- HARD_SHORT (R409). The hard-short comparator trips, the gate discharges and the channel enters FAULT. -/
  | hardShort (k : Fin 64)
  /-- PASS_TRANSISTOR_FAILURE (R411). Current or voltage with the gate off shows a failed pass transistor; the channel is
  fenced. -/
  | passTransistorFailure (k : Fin 64)
  /-- THERMAL_MODEL_UPDATE (R412). Every 1 µs the junction estimate is updated, warning or tripping at its limits. -/
  | thermalModelUpdate (k : Fin 64) (sample : SlotSample)
  /-- CURRENT_LIMIT_WRITE (R408). A write of SLT_ILIM is applied after its crossing or refused with EV164. -/
  | currentLimitWrite (m : Master) (k : Fin 64) (value : BitVec 32)
  /-- TRANSMITTER_IDLE_FAILURE (R425). A transmitter not idle 500 ns after its safe action fences the group with EV167. -/
  | transmitterIdleFailure (g : Fin 64)
  /-- FAULT_ACK (R431). The manager acknowledges the open faults of a class in a domain and the oldest queued fault is
  promoted. -/
  | faultAck (h : Hdr) (cls : BitVec 8)
  /-- FAULT_ACK_WRITE (R431). A write of DEV_WS_ACK acknowledges the fault named by its sequence number. -/
  | faultAckWrite (m : Master) (value : BitVec 32)
  /-- FAULT_QUERY (R431). The manager reads a domain's active and queued faults. -/
  | faultQuery (h : Hdr)
  /-- FAULT_RELEASE (R432). The manager ends the containment of a port, or is answered busy. -/
  | faultRelease (h : Hdr)
  /-- ENGINE_FAULT (R434). A fault inside an engine restarts it from its state, or fences it on a repeat. -/
  | engineFault (e : Fin 8)
  /-- WATCHDOG_EXPIRY (R436). The Headwater watchdog expires, ALIVE stops and Headwater restarts. -/
  | watchdogExpiry
  /-- FAULT_INJECTION (R441). In factory test mode a write of DEV_WS_INJ.GO raises the named event at the named unit. -/
  | faultInjection (m : Master) (value : BitVec 64)
  /-- PWROK_RISE (R444). PWROK rises, cold reset releases, straps are sampled and the PLLs lock. -/
  | pwrokRise (pmode : Fin 4) (pid : Fin 16) (refclk : Fin 16) (active : Option Fw) (other : Option Fw)
  /-- PWROK_FALL (R444). PWROK falls, the device enters its safe state and holds cold reset. -/
  | pwrokFall
  /-- BOOT_COMPLETE (R444). The configuration image is applied, regions are initialized, groups come up, ALIVE starts and
  EV184 is logged. -/
  | bootComplete (ident : Bool)
  /-- RAIL_WARNING (R445). A supervised rail falls below its warning level and EV176 is logged. -/
  | railWarning (below : BitVec 12)
  /-- RAIL_FAULT (R445). A core-group rail falls below its fault level and EV177 brings the device safe state. -/
  | railFault (r : Fin 12)
  /-- VIN_SLOT_FAULT (R445). VIN_SLOT falls below its fault level, EV178 is logged and channels act on PG. -/
  | vinSlotFault (lost : List (Fin 64))
  /-- AUX_RAIL_FAULT (R445). VDD_AUX or VDDIO_AUX falls below its fault level and a cold reset follows. -/
  | auxRailFault
  /-- DROOP (R446). A droop sensor reads below its warning level and the core clock halves. -/
  | droop (reading : DroopRead)
  /-- DROOP_STEP_UP (R446). The droop hold or a step interval ends and the core clock steps up by 150 MHz. -/
  | droopStepUp
  /-- POWER_CAP_ADJUST (R447). Each millisecond Headwater compares average power to CAP_W and moves the core ceiling a step. -/
  | powerCapAdjust (average : BitVec 16)
  /-- TEMPERATURE_WARN (R448). A sensor reaches WARN and EV180 is logged. -/
  | temperatureWarn (n : Fin 21) (t : Int)
  /-- THERMAL_THROTTLE (R448). A sensor reaches THROT; the core holds at 1.2 GHz until release. -/
  | thermalThrottle (n : Fin 21) (t : Int)
  /-- THERMAL_TRIP (R448). A sensor reaches TRIP; the device enters its safe state and THERMTRIP_L goes low. -/
  | thermalTrip (n : Fin 21) (t : Int)
  /-- GROUP_POWER_OFF (R451). A write of GRP_PWR.OFF with 1 powers an idle group off, or is refused. -/
  | groupPowerOff (m : Master) (g : Fin 64)
  /-- GROUP_POWER_ON (R451). A write of GRP_PWR.OFF with 0 powers the group on and re-applies its shadow. -/
  | groupPowerOn (m : Master) (g : Fin 64)
  /-- RESET_L_ASSERT (R454). RESET_L held low starts a warm reset, unless absorbed by the safe state. -/
  | resetLAssert
  /-- RESET_L_RELEASE (R454). RESET_L rises and the warm reset proceeds to clearing fields and starting Headwater. -/
  | resetLRelease (active : Option Fw) (other : Option Fw)
  /-- WARM_RESET_DRAIN_DONE (R454). Merge buffers and write queues are drained and the stacks are in self-refresh. -/
  | warmResetDrainDone (active : Option Fw) (other : Option Fw)
  /-- DEV_RST_CMD_WARM (R456). A keyed write of DEV_RST_CMD with KIND 1 starts a warm reset. -/
  | devRstCmdWarm (m : Master) (key : BitVec 16)
  /-- DEV_RST_CMD_RESTART (R456). A keyed write of DEV_RST_CMD with KIND 2 starts a Headwater restart. -/
  | devRstCmdRestart (m : Master) (key : BitVec 16)
  /-- DEV_RESET (R454). The manager starts a warm reset, or is told the safe state absorbs it. -/
  | devReset (h : Hdr)
  /-- HW_RESTART (R474). The manager restarts Headwater, which clears READY and reloads its image. -/
  | hwRestart (h : Hdr)
  /-- HEADWATER_READY (R474). Restarted Headwater firmware reports ready; READY sets and ALIVE resumes. -/
  | headwaterReady
  /-- UNIT_RESET (R552). The manager resets the class U fields and links of a unit and its descendants. -/
  | unitReset (h : Hdr)
  /-- PING (R464). The manager reads the image versions, SVN and Headwater status. -/
  | ping (h : Hdr)
  /-- REG_READ (R464). The manager reads one register through an Asryn command. -/
  | regRead (h : Hdr) (off : BitVec 32) (width : BitVec 8)
  /-- REG_WRITE (R464). The manager writes one register through an Asryn command. -/
  | regWrite (h : Hdr) (off : BitVec 32) (width : BitVec 8) (value : BitVec 64)
  /-- POOL_READ (R464). The manager reads pool memory at a GPA under Levee identity ENGINE 8. -/
  | poolRead (h : Hdr) (gpa : BitVec 64) (len : BitVec 32)
  /-- POOL_WRITE (R464). The manager writes pool memory at a GPA, poisoning lines lost on a failed path. -/
  | poolWrite (h : Hdr) (gpa : BitVec 64) (len : BitVec 32) (data : List Byte)
  /-- RSV_READ (R464). The manager reads Reservoir space after correction. -/
  | rsvRead (h : Hdr) (addr : BitVec 64) (len : BitVec 32) (flips : List (Fin 64 × Burst))
  /-- RSV_WRITE (R464). The manager writes Reservoir space in factory test mode. -/
  | rsvWrite (h : Hdr) (addr : BitVec 64) (len : BitVec 32) (data : List Byte)
  /-- MCTP_VENDOR_MESSAGE (R469). A complete vendor-defined MCTP message delivers one Asryn command to the queue. -/
  | mctpVendorMessage (p : Packet)
  /-- COMMAND_RING_TAIL (R470). A write of HW_RING_CTAIL makes new command entries available for fetch. -/
  | commandRingTail (pt : PortId) (value : BitVec 32)
  /-- COMMAND_RING_FETCH (R470). A fetched command ring entry arrives and its command joins the queue. -/
  | commandRingFetch (pt : PortId) (p : Packet)
  /-- REPLY_RING_HEAD (R470). A write of HW_RING_RHEAD frees reply ring entries. -/
  | replyRingHead (pt : PortId) (value : BitVec 32)
  /-- COMMAND_START (R466). A queued command whose conflicting background command has ended starts to run. -/
  | commandStart (new : Bool)
  /-- ENTDAA (R469). The I3C controller assigns the device its dynamic address. -/
  | entdaa (addr : BitVec 7)
  /-- SET_ENDPOINT_ID (R469). An MCTP control request sets the device's endpoint ID. -/
  | setEndpointId (eid : BitVec 8)
  /-- GET_ENDPOINT_ID (R469). An MCTP control request reads the endpoint ID. -/
  | getEndpointId
  /-- GET_MCTP_VERSION_SUPPORT (R469). An MCTP control request reads supported MCTP versions. -/
  | getMctpVersionSupport (type : BitVec 8)
  /-- GET_MESSAGE_TYPE_SUPPORT (R469). An MCTP control request reads supported message types. -/
  | getMessageTypeSupport
  /-- GET_VENDOR_DEFINED_MESSAGE_SUPPORT (R469). An MCTP control request reads vendor-defined message support. -/
  | getVendorDefinedMessageSupport (sel : BitVec 8)
  /-- GET_VERSION (R484). An SPDM requester asks the responder's versions. -/
  | getVersion (r : SpdmAt)
  /-- GET_CAPABILITIES (R484). An SPDM requester asks the responder's capabilities. -/
  | getCapabilities (r : SpdmAt) (flags : BitVec 32)
  /-- NEGOTIATE_ALGORITHMS (R484). An SPDM requester negotiates algorithms with the responder. -/
  | negotiateAlgorithms (r : SpdmAt) (asym : BitVec 32) (hash : BitVec 32)
  /-- GET_DIGESTS (R484). An SPDM requester reads the certificate chain digests. -/
  | getDigests (r : SpdmAt)
  /-- GET_CERTIFICATE (R484). An SPDM requester reads a portion of the certificate chain. -/
  | getCertificate (r : SpdmAt) (slot : BitVec 8) (off : BitVec 16) (len : BitVec 16)
  /-- CHALLENGE (R484). An SPDM requester challenges the responder, which signs with its key. -/
  | challenge (r : SpdmAt) (slot : BitVec 8) (nonce : BitVec 256) (summary : BitVec 8)
  /-- GET_MEASUREMENTS (R485). An SPDM requester reads the measurement blocks signed by the alias key. -/
  | getMeasurements (r : SpdmAt) (op : BitVec 8) (sign : Bool) (slot : BitVec 8) (nonce : BitVec 256)
  /-- FW_WRITE (R473). The manager writes a chunk of a firmware image into an inactive slot. -/
  | fwWrite (h : Hdr) (off : BitVec 32) (slot : BitVec 8) (data : List Byte)
  /-- FW_ACTIVATE (R476). The manager starts live activation of a firmware slot, verifying and loading it. -/
  | fwActivate (h : Hdr) (slot : BitVec 8)
  /-- ACTIVATION_POINT (R476). The new image reports ready, takes later commands and FW_ACTIVATE replies. -/
  | activationPoint
  /-- OLD_IMAGE_UNLOAD (R476). The old image finishes its last command and is unloaded; EV187 is logged. -/
  | oldImageUnload
  /-- ACTIVATION_TIMEOUT (R478). The new image is not ready 1 s after loading and is discarded with EV194. -/
  | activationTimeout
  /-- UCODE_LOAD (R479). The manager starts an engine quiesce to load the running image's microcode. -/
  | ucodeLoad (h : Hdr)
  /-- QUIESCE_DONE (R479). The engine has finished its work items, loads microcode and resumes. -/
  | quiesceDone (e : Fin 8)
  /-- QUIESCE_ABANDON (R480). A bound duty arises during a quiesce; the old microcode resumes and UCODE_LOAD returns busy. -/
  | quiesceAbandon (e : Fin 8)
  /-- CFG_WRITE (R481). The manager writes a chunk of a configuration image into a slot. -/
  | cfgWrite (h : Hdr) (off : BitVec 32) (slot : BitVec 8) (data : List Byte)
  /-- CFG_COMMIT (R481). The manager checks a configuration slot's CRC and marks it active. -/
  | cfgCommit (h : Hdr) (slot : BitVec 8)
  /-- UNIT_CERT_GET (R486). The manager reads a portion of a unit's certificate chain. -/
  | unitCertGet (h : Hdr) (off : BitVec 32)
  /-- UNIT_SIGN (R487). The manager has a unit sign a nonce with its status and running measurement. -/
  | unitSign (h : Hdr) (nonce : BitVec 256)
  /-- DBGM_SELECT (R489). The TAP selects the debug access master; the first selection logs EV189. -/
  | dbgmSelect (sel : Bool)
  /-- DEBUG_DISABLE (R489). A write setting HW_DBG_CTL.DIS disables the debug master until cold reset. -/
  | debugDisable (m : Master)
  /-- FTM_AUTH (R491). The tester answers the factory test nonce; the device enters factory test mode or refuses. -/
  | ftmAuth (ok : Bool)
  /-- EVENT_SELECT_WRITE (R496). A write of a Gauge counter selector is applied or refused with EV199. -/
  | eventSelectWrite (m : Master) (u : UnitId) (j : Fin 8) (value : BitVec 32)
  /-- COUNTER_CLEAR (R500). A write of GAU_CTL.CLR zeroes a unit's counters, slot accounts and overflow bits. -/
  | counterClear (m : Master) (u : UnitId) (freeze : Bool)
  /-- INTERVAL_BOUNDARY (R502). The timebase reaches a multiple of the interval period and a boundary is numbered. -/
  | intervalBoundary
  /-- INTERVAL_NOW (R502). A write of GAU_IVL_CFG.NOW adds a boundary at once. -/
  | intervalNow (m : Master) (value : BitVec 30) (en : Bool)
  /-- SNAPSHOT_COPY (R503). A unit's view of the timebase reaches a boundary and it copies its counters and accounts. -/
  | snapshotCopy (u : UnitId)
  /-- SAMPLING_ENABLE (R507). Setting GAU_SMP_CFG.EN reseeds the sampling LFSRs, reloads gaps and resets the ring pointers. -/
  | samplingEnable (m : Master) (value : BitVec 31)
  /-- SAMPLE_RING_WRITE (R510). A write of GAU_SMP_RING is applied or refused with EV199. -/
  | sampleRingWrite (m : Master) (value : BitVec 64)
  /-- SAMPLE_END (R508). A sampled transaction ends and engine e6 writes its record to the ring. -/
  | sampleEnd (n : Nat) (e : SmpEnd)
  /-- SAMPLE_RECORD_ACK (R510). The Reservoir acknowledges a sample record and TAIL advances. -/
  | sampleRecordAck
  /-- OUT_OF_REGULATION (R408). The slot current falls below ILIM with the gate driven; the channel leaves regulation, INLIM
  clears and the fault timer clears in that sample. -/
  | outOfRegulation (k : Fin 64)
  /-- DROOP_HOLD_START (R446). The last droop sensor reads above the warning level and the 2 µs hold before step-up starts. -/
  | droopHoldStart
  /-- THROTTLE_RELEASE (R448). A sensor falls 3 °C below THROT and the core steps back up in 150 MHz steps without the droop
  hold. -/
  | throttleRelease (n : Fin 21) (t : Int)
  /-- POWER_ON_RESET_RELEASE (R444). Rail group A reaches regulation and the always-on domain leaves power-on reset and
  starts on AUXCLK. -/
  | powerOnResetRelease
  /-- PERST_RELEASE (R287). Gxx_PERST_L rises, or the link is enabled again, after a port reset has finished, and the port
  trains within 20 ms with its Request Retry window starting at the release. -/
  | perstRelease (c : PortRelease)
  /-- CONFIGURATION_REQUEST (R287). A PCI Express configuration request reaches an H port function and is served, or is
  answered with Request Retry Status while the port is still coming out of reset. -/
  | configurationRequest (pt : PortId) (fn : Fin 65) (off : BitVec 12) (write : Option (BitVec 32))
  /-- CONTAIN_NOTICE_ACK (R250). The home switch receives the end-to-end acknowledgement of a contain notice that it sent to
  a host's switch. -/
  | containNoticeAck (h : Fin 64) (src : Fin 16)
  /-- CACHE_RANGE_WALK_DONE (R155). The walk of an RSV_PURGE, RSV_FLUSH or RSV_UNPIN over its extent range ends, with its
  write-backs complete, and the background command replies. -/
  | cacheRangeWalkDone
  /-- DM_COPY_DONE (R463). A DM_COPY background copy finishes its DPA range and replies. -/
  | dmCopyDone
  /-- FLASH_WRITE_DONE (R473). A FW_WRITE or CFG_WRITE chunk, including the slot erase of up to 90 s at offset 0, finishes
  in flash and the background command replies. -/
  | flashWriteDone
  /-- FIRMWARE_SLOT_VERIFIED (R476). Verification of the named slot ends within 2 s; an invalid slot ends FW_ACTIVATE with
  invalid parameter, and a valid one starts loading the new image and its 1 s readiness limit. -/
  | firmwareSlotVerified (f : Option Fw)
  /-- LANE_MARGINING_COMMAND (R378). A Lane Margining at the Receiver command from the link partner, or from Headwater on an
  M port, starts or ends on a lane and claims or frees the shadow slicer. -/
  | laneMarginingCommand (ln : LaneId) (active : Bool)
  deriving DecidableEq, Repr

end Sys2Proof
end

