-- ==== Sys2Proof/Decode.lean ====
section
/-!
DEFINITION. Decode.lean: the commands that a word spells. The table of steps gives no row any bits, since a step of the device is named by its row
and brought by its row's operands, so no word spells a command (log entry 1).
-/
namespace Sys2Proof

/-- The command that the bits of a word spell, numbered as the table of steps numbers them: no row of the table has bits. -/
def decodeTableWord (_nbits _w : Nat) : Option Instr := none

end Sys2Proof
end

