-- ==== Sys2Proof/Config.lean ====
section
/-!
DEFINITION. Config.lean: what one part fixes, and the values the spec leaves open. Nothing here has a body: no proof can
see what a value is, so a statement holds for every value.
-/
namespace Sys2Proof

/-- A value the spec leaves open, fresh for every value of the counter it is applied to (State.fresh). Log entry 6. -/
opaque Config.freeValue : Nat → BitVec 64

/-- A line of data the spec leaves open, fresh for every value of the counter. Log entry 6. -/
opaque Config.freeLine : Nat → BitVec 512

/-- The one-time-programmed number stored at a place of the factory memory (R472, R482, R490); the spec gives no
contents. Log entry 8. -/
opaque Config.otp : Nat → BitVec 64

/-- Whether the part is ordered as NZ5120-LC (R1): factory memory holds the code (R2, R545), and the spec gives a part either one. -/
opaque Config.lidless : Bool

/-- The capabilities of PCI Express and CXL that an H port's functions carry (R272, R274); a CXL DVSEC by its ID. -/
inductive CapKind where
  | pcie | msix | aer | ari | sriov | doe
  | dvsec (id : Nat)
  deriving DecidableEq, Repr

/-- The registers of CXL 3.1 behind an H port's function 0: words 0 to 4 of an HDM decoder (base and size, low and high, and control; R275), the words of the primary mailbox
(R280), and any other word of the RAS, link and status registers (R277), by its place. -/
inductive CxlReg where
  | hdm (n w : Nat)
  | mbox (w : Nat)
  | std (w : Nat)
  deriving DecidableEq, Repr

/-- The outcome of a cryptographic computation over data (a digest, a signature, a derived key), as a number; the spec
names the algorithm and gives no values. Log entry 11. -/
opaque Config.crypto : Nat → List Nat → Nat

/-- What stands at a word of an H port's configuration space whose place the spec leaves to the standard (R272, R274): for function 0 or a VF, which word of which
capability. Log entry 135. -/
opaque Config.capAt : Bool → Nat → Option (CapKind × Nat)

/-- What stands at a word of the CXL component and device registers of an H port (R277), by its offset in them. Log entry 82. -/
opaque Config.cxlAt : Nat → Option CxlReg

/-- What a word of the RAS, link and status registers of CXL 3.1 holds after a reset of its port, which no rule states (R277, log entry 82). -/
opaque Config.cxlFirst : Nat → BitVec 32

/-- What a write makes of such a word: its place, what it held, and what is written (R277, log entry 82). -/
opaque Config.cxlNext : Nat → BitVec 32 → BitVec 32 → BitVec 32

/-- A word of the output payload of a mailbox command, by opcode, answer and place, and the payload's length, in the form of CXL 3.1 (R280, log entry 82). -/
opaque Config.cxlPayload : Nat → List Nat → Nat → BitVec 32

/-- The length of that payload in bytes. -/
opaque Config.cxlPayloadLen : Nat → List Nat → BitVec 21

/-- The scrambler of a transmit lane of a fabric link as TRAIN or a link test begins, by lane and time (R357, R364): no rule names it. Log entry 138. -/
opaque Config.trainSeed : Nat → Nat → Nat

/-- The pre-cursor and post-cursor of a preset P0-P10 at a rate in modes H and M, as PCI Express 6.2 defines them (R373): the spec states no number. -/
opaque Config.linkPreset : Nat → Nat → Nat × Nat

/-- The bandwidth figure of a decoder's CDAT entry (R276); R105 states none. Log entry 136. -/
opaque Config.cdatBandwidth : Nat

end Sys2Proof
end

