-- ==== Sys2Proof/Machine/Tab.lean ====
section
/-!
DEFINITION. Machine/Tab.lean: a table by number, as plain data: a list of entries with rising keys. Registers, memory,
queues by port, flows, slots and every other keyed piece of state is one of these.
-/
namespace Sys2Proof.Machine

/-- A table by number: entries in rising order of key. -/
abbrev Tab (α : Type) := List (Nat × α)

/-- The entry at a key, if there is one. -/
def Tab.get? {α : Type} : Tab α → Nat → Option α
  | [], _ => none
  | (k, v) :: t, i => if i = k then some v else Tab.get? t i

/-- The entry at a key, or the value that an unlisted key stands for. -/
def Tab.getD {α : Type} (t : Tab α) (i : Nat) (d : α) : α := (Tab.get? t i).getD d

/-- Whether a key is listed. -/
def Tab.has {α : Type} (t : Tab α) (i : Nat) : Bool := (Tab.get? t i).isSome

/-- Store an entry, keeping the keys rising. -/
def Tab.put {α : Type} : Tab α → Nat → α → Tab α
  | [], i, v => [(i, v)]
  | (k, w) :: t, i, v =>
    if i < k then (i, v) :: (k, w) :: t
    else if i = k then (i, v) :: t
    else (k, w) :: Tab.put t i v

/-- Drop the entry at a key. -/
def Tab.erase {α : Type} (t : Tab α) (i : Nat) : Tab α := t.filter fun e => e.1 != i

/-- Store a value where an unlisted key stands for d: storing d drops the entry, so equal contents are equal data. -/
def Tab.setD {α : Type} [DecidableEq α] (t : Tab α) (d : α) (i : Nat) (v : α) : Tab α :=
  if v = d then Tab.erase t i else Tab.put t i v

/-- Change the entry at a key, where there is one. -/
def Tab.upd {α : Type} (t : Tab α) (i : Nat) (f : α → α) : Tab α :=
  t.map fun e => if e.1 = i then (e.1, f e.2) else e

/-- Change every entry. -/
def Tab.mapAll {α : Type} (t : Tab α) (f : Nat → α → α) : Tab α := t.map fun e => (e.1, f e.1 e.2)

/-- Keep the entries that satisfy a test. -/
def Tab.keep {α : Type} (t : Tab α) (p : Nat → α → Bool) : Tab α := t.filter fun e => p e.1 e.2

/-- The number of entries that satisfy a test. -/
def Tab.count {α : Type} (t : Tab α) (p : Nat → α → Bool) : Nat := (Tab.keep t p).length

/-- The first entry, in rising order of key, that satisfies a test. -/
def Tab.find {α : Type} (t : Tab α) (p : Nat → α → Bool) : Option (Nat × α) := t.find? fun e => p e.1 e.2

/-- Keys strictly rise from a bound on: the canonical form of a table. -/
def Tab.risingFrom {α : Type} : Nat → Tab α → Bool
  | _, [] => true
  | b, (k, _) :: t => decide (b ≤ k) && Tab.risingFrom (k + 1) t

/-- The canonical form of a table: keys strictly rising. -/
def Tab.wf {α : Type} (t : Tab α) : Bool := Tab.risingFrom 0 t

/-- The least number below a bound that is not a key: a free index. -/
def Tab.freeBelow {α : Type} (t : Tab α) : (bound : Nat) → Option Nat
  | bound => (List.range bound).find? fun i => !Tab.has t i

end Sys2Proof.Machine
end

