-- ==== Sys2Proof/Machine/Regs.lean ====
section
/-!
DEFINITION. Machine/Regs.lean: every register of the device as the tables of the spec give it (spec 21 R548 and the
chapters it names): its unit class, offset, stride and count, and of each field its bits, access, reset value, retention
class and the range or reserved encodings its description states (R7-R15, R542, R551).
-/
namespace Sys2Proof.Machine

/-- The register names of the spec; the index letters of register arrays are left out. -/
inductive RegId where
  | PRT_WIN_BASE | PRT_WIN_SIZE | PRT_WIN_CTL | PRT_WIN_GPA | DEV_EPOCH | DEV_EPOCH_STAT
  | DEV_EPOCH_DONE | DEV_EPOCH_WARN | DEV_XC_CTL | DEV_MAP_SIZE | DEV_MOV_CTL | DEV_MOV_STAT
  | DEV_MOV_BYTES | DEV_MOV_HOLD | DEV_FP_CLS_CFG | DEV_FP_CLS_SH | DEV_FP_PO | DEV_FP_RB
  | DEV_FP_OCC | DEV_FP_PEAK | DEV_STALL | DEV_ORT_CFG | DEV_ORT_CFG2 | DEV_ORT_STAT
  | DEV_ORT_LATE | DEV_RSV_PART | DEV_RSV_RSZ | DEV_RSV_CCTL | DEV_RSV_SUSPECT | DEV_PL_CTL
  | DEV_PL_STAT | RSV_SCRUB_CTL | RSV_CE_CTL | RSV_MB_STAT | RSV_SCRUB_POS | RSV_SCRUB_LAP
  | RSV_ECC_CNT | RSV_CE_LOST | RSV_CE_ROW | DEV_COH_CFG | DEV_COH_STAT | DEV_COH_LOST
  | DEV_COH_SNP | DEV_COH_EVICT | DEV_COH_HOST | MRC_CFG | MRC_RTO | MRC_RNR
  | MRC_REC | MRC_STAT | MRC_TX | MRC_RTX | MRC_RX_DISC | MRC_ICMD_DATA
  | MRC_ICMD_CTL | MRC_ICMD_RES | MRC_EQ_DB | MRC_SQ_DB | MRC_CQ_DB | DEV_FAB_ID
  | DEV_FAB_CFG | DEV_FAB_STAT | DEV_FAB_RT | DEV_FAB_EFF | PRT_FAB_PEER | PRT_FAB_STAT
  | GRP_CFG | GRP_STAT | PRT_HCFG | PRT_HSTAT | PRT_BME_HOLD | PRT_MCFG
  | PRT_MSTAT | INS_STAT | INS_CFG | INS_MBX_DB | INS_MBX_H2M | INS_MBX_M2H
  | DEV_INS_RST | DEV_INS_FRZ | DEV_MBX_PEND | LEV_STAT | LEV_CNT | LEV_RULE_BASE
  | LEV_RULE_LIMIT | LEV_RULE_CTL | PRT_FL_CFG | PRT_FL_RESHAPE | PRT_FL_RXCFG | PRT_FL_RXLIM
  | PRT_FL_CRED | PRT_FL_STAT | PRT_FL_PSTAT | PRT_FL_ERR | PRT_FL_RPL | PRT_FL_STOMP
  | PRT_FL_RETRAIN | GRP_FC_CFG | GRP_FC_STAT | GRP_LTEST | LN_TXEQ | LN_RXEQ
  | LN_RXDFE | LN_CAL_FAC | LN_CAL_USR | LN_STAT | LN_ERR | LN_MRG_CTL
  | LN_MRG_RES | DEV_CLK_STAT | DEV_CDC_PEND | DEV_TIME | SLT_CFG | SLT_ILIM
  | SLT_TIME | SLT_VTHR | SLT_THM | SLT_TAU | SLT_TLIM | SLT_NTC
  | SLT_CMD | SLT_STAT | SLT_MEAS | SLT_CNT | DEV_WS_STAT | DEV_WS_HEAD
  | DEV_WS_ACK | DEV_WS_INJ | DEV_WS_HIST_W | DEV_RST_CAUSE | DEV_RST_CMD | DEV_RAIL_STAT
  | DEV_DROOP_STAT | DEV_PWR_CAP | DEV_PD_STAT | DEV_PD_STAT2 | DEV_THERM_CFG | DEV_TEMP
  | GRP_PWR | HW_STAT | HW_FW_VER | HW_WDT | HW_DBG_CTL | HW_RING_CBASE
  | HW_RING_RBASE | HW_RING_CFG | HW_RING_CTAIL | HW_RING_RHEAD | GAU_CTL | GAU_OVF
  | GAU_IVL | GAU_CNT | GAU_SNAP | GAU_EVSEL | GAU_SLOT | GAU_SLOT_SNAP
  | GAU_IVL_CFG | GAU_IVL_TIME | GAU_SMP_CFG | GAU_SMP_PORTS | GAU_SMP_RING | GAU_SMP_PTR
  | GAU_SMP_LOST | DEV_STRAP | ID | PATH | CHILD | CHILD_BASE
  | SUMMARY | IDENT | CMD | CMD_RES | CMD_NFAIL | ENG_STAT
  deriving DecidableEq, Repr

/-- The access codes (R11); w1sc is a bit that one side sets and the other side clears (R299). -/
inductive RegAcc where
  | rw | ro | wo | w1s | w1c | rc | rwl | w1sc
  deriving DecidableEq, Repr

/-- The retention classes (R15); none stands for a field that holds nothing. -/
inductive Keep where
  | F | N | C | W | U | none
  deriving DecidableEq, Repr

/-- What a field's description says of values outside its range: nothing, the nearer end is set (R551), the same for a
signed field, the same for a limit that the ordering code sets (R448, R539), or the encodings above a bound are reserved (R14). -/
inductive Lim where
  | any | clamp (lo hi : Nat) | clampS (m : Nat) | code (ac lc : Nat) | legal (top : Nat)
  deriving DecidableEq, Repr

/-- One register field: its register, the register's offset in the unit block and stride, its place and width, access,
reset value, retention class and range. -/
structure Fld where
  reg : RegId
  off : Nat
  stride : Nat
  lo : Nat
  w : Nat
  acc : RegAcc
  rst : Nat
  keep : Keep
  lim : Lim
  deriving DecidableEq, Repr

/-- One register (or array of registers): offset, stride, count, whether it is 64 bits wide, and its fields. -/
structure RegSpec where
  id : RegId
  off : Nat
  stride : Nat
  count : Nat
  wide : Bool
  fields : List Fld
  deriving DecidableEq, Repr

def F.PRT_WIN_BASE_BASE_HI : Fld := ⟨.PRT_WIN_BASE, 0x2000, 32, 28, 24, .rw, 0, .N, .any⟩
def F.PRT_WIN_SIZE_SIZE_M1 : Fld := ⟨.PRT_WIN_SIZE, 0x2008, 32, 0, 19, .rw, 0, .N, .any⟩
def F.PRT_WIN_CTL_LOCK : Fld := ⟨.PRT_WIN_CTL, 0x200c, 32, 31, 1, .w1s, 0, .W, .any⟩
def F.PRT_WIN_CTL_CMODE : Fld := ⟨.PRT_WIN_CTL, 0x200c, 32, 3, 2, .rw, 0, .N, .any⟩
def F.PRT_WIN_CTL_WTYPE : Fld := ⟨.PRT_WIN_CTL, 0x200c, 32, 1, 2, .rw, 0, .N, .legal 2⟩
def F.PRT_WIN_CTL_EN : Fld := ⟨.PRT_WIN_CTL, 0x200c, 32, 0, 1, .rw, 0, .N, .any⟩
def F.PRT_WIN_GPA_GPA_HI : Fld := ⟨.PRT_WIN_GPA, 0x2010, 32, 28, 22, .rw, 0, .N, .any⟩
def F.DEV_EPOCH_CUR : Fld := ⟨.DEV_EPOCH, 0x4000, 0, 0, 32, .ro, 0, .C, .any⟩
def F.DEV_EPOCH_STAT_OPEN_COUNT : Fld := ⟨.DEV_EPOCH_STAT, 0x4004, 0, 16, 13, .ro, 0, .W, .any⟩
def F.DEV_EPOCH_STAT_NO_OPEN : Fld := ⟨.DEV_EPOCH_STAT, 0x4004, 0, 2, 1, .ro, 0, .W, .any⟩
def F.DEV_EPOCH_STAT_QUEUED : Fld := ⟨.DEV_EPOCH_STAT, 0x4004, 0, 1, 1, .ro, 0, .W, .any⟩
def F.DEV_EPOCH_STAT_STATE : Fld := ⟨.DEV_EPOCH_STAT, 0x4004, 0, 0, 1, .ro, 0, .W, .any⟩
def F.DEV_EPOCH_DONE_DONE : Fld := ⟨.DEV_EPOCH_DONE, 0x4008, 0, 0, 32, .ro, 0, .C, .any⟩
def F.DEV_EPOCH_WARN_WARN_US : Fld := ⟨.DEV_EPOCH_WARN, 0x400c, 0, 0, 16, .rw, 100, .N, .any⟩
def F.DEV_XC_CTL_BUSY : Fld := ⟨.DEV_XC_CTL, 0x4010, 0, 1, 1, .ro, 0, .U, .any⟩
def F.DEV_XC_CTL_INV : Fld := ⟨.DEV_XC_CTL, 0x4010, 0, 0, 1, .wo, 0, .none, .any⟩
def F.DEV_MAP_SIZE_NEXT : Fld := ⟨.DEV_MAP_SIZE, 0x4014, 0, 0, 30, .ro, 536870912, .C, .any⟩
def F.DEV_MOV_CTL_RATE : Fld := ⟨.DEV_MOV_CTL, 0x4100, 0, 24, 6, .rw, 0, .N, .clamp 0 50⟩
def F.DEV_MOV_CTL_MAX_PASSES : Fld := ⟨.DEV_MOV_CTL, 0x4100, 0, 16, 8, .rw, 16, .N, .any⟩
def F.DEV_MOV_CTL_HOLD_LINES : Fld := ⟨.DEV_MOV_CTL, 0x4100, 0, 1, 11, .rw, 1024, .N, .any⟩
def F.DEV_MOV_CTL_PAUSE : Fld := ⟨.DEV_MOV_CTL, 0x4100, 0, 0, 1, .rw, 0, .W, .any⟩
def F.DEV_MOV_STAT_HOLDING : Fld := ⟨.DEV_MOV_STAT, 0x4104, 0, 17, 1, .ro, 0, .W, .any⟩
def F.DEV_MOV_STAT_ACTIVE : Fld := ⟨.DEV_MOV_STAT, 0x4104, 0, 0, 17, .ro, 0, .W, .any⟩
def F.DEV_MOV_BYTES_BYTES : Fld := ⟨.DEV_MOV_BYTES, 0x4108, 0, 0, 64, .ro, 0, .W, .any⟩
def F.DEV_MOV_HOLD_MAX_NS : Fld := ⟨.DEV_MOV_HOLD, 0x4110, 0, 0, 12, .rc, 0, .W, .any⟩
def F.DEV_FP_CLS_CFG_WEIGHT : Fld := ⟨.DEV_FP_CLS_CFG, 0x4200, 8, 20, 4, .rw, 0, .N, .any⟩
def F.DEV_FP_CLS_CFG_RES : Fld := ⟨.DEV_FP_CLS_CFG, 0x4200, 8, 0, 19, .rw, 0, .N, .any⟩
def F.DEV_FP_CLS_SH_SHMAX : Fld := ⟨.DEV_FP_CLS_SH, 0x4204, 8, 0, 20, .rw, 0, .N, .any⟩
def F.DEV_FP_PO_PO_THR : Fld := ⟨.DEV_FP_PO, 0x4240, 0, 0, 20, .rw, 360448, .N, .any⟩
def F.DEV_FP_RB_AGE_US : Fld := ⟨.DEV_FP_RB, 0x4244, 0, 20, 12, .rw, 100, .N, .clamp 1 4095⟩
def F.DEV_FP_RB_QMAX : Fld := ⟨.DEV_FP_RB, 0x4244, 0, 0, 20, .rw, 65536, .N, .any⟩
def F.DEV_FP_OCC_RMAB : Fld := ⟨.DEV_FP_OCC, 0x4248, 0, 20, 20, .ro, 0, .W, .any⟩
def F.DEV_FP_OCC_TOTAL : Fld := ⟨.DEV_FP_OCC, 0x4248, 0, 0, 20, .ro, 0, .W, .any⟩
def F.DEV_FP_PEAK_PEAK : Fld := ⟨.DEV_FP_PEAK, 0x4250, 0, 0, 20, .rc, 0, .W, .any⟩
def F.DEV_STALL_STALL_US : Fld := ⟨.DEV_STALL, 0x4254, 0, 0, 16, .rw, 1000, .N, .clamp 100 65535⟩
def F.DEV_ORT_CFG_PORT_MAX : Fld := ⟨.DEV_ORT_CFG, 0x4260, 0, 16, 16, .rw, 2048, .N, .clamp 1 65535⟩
def F.DEV_ORT_CFG_TMO_US : Fld := ⟨.DEV_ORT_CFG, 0x4260, 0, 0, 16, .rw, 1000, .N, .clamp 1 65535⟩
def F.DEV_ORT_CFG2_QUAR_MS : Fld := ⟨.DEV_ORT_CFG2, 0x4264, 0, 0, 8, .rw, 10, .N, .clamp 1 255⟩
def F.DEV_ORT_STAT_PNLOST : Fld := ⟨.DEV_ORT_STAT, 0x4268, 0, 49, 15, .ro, 0, .C, .any⟩
def F.DEV_ORT_STAT_QUAR : Fld := ⟨.DEV_ORT_STAT, 0x4268, 0, 32, 17, .ro, 0, .W, .any⟩
def F.DEV_ORT_STAT_PNQ : Fld := ⟨.DEV_ORT_STAT, 0x4268, 0, 17, 15, .ro, 0, .C, .any⟩
def F.DEV_ORT_STAT_INUSE : Fld := ⟨.DEV_ORT_STAT, 0x4268, 0, 0, 17, .ro, 0, .W, .any⟩
def F.DEV_ORT_LATE_COUNT : Fld := ⟨.DEV_ORT_LATE, 0x4270, 0, 0, 32, .ro, 0, .W, .any⟩
def F.DEV_RSV_PART_UNITS : Fld := ⟨.DEV_RSV_PART, 0x4300, 0, 32, 16, .ro, 58368, .C, .any⟩
def F.DEV_RSV_PART_STATE_GIB : Fld := ⟨.DEV_RSV_PART, 0x4300, 0, 24, 8, .ro, 4, .C, .any⟩
def F.DEV_RSV_PART_CACHE_GIB : Fld := ⟨.DEV_RSV_PART, 0x4300, 0, 16, 8, .ro, 114, .C, .any⟩
def F.DEV_RSV_PART_DIR_GIB : Fld := ⟨.DEV_RSV_PART, 0x4300, 0, 8, 5, .ro, 2, .C, .any⟩
def F.DEV_RSV_PART_MAP_GIB : Fld := ⟨.DEV_RSV_PART, 0x4300, 0, 0, 4, .ro, 8, .C, .any⟩
def F.DEV_RSV_RSZ_LEFT : Fld := ⟨.DEV_RSV_RSZ, 0x4308, 0, 32, 32, .ro, 0, .W, .any⟩
def F.DEV_RSV_RSZ_STATE : Fld := ⟨.DEV_RSV_RSZ, 0x4308, 0, 0, 2, .ro, 0, .W, .any⟩
def F.DEV_RSV_CCTL_NOALLOC : Fld := ⟨.DEV_RSV_CCTL, 0x4310, 0, 8, 1, .rw, 0, .N, .any⟩
def F.DEV_RSV_CCTL_PIN_MAX : Fld := ⟨.DEV_RSV_CCTL, 0x4310, 0, 0, 4, .rw, 12, .N, .any⟩
def F.DEV_RSV_SUSPECT_FULL : Fld := ⟨.DEV_RSV_SUSPECT, 0x4314, 0, 31, 1, .ro, 0, .C, .any⟩
def F.DEV_RSV_SUSPECT_COUNT : Fld := ⟨.DEV_RSV_SUSPECT, 0x4314, 0, 0, 9, .ro, 0, .C, .any⟩
def F.DEV_PL_CTL_MAXL : Fld := ⟨.DEV_PL_CTL, 0x4318, 0, 1, 7, .rw, 32, .N, .clamp 1 63⟩
def F.DEV_PL_CTL_WCLR : Fld := ⟨.DEV_PL_CTL, 0x4318, 0, 0, 1, .rw, 0, .N, .any⟩
def F.DEV_PL_STAT_OVF : Fld := ⟨.DEV_PL_STAT, 0x4320, 0, 48, 16, .ro, 0, .C, .any⟩
def F.DEV_PL_STAT_ALLS : Fld := ⟨.DEV_PL_STAT, 0x4320, 0, 24, 24, .ro, 0, .C, .any⟩
def F.DEV_PL_STAT_LINES : Fld := ⟨.DEV_PL_STAT, 0x4320, 0, 0, 24, .ro, 0, .C, .any⟩
def F.RSV_SCRUB_CTL_LAP_WARN : Fld := ⟨.RSV_SCRUB_CTL, 0x100, 0, 16, 16, .rw, 60, .N, .any⟩
def F.RSV_SCRUB_CTL_MIN_GAP : Fld := ⟨.RSV_SCRUB_CTL, 0x100, 0, 8, 8, .rw, 4, .N, .any⟩
def F.RSV_SCRUB_CTL_EN : Fld := ⟨.RSV_SCRUB_CTL, 0x100, 0, 0, 1, .rw, 1, .N, .any⟩
def F.RSV_CE_CTL_KEEP : Fld := ⟨.RSV_CE_CTL, 0x104, 0, 16, 8, .rw, 4, .N, .any⟩
def F.RSV_CE_CTL_THR : Fld := ⟨.RSV_CE_CTL, 0x104, 0, 0, 16, .rw, 256, .N, .any⟩
def F.RSV_MB_STAT_PEAK : Fld := ⟨.RSV_MB_STAT, 0x108, 0, 8, 7, .rc, 0, .W, .any⟩
def F.RSV_MB_STAT_INUSE : Fld := ⟨.RSV_MB_STAT, 0x108, 0, 0, 7, .ro, 0, .W, .any⟩
def F.RSV_SCRUB_POS_LINE : Fld := ⟨.RSV_SCRUB_POS, 0x100, 0, 0, 24, .ro, 0, .C, .any⟩
def F.RSV_SCRUB_LAP_LAPS : Fld := ⟨.RSV_SCRUB_LAP, 0x108, 0, 32, 32, .ro, 0, .C, .any⟩
def F.RSV_SCRUB_LAP_LAST_MS : Fld := ⟨.RSV_SCRUB_LAP, 0x108, 0, 0, 32, .ro, 0, .C, .any⟩
def F.RSV_ECC_CNT_UE : Fld := ⟨.RSV_ECC_CNT, 0x110, 0, 32, 32, .ro, 0, .C, .any⟩
def F.RSV_ECC_CNT_CE : Fld := ⟨.RSV_ECC_CNT, 0x110, 0, 0, 32, .ro, 0, .C, .any⟩
def F.RSV_CE_LOST_COUNT : Fld := ⟨.RSV_CE_LOST, 0x118, 0, 0, 32, .ro, 0, .C, .any⟩
def F.RSV_CE_ROW_V : Fld := ⟨.RSV_CE_ROW, 0x200, 8, 48, 1, .ro, 0, .C, .any⟩
def F.RSV_CE_ROW_COUNT : Fld := ⟨.RSV_CE_ROW, 0x200, 8, 32, 16, .ro, 0, .C, .any⟩
def F.RSV_CE_ROW_SYM : Fld := ⟨.RSV_CE_ROW, 0x200, 8, 20, 6, .ro, 0, .C, .any⟩
def F.RSV_CE_ROW_ROW : Fld := ⟨.RSV_CE_ROW, 0x200, 8, 0, 20, .ro, 0, .C, .any⟩
def F.DEV_COH_CFG_BI_MAX : Fld := ⟨.DEV_COH_CFG, 0x4400, 0, 16, 8, .rw, 64, .N, .clamp 1 255⟩
def F.DEV_COH_CFG_BI_TMO_US : Fld := ⟨.DEV_COH_CFG, 0x4400, 0, 0, 7, .rw, 100, .N, .clamp 10 100⟩
def F.DEV_COH_STAT_WALK : Fld := ⟨.DEV_COH_STAT, 0x4408, 0, 57, 1, .ro, 0, .W, .any⟩
def F.DEV_COH_STAT_SUSPECT : Fld := ⟨.DEV_COH_STAT, 0x4408, 0, 48, 9, .ro, 0, .C, .any⟩
def F.DEV_COH_STAT_BUSY : Fld := ⟨.DEV_COH_STAT, 0x4408, 0, 22, 13, .ro, 0, .W, .any⟩
def F.DEV_COH_LOST_LOST : Fld := ⟨.DEV_COH_LOST, 0x4410, 0, 0, 64, .ro, 0, .C, .any⟩
def F.DEV_COH_SNP_COUNT : Fld := ⟨.DEV_COH_SNP, 0x4418, 0, 0, 64, .ro, 0, .W, .any⟩
def F.DEV_COH_EVICT_COUNT : Fld := ⟨.DEV_COH_EVICT, 0x4420, 0, 0, 64, .ro, 0, .W, .any⟩
def F.DEV_COH_HOST_V : Fld := ⟨.DEV_COH_HOST, 0x4500, 4, 31, 1, .rw, 0, .N, .any⟩
def F.DEV_COH_HOST_SW : Fld := ⟨.DEV_COH_HOST, 0x4500, 4, 12, 4, .rw, 0, .N, .any⟩
def F.DEV_COH_HOST_SUB : Fld := ⟨.DEV_COH_HOST, 0x4500, 4, 8, 1, .rw, 0, .N, .any⟩
def F.DEV_COH_HOST_PORT : Fld := ⟨.DEV_COH_HOST, 0x4500, 4, 0, 7, .rw, 0, .N, .clamp 0 63⟩
def F.MRC_CFG_WND_M1 : Fld := ⟨.MRC_CFG, 0x100, 0, 16, 10, .rw, 1023, .N, .any⟩
def F.MRC_CFG_ACK_PKTS : Fld := ⟨.MRC_CFG, 0x100, 0, 8, 8, .rw, 16, .N, .clamp 1 255⟩
def F.MRC_CFG_ACK_DELAY : Fld := ⟨.MRC_CFG, 0x100, 0, 0, 8, .rw, 10, .N, .clamp 1 255⟩
def F.MRC_RTO_RETRY_MAX : Fld := ⟨.MRC_RTO, 0x104, 0, 24, 8, .rw, 16, .N, .clamp 1 255⟩
def F.MRC_RTO_RTO_MAX_US : Fld := ⟨.MRC_RTO, 0x104, 0, 12, 12, .rw, 1000, .N, .any⟩
def F.MRC_RTO_RTO_MIN_US : Fld := ⟨.MRC_RTO, 0x104, 0, 0, 12, .rw, 8, .N, .clamp 8 4095⟩
def F.MRC_RNR_RNR_MAX_MS : Fld := ⟨.MRC_RNR, 0x108, 0, 16, 16, .rw, 100, .N, .any⟩
def F.MRC_RNR_RNR_US : Fld := ⟨.MRC_RNR, 0x108, 0, 0, 16, .rw, 50, .N, .any⟩
def F.MRC_REC_REC_MS : Fld := ⟨.MRC_REC, 0x10c, 0, 0, 16, .rw, 100, .N, .any⟩
def F.MRC_STAT_DEPARTED : Fld := ⟨.MRC_STAT, 0x110, 0, 32, 14, .ro, 0, .W, .any⟩
def F.MRC_STAT_ERROR : Fld := ⟨.MRC_STAT, 0x110, 0, 16, 14, .ro, 0, .W, .any⟩
def F.MRC_STAT_OPEN : Fld := ⟨.MRC_STAT, 0x110, 0, 0, 14, .ro, 0, .W, .any⟩
def F.MRC_TX_COUNT : Fld := ⟨.MRC_TX, 0x118, 0, 0, 64, .ro, 0, .W, .any⟩
def F.MRC_RTX_TRIM : Fld := ⟨.MRC_RTX, 0x120, 0, 32, 32, .ro, 0, .W, .any⟩
def F.MRC_RTX_TIMER : Fld := ⟨.MRC_RTX, 0x120, 0, 0, 32, .ro, 0, .W, .any⟩
def F.MRC_RX_DISC_FLOW : Fld := ⟨.MRC_RX_DISC, 0x128, 0, 48, 16, .ro, 0, .W, .any⟩
def F.MRC_RX_DISC_WINDOW : Fld := ⟨.MRC_RX_DISC, 0x128, 0, 32, 16, .ro, 0, .W, .any⟩
def F.MRC_RX_DISC_DUP : Fld := ⟨.MRC_RX_DISC, 0x128, 0, 0, 32, .ro, 0, .W, .any⟩
def F.MRC_ICMD_DATA_DATA : Fld := ⟨.MRC_ICMD_DATA, 0x7000, 4, 0, 32, .rw, 0, .U, .any⟩
def F.MRC_ICMD_CTL_BUSY : Fld := ⟨.MRC_ICMD_CTL, 0x7040, 0, 31, 1, .ro, 0, .U, .any⟩
def F.MRC_ICMD_CTL_STATUS : Fld := ⟨.MRC_ICMD_CTL, 0x7040, 0, 16, 8, .ro, 0, .U, .any⟩
def F.MRC_ICMD_CTL_OPC : Fld := ⟨.MRC_ICMD_CTL, 0x7040, 0, 0, 16, .wo, 0, .none, .any⟩
def F.MRC_ICMD_RES_RES : Fld := ⟨.MRC_ICMD_RES, 0x7048, 0, 0, 64, .ro, 0, .U, .any⟩
def F.MRC_EQ_DB_HEAD : Fld := ⟨.MRC_EQ_DB, 0x7050, 0, 0, 16, .wo, 0, .none, .any⟩
def F.MRC_SQ_DB_TAIL : Fld := ⟨.MRC_SQ_DB, 0x8000, 8, 0, 16, .wo, 0, .none, .any⟩
def F.MRC_CQ_DB_HEAD : Fld := ⟨.MRC_CQ_DB, 0x8004, 8, 0, 16, .wo, 0, .none, .any⟩
def F.DEV_FAB_ID_FABRIC_ID : Fld := ⟨.DEV_FAB_ID, 0x4600, 0, 16, 16, .rw, 0, .N, .any⟩
def F.DEV_FAB_ID_MAXHOP : Fld := ⟨.DEV_FAB_ID, 0x4600, 0, 8, 4, .rw, 4, .N, .clamp 1 15⟩
def F.DEV_FAB_ID_SWID : Fld := ⟨.DEV_FAB_ID, 0x4600, 0, 0, 4, .rw, 0, .N, .any⟩
def F.DEV_FAB_CFG_AUTH_MS : Fld := ⟨.DEV_FAB_CFG, 0x4604, 0, 16, 8, .rw, 100, .N, .clamp 10 255⟩
def F.DEV_FAB_CFG_REFRESH_US : Fld := ⟨.DEV_FAB_CFG, 0x4604, 0, 1, 15, .rw, 10, .N, .clamp 1 32767⟩
def F.DEV_FAB_CFG_SPRAY : Fld := ⟨.DEV_FAB_CFG, 0x4604, 0, 0, 1, .rw, 1, .N, .any⟩
def F.DEV_FAB_STAT_READY : Fld := ⟨.DEV_FAB_STAT, 0x4608, 0, 31, 1, .ro, 0, .W, .any⟩
def F.DEV_FAB_STAT_REACH : Fld := ⟨.DEV_FAB_STAT, 0x4608, 0, 0, 16, .ro, 0, .W, .any⟩
def F.DEV_FAB_RT_MEMBERS : Fld := ⟨.DEV_FAB_RT, 0x4620, 8, 0, 64, .rw, 0, .N, .any⟩
def F.DEV_FAB_EFF_MEMBERS : Fld := ⟨.DEV_FAB_EFF, 0x46a0, 8, 0, 64, .ro, 0, .W, .any⟩
def F.PRT_FAB_PEER_EN : Fld := ⟨.PRT_FAB_PEER, 0x3000, 0, 31, 1, .rw, 0, .N, .any⟩
def F.PRT_FAB_PEER_PEER_GRP : Fld := ⟨.PRT_FAB_PEER, 0x3000, 0, 8, 6, .rw, 0, .N, .any⟩
def F.PRT_FAB_PEER_PEER_SW : Fld := ⟨.PRT_FAB_PEER, 0x3000, 0, 0, 4, .rw, 0, .N, .any⟩
def F.PRT_FAB_STAT_PEER_REACH : Fld := ⟨.PRT_FAB_STAT, 0x3008, 0, 32, 16, .ro, 0, .U, .any⟩
def F.PRT_FAB_STAT_PEER_GRP : Fld := ⟨.PRT_FAB_STAT, 0x3008, 0, 24, 6, .ro, 0, .U, .any⟩
def F.PRT_FAB_STAT_PEER_SW : Fld := ⟨.PRT_FAB_STAT, 0x3008, 0, 16, 4, .ro, 0, .U, .any⟩
def F.PRT_FAB_STAT_FAIL_CODE : Fld := ⟨.PRT_FAB_STAT, 0x3008, 0, 8, 8, .ro, 0, .U, .any⟩
def F.PRT_FAB_STAT_STATE : Fld := ⟨.PRT_FAB_STAT, 0x3008, 0, 0, 3, .ro, 0, .U, .any⟩
def F.GRP_CFG_SPLIT : Fld := ⟨.GRP_CFG, 0x100, 0, 2, 1, .rw, 0, .N, .any⟩
def F.GRP_CFG_MODE : Fld := ⟨.GRP_CFG, 0x100, 0, 0, 2, .rw, 0, .N, .any⟩
def F.GRP_STAT_CHG : Fld := ⟨.GRP_STAT, 0x104, 0, 31, 1, .ro, 0, .W, .any⟩
def F.GRP_STAT_REFUSE : Fld := ⟨.GRP_STAT, 0x104, 0, 8, 3, .ro, 0, .W, .any⟩
def F.GRP_STAT_CUR_SPLIT : Fld := ⟨.GRP_STAT, 0x104, 0, 2, 1, .ro, 0, .W, .any⟩
def F.GRP_STAT_CUR_MODE : Fld := ⟨.GRP_STAT, 0x104, 0, 0, 2, .ro, 0, .W, .any⟩
def F.PRT_HCFG_MGMT : Fld := ⟨.PRT_HCFG, 0x1000, 0, 31, 1, .rw, 0, .N, .any⟩
def F.PRT_HCFG_HDM_OWN : Fld := ⟨.PRT_HCFG, 0x1000, 0, 30, 1, .rw, 0, .N, .any⟩
def F.PRT_HCFG_MAXRATE : Fld := ⟨.PRT_HCFG, 0x1000, 0, 24, 3, .rw, 6, .N, .any⟩
def F.PRT_HCFG_NUM_VFS : Fld := ⟨.PRT_HCFG, 0x1000, 0, 16, 7, .rw, 0, .N, .clamp 0 64⟩
def F.PRT_HCFG_INST_BASE : Fld := ⟨.PRT_HCFG, 0x1000, 0, 0, 10, .rw, 0, .N, .any⟩
def F.PRT_HSTAT_PERST : Fld := ⟨.PRT_HSTAT, 0x1004, 0, 31, 1, .ro, 0, .U, .any⟩
def F.PRT_HSTAT_BME : Fld := ⟨.PRT_HSTAT, 0x1004, 0, 30, 1, .ro, 0, .U, .any⟩
def F.PRT_HSTAT_BI_EN : Fld := ⟨.PRT_HSTAT, 0x1004, 0, 29, 1, .ro, 0, .U, .any⟩
def F.PRT_HSTAT_MEM_EN : Fld := ⟨.PRT_HSTAT, 0x1004, 0, 28, 1, .ro, 0, .U, .any⟩
def F.PRT_HSTAT_HELD : Fld := ⟨.PRT_HSTAT, 0x1004, 0, 27, 1, .ro, 0, .U, .any⟩
def F.PRT_HSTAT_RATE : Fld := ⟨.PRT_HSTAT, 0x1004, 0, 24, 3, .ro, 0, .U, .any⟩
def F.PRT_HSTAT_WIDTH : Fld := ⟨.PRT_HSTAT, 0x1004, 0, 20, 4, .ro, 0, .U, .any⟩
def F.PRT_HSTAT_FLIT : Fld := ⟨.PRT_HSTAT, 0x1004, 0, 18, 2, .ro, 0, .U, .any⟩
def F.PRT_HSTAT_LSTATE : Fld := ⟨.PRT_HSTAT, 0x1004, 0, 0, 3, .ro, 0, .U, .any⟩
def F.PRT_BME_HOLD_HOLD_US : Fld := ⟨.PRT_BME_HOLD, 0x1008, 0, 0, 16, .rw, 1000, .N, .clamp 1 65535⟩
def F.PRT_MCFG_EN : Fld := ⟨.PRT_MCFG, 0x1010, 0, 31, 1, .rw, 0, .N, .any⟩
def F.PRT_MCFG_MAXRATE : Fld := ⟨.PRT_MCFG, 0x1010, 0, 24, 3, .rw, 6, .N, .any⟩
def F.PRT_MCFG_EVT_POLL_MS : Fld := ⟨.PRT_MCFG, 0x1010, 0, 16, 8, .rw, 10, .N, .clamp 1 255⟩
def F.PRT_MCFG_ENUM_S : Fld := ⟨.PRT_MCFG, 0x1010, 0, 8, 6, .rw, 5, .N, .clamp 1 63⟩
def F.PRT_MCFG_SLOT : Fld := ⟨.PRT_MCFG, 0x1010, 0, 0, 6, .rw, 0, .N, .any⟩
def F.PRT_MSTAT_CAP_X : Fld := ⟨.PRT_MSTAT, 0x1018, 0, 32, 22, .ro, 0, .U, .any⟩
def F.PRT_MSTAT_RATE : Fld := ⟨.PRT_MSTAT, 0x1018, 0, 24, 3, .ro, 0, .U, .any⟩
def F.PRT_MSTAT_WIDTH : Fld := ⟨.PRT_MSTAT, 0x1018, 0, 20, 4, .ro, 0, .U, .any⟩
def F.PRT_MSTAT_FAIL_CODE : Fld := ⟨.PRT_MSTAT, 0x1018, 0, 11, 4, .ro, 0, .U, .any⟩
def F.PRT_MSTAT_STATE : Fld := ⟨.PRT_MSTAT, 0x1018, 0, 0, 3, .ro, 0, .U, .any⟩
def F.INS_STAT_FLOWS : Fld := ⟨.INS_STAT, 0x100, 0, 16, 11, .ro, 0, .U, .any⟩
def F.INS_STAT_DRAINING : Fld := ⟨.INS_STAT, 0x100, 0, 4, 1, .ro, 0, .U, .any⟩
def F.INS_STAT_SAVED : Fld := ⟨.INS_STAT, 0x100, 0, 3, 1, .ro, 0, .U, .any⟩
def F.INS_STAT_STATE : Fld := ⟨.INS_STAT, 0x100, 0, 0, 3, .ro, 0, .W, .any⟩
def F.INS_CFG_MBX_VEC : Fld := ⟨.INS_CFG, 0x104, 0, 0, 11, .rw, 0, .U, .any⟩
def F.INS_MBX_DB_M2H_FULL : Fld := ⟨.INS_MBX_DB, 0x108, 0, 1, 1, .w1sc, 0, .U, .any⟩
def F.INS_MBX_DB_H2M_FULL : Fld := ⟨.INS_MBX_DB, 0x108, 0, 0, 1, .w1sc, 0, .U, .any⟩
def F.INS_MBX_H2M_DATA : Fld := ⟨.INS_MBX_H2M, 0x1000, 4, 0, 32, .rw, 0, .U, .any⟩
def F.INS_MBX_M2H_DATA : Fld := ⟨.INS_MBX_M2H, 0x1100, 4, 0, 32, .rw, 0, .U, .any⟩
def F.DEV_INS_RST_T_DRAIN_US : Fld := ⟨.DEV_INS_RST, 0x4720, 0, 0, 10, .rw, 200, .N, .clamp 10 1000⟩
def F.DEV_INS_FRZ_DRAIN_MS : Fld := ⟨.DEV_INS_FRZ, 0x4724, 0, 0, 8, .rw, 50, .N, .clamp 1 255⟩
def F.DEV_MBX_PEND_PEND : Fld := ⟨.DEV_MBX_PEND, 0x4740, 8, 0, 64, .ro, 0, .W, .any⟩
def F.LEV_STAT_ENABLED : Fld := ⟨.LEV_STAT, 0x4800, 0, 16, 13, .ro, 0, .C, .any⟩
def F.LEV_STAT_LOCKED : Fld := ⟨.LEV_STAT, 0x4800, 0, 0, 13, .ro, 0, .C, .any⟩
def F.LEV_CNT_DENIED : Fld := ⟨.LEV_CNT, 0x4808, 0, 32, 32, .ro, 0, .W, .any⟩
def F.LEV_CNT_LOGGED : Fld := ⟨.LEV_CNT, 0x4808, 0, 0, 32, .ro, 0, .W, .any⟩
def F.LEV_RULE_BASE_BASE_PG : Fld := ⟨.LEV_RULE_BASE, 0x20000, 32, 0, 40, .rwl, 0, .C, .any⟩
def F.LEV_RULE_LIMIT_LIMIT_PG : Fld := ⟨.LEV_RULE_LIMIT, 0x20008, 32, 0, 40, .rwl, 0, .C, .any⟩
def F.LEV_RULE_CTL_LOCK : Fld := ⟨.LEV_RULE_CTL, 0x20010, 32, 63, 1, .w1s, 0, .C, .any⟩
def F.LEV_RULE_CTL_EN : Fld := ⟨.LEV_RULE_CTL, 0x20010, 32, 41, 1, .rwl, 0, .C, .any⟩
def F.LEV_RULE_CTL_ACTION : Fld := ⟨.LEV_RULE_CTL, 0x20010, 32, 39, 2, .rwl, 0, .C, .legal 2⟩
def F.LEV_RULE_CTL_A : Fld := ⟨.LEV_RULE_CTL, 0x20010, 32, 38, 1, .rwl, 0, .C, .any⟩
def F.LEV_RULE_CTL_W : Fld := ⟨.LEV_RULE_CTL, 0x20010, 32, 37, 1, .rwl, 0, .C, .any⟩
def F.LEV_RULE_CTL_R : Fld := ⟨.LEV_RULE_CTL, 0x20010, 32, 36, 1, .rwl, 0, .C, .any⟩
def F.LEV_RULE_CTL_SPACE : Fld := ⟨.LEV_RULE_CTL, 0x20010, 32, 34, 2, .rwl, 0, .C, .legal 2⟩
def F.LEV_RULE_CTL_KIND : Fld := ⟨.LEV_RULE_CTL, 0x20010, 32, 32, 2, .rwl, 0, .C, .any⟩
def F.LEV_RULE_CTL_ID_MASK : Fld := ⟨.LEV_RULE_CTL, 0x20010, 32, 16, 16, .rwl, 0, .C, .any⟩
def F.LEV_RULE_CTL_ID : Fld := ⟨.LEV_RULE_CTL, 0x20010, 32, 0, 16, .rwl, 0, .C, .any⟩
def F.PRT_FL_CFG_REPLAY_MAX : Fld := ⟨.PRT_FL_CFG, 0x3100, 0, 24, 8, .rw, 8, .N, .clamp 1 255⟩
def F.PRT_FL_CFG_ACK_TMO : Fld := ⟨.PRT_FL_CFG, 0x3100, 0, 12, 12, .rw, 200, .N, .clamp 1 4095⟩
def F.PRT_FL_CFG_RT_MAX_US : Fld := ⟨.PRT_FL_CFG, 0x3100, 0, 4, 8, .rw, 100, .N, .clamp 10 255⟩
def F.PRT_FL_CFG_AUTO_DEG : Fld := ⟨.PRT_FL_CFG, 0x3100, 0, 0, 1, .rw, 1, .N, .any⟩
def F.PRT_FL_RESHAPE_GO : Fld := ⟨.PRT_FL_RESHAPE, 0x3104, 0, 31, 1, .wo, 0, .none, .any⟩
def F.PRT_FL_RESHAPE_RATE : Fld := ⟨.PRT_FL_RESHAPE, 0x3104, 0, 8, 4, .wo, 0, .none, .any⟩
def F.PRT_FL_RESHAPE_BASE : Fld := ⟨.PRT_FL_RESHAPE, 0x3104, 0, 4, 4, .wo, 0, .none, .any⟩
def F.PRT_FL_RESHAPE_WIDTH : Fld := ⟨.PRT_FL_RESHAPE, 0x3104, 0, 0, 4, .wo, 0, .none, .any⟩
def F.PRT_FL_RXCFG_RSV6 : Fld := ⟨.PRT_FL_RXCFG, 0x3108, 0, 48, 8, .rw, 0, .N, .any⟩
def F.PRT_FL_RXCFG_RSV5 : Fld := ⟨.PRT_FL_RXCFG, 0x3108, 0, 40, 8, .rw, 16, .N, .any⟩
def F.PRT_FL_RXCFG_RSV4 : Fld := ⟨.PRT_FL_RXCFG, 0x3108, 0, 32, 8, .rw, 40, .N, .any⟩
def F.PRT_FL_RXCFG_RSV3 : Fld := ⟨.PRT_FL_RXCFG, 0x3108, 0, 24, 8, .rw, 8, .N, .any⟩
def F.PRT_FL_RXCFG_RSV2 : Fld := ⟨.PRT_FL_RXCFG, 0x3108, 0, 16, 8, .rw, 8, .N, .any⟩
def F.PRT_FL_RXCFG_RSV1 : Fld := ⟨.PRT_FL_RXCFG, 0x3108, 0, 8, 8, .rw, 32, .N, .any⟩
def F.PRT_FL_RXCFG_RSV0 : Fld := ⟨.PRT_FL_RXCFG, 0x3108, 0, 0, 8, .rw, 24, .N, .any⟩
def F.PRT_FL_RXLIM_RBMAX : Fld := ⟨.PRT_FL_RXLIM, 0x3110, 0, 16, 10, .rw, 384, .N, .any⟩
def F.PRT_FL_RXLIM_POOL : Fld := ⟨.PRT_FL_RXLIM, 0x3110, 0, 0, 10, .ro, 768, .F, .any⟩
def F.PRT_FL_CRED_EMPTY : Fld := ⟨.PRT_FL_CRED, 0x3114, 0, 24, 7, .ro, 0, .U, .any⟩
def F.PRT_FL_CRED_CTRL_CR : Fld := ⟨.PRT_FL_CRED, 0x3114, 0, 16, 5, .ro, 0, .U, .any⟩
def F.PRT_FL_CRED_SH_CR : Fld := ⟨.PRT_FL_CRED, 0x3114, 0, 0, 10, .ro, 0, .U, .any⟩
def F.PRT_FL_STAT_EXP_SEQ : Fld := ⟨.PRT_FL_STAT, 0x3120, 0, 20, 12, .ro, 0, .U, .any⟩
def F.PRT_FL_STAT_NXT_SEQ : Fld := ⟨.PRT_FL_STAT, 0x3120, 0, 8, 12, .ro, 0, .U, .any⟩
def F.PRT_FL_STAT_WIDTH : Fld := ⟨.PRT_FL_STAT, 0x3120, 0, 4, 4, .ro, 0, .U, .any⟩
def F.PRT_FL_STAT_DISCARD : Fld := ⟨.PRT_FL_STAT, 0x3120, 0, 3, 1, .ro, 0, .U, .any⟩
def F.PRT_FL_STAT_PHASE : Fld := ⟨.PRT_FL_STAT, 0x3120, 0, 0, 3, .ro, 0, .U, .any⟩
def F.PRT_FL_PSTAT_RSP : Fld := ⟨.PRT_FL_PSTAT, 0x3124, 0, 30, 2, .ro, 0, .U, .any⟩
def F.PRT_FL_PSTAT_EDDY_PEAK : Fld := ⟨.PRT_FL_PSTAT, 0x3124, 0, 16, 9, .rc, 0, .W, .any⟩
def F.PRT_FL_PSTAT_EDDY_INUSE : Fld := ⟨.PRT_FL_PSTAT, 0x3124, 0, 0, 9, .ro, 0, .U, .any⟩
def F.PRT_FL_ERR_SEQERR : Fld := ⟨.PRT_FL_ERR, 0x3128, 0, 32, 32, .ro, 0, .W, .any⟩
def F.PRT_FL_ERR_CRCERR : Fld := ⟨.PRT_FL_ERR, 0x3128, 0, 0, 32, .ro, 0, .W, .any⟩
def F.PRT_FL_RPL_FLITS : Fld := ⟨.PRT_FL_RPL, 0x3130, 0, 32, 32, .ro, 0, .W, .any⟩
def F.PRT_FL_RPL_NAK_RX : Fld := ⟨.PRT_FL_RPL, 0x3130, 0, 16, 16, .ro, 0, .W, .any⟩
def F.PRT_FL_RPL_NAK_TX : Fld := ⟨.PRT_FL_RPL, 0x3130, 0, 0, 16, .ro, 0, .W, .any⟩
def F.PRT_FL_STOMP_RX : Fld := ⟨.PRT_FL_STOMP, 0x3138, 0, 16, 16, .ro, 0, .W, .any⟩
def F.PRT_FL_STOMP_TX : Fld := ⟨.PRT_FL_STOMP, 0x3138, 0, 0, 16, .ro, 0, .W, .any⟩
def F.PRT_FL_RETRAIN_COUNT : Fld := ⟨.PRT_FL_RETRAIN, 0x313c, 0, 16, 16, .ro, 0, .W, .any⟩
def F.PRT_FL_RETRAIN_LAST : Fld := ⟨.PRT_FL_RETRAIN, 0x313c, 0, 0, 16, .ro, 0, .W, .any⟩
def F.GRP_FC_CFG_TRY_MS : Fld := ⟨.GRP_FC_CFG, 0x200, 0, 8, 8, .rw, 10, .N, .clamp 1 255⟩
def F.GRP_FC_CFG_RATE : Fld := ⟨.GRP_FC_CFG, 0x200, 0, 0, 2, .rw, 1, .N, .clamp 1 3⟩
def F.GRP_FC_STAT_FCI_OK : Fld := ⟨.GRP_FC_STAT, 0x204, 0, 31, 1, .ro, 0, .U, .any⟩
def F.GRP_FC_STAT_LOCK : Fld := ⟨.GRP_FC_STAT, 0x204, 0, 30, 1, .ro, 0, .U, .any⟩
def F.GRP_FC_STAT_RATE_CUR : Fld := ⟨.GRP_FC_STAT, 0x204, 0, 28, 2, .ro, 0, .U, .any⟩
def F.GRP_FC_STAT_FAILS : Fld := ⟨.GRP_FC_STAT, 0x204, 0, 16, 8, .ro, 0, .U, .any⟩
def F.GRP_FC_STAT_GOOD : Fld := ⟨.GRP_FC_STAT, 0x204, 0, 8, 8, .ro, 0, .U, .any⟩
def F.GRP_FC_STAT_TSTEP : Fld := ⟨.GRP_FC_STAT, 0x204, 0, 0, 3, .ro, 0, .U, .any⟩
def F.GRP_LTEST_GO : Fld := ⟨.GRP_LTEST, 0x208, 0, 31, 1, .wo, 0, .none, .any⟩
def F.GRP_LTEST_BUSY : Fld := ⟨.GRP_LTEST, 0x208, 0, 30, 1, .ro, 0, .U, .any⟩
def F.GRP_LTEST_DUR_MS : Fld := ⟨.GRP_LTEST, 0x208, 0, 0, 16, .rw, 1000, .N, .clamp 1 65535⟩
def F.LN_TXEQ_AUTO : Fld := ⟨.LN_TXEQ, 0x100, 0, 31, 1, .rw, 1, .N, .any⟩
def F.LN_TXEQ_MAN : Fld := ⟨.LN_TXEQ, 0x100, 0, 30, 1, .rw, 0, .N, .any⟩
def F.LN_TXEQ_PRESET : Fld := ⟨.LN_TXEQ, 0x100, 0, 24, 4, .rw, 4, .N, .any⟩
def F.LN_TXEQ_SWING : Fld := ⟨.LN_TXEQ, 0x100, 0, 20, 4, .rw, 12, .N, .any⟩
def F.LN_TXEQ_POST : Fld := ⟨.LN_TXEQ, 0x100, 0, 8, 5, .rw, 0, .N, .clamp 0 24⟩
def F.LN_TXEQ_PRE : Fld := ⟨.LN_TXEQ, 0x100, 0, 0, 5, .rw, 0, .N, .clamp 0 16⟩
def F.LN_RXEQ_FREEZE : Fld := ⟨.LN_RXEQ, 0x104, 0, 31, 1, .rw, 0, .N, .any⟩
def F.LN_RXEQ_CTLE : Fld := ⟨.LN_RXEQ, 0x104, 0, 24, 4, .ro, 0, .U, .any⟩
def F.LN_RXEQ_VREF_H : Fld := ⟨.LN_RXEQ, 0x104, 0, 18, 6, .ro, 0, .U, .any⟩
def F.LN_RXEQ_VREF_M : Fld := ⟨.LN_RXEQ, 0x104, 0, 12, 6, .ro, 0, .U, .any⟩
def F.LN_RXEQ_VREF_L : Fld := ⟨.LN_RXEQ, 0x104, 0, 6, 6, .ro, 0, .U, .any⟩
def F.LN_RXEQ_PH : Fld := ⟨.LN_RXEQ, 0x104, 0, 0, 6, .ro, 0, .U, .any⟩
def F.LN_RXDFE_TAPS : Fld := ⟨.LN_RXDFE, 0x108, 0, 0, 64, .ro, 0, .U, .any⟩
def F.LN_CAL_FAC_PH : Fld := ⟨.LN_CAL_FAC, 0x110, 0, 34, 6, .ro, 0, .F, .any⟩
def F.LN_CAL_FAC_VH : Fld := ⟨.LN_CAL_FAC, 0x110, 0, 28, 6, .ro, 0, .F, .any⟩
def F.LN_CAL_FAC_VM : Fld := ⟨.LN_CAL_FAC, 0x110, 0, 22, 6, .ro, 0, .F, .any⟩
def F.LN_CAL_FAC_VL : Fld := ⟨.LN_CAL_FAC, 0x110, 0, 16, 6, .ro, 0, .F, .any⟩
def F.LN_CAL_FAC_CTLE : Fld := ⟨.LN_CAL_FAC, 0x110, 0, 12, 4, .ro, 0, .F, .any⟩
def F.LN_CAL_FAC_SWING : Fld := ⟨.LN_CAL_FAC, 0x110, 0, 8, 4, .ro, 0, .F, .any⟩
def F.LN_CAL_FAC_POST : Fld := ⟨.LN_CAL_FAC, 0x110, 0, 4, 4, .ro, 0, .F, .any⟩
def F.LN_CAL_FAC_PRE : Fld := ⟨.LN_CAL_FAC, 0x110, 0, 0, 4, .ro, 0, .F, .any⟩
def F.LN_CAL_USR_PEND : Fld := ⟨.LN_CAL_USR, 0x118, 0, 63, 1, .ro, 0, .U, .any⟩
def F.LN_CAL_USR_OFS : Fld := ⟨.LN_CAL_USR, 0x118, 0, 0, 40, .rw, 0, .N, .any⟩
def F.LN_STAT_ALIGN : Fld := ⟨.LN_STAT, 0x120, 0, 31, 1, .ro, 0, .U, .any⟩
def F.LN_STAT_INV : Fld := ⟨.LN_STAT, 0x120, 0, 30, 1, .ro, 0, .U, .any⟩
def F.LN_STAT_LLANE : Fld := ⟨.LN_STAT, 0x120, 0, 27, 3, .ro, 0, .U, .any⟩
def F.LN_STAT_SAT : Fld := ⟨.LN_STAT, 0x120, 0, 26, 1, .w1c, 0, .W, .any⟩
def F.LN_STAT_A_PRE : Fld := ⟨.LN_STAT, 0x120, 0, 21, 5, .ro, 0, .U, .any⟩
def F.LN_STAT_A_POST : Fld := ⟨.LN_STAT, 0x120, 0, 16, 5, .ro, 0, .U, .any⟩
def F.LN_STAT_A_MAIN : Fld := ⟨.LN_STAT, 0x120, 0, 9, 7, .ro, 0, .U, .any⟩
def F.LN_STAT_A_SWING : Fld := ⟨.LN_STAT, 0x120, 0, 5, 4, .ro, 0, .U, .any⟩
def F.LN_ERR_LTEST : Fld := ⟨.LN_ERR, 0x128, 0, 32, 32, .ro, 0, .W, .any⟩
def F.LN_ERR_STUFF : Fld := ⟨.LN_ERR, 0x128, 0, 16, 16, .ro, 0, .W, .any⟩
def F.LN_ERR_MRK : Fld := ⟨.LN_ERR, 0x128, 0, 0, 16, .ro, 0, .W, .any⟩
def F.LN_MRG_CTL_GO : Fld := ⟨.LN_MRG_CTL, 0x130, 0, 31, 1, .wo, 0, .none, .any⟩
def F.LN_MRG_CTL_EYE : Fld := ⟨.LN_MRG_CTL, 0x130, 0, 29, 2, .rw, 1, .W, .legal 2⟩
def F.LN_MRG_CTL_LOG2N : Fld := ⟨.LN_MRG_CTL, 0x130, 0, 24, 5, .rw, 30, .W, .clamp 20 31⟩
def F.LN_MRG_CTL_V_OFS : Fld := ⟨.LN_MRG_CTL, 0x130, 0, 16, 8, .rw, 0, .W, .clampS 63⟩
def F.LN_MRG_CTL_PH_OFS : Fld := ⟨.LN_MRG_CTL, 0x130, 0, 8, 8, .rw, 0, .W, .clampS 32⟩
def F.LN_MRG_RES_BUSY : Fld := ⟨.LN_MRG_RES, 0x138, 0, 63, 1, .ro, 0, .U, .any⟩
def F.LN_MRG_RES_DONE : Fld := ⟨.LN_MRG_RES, 0x138, 0, 62, 1, .ro, 0, .U, .any⟩
def F.LN_MRG_RES_BLOCKED : Fld := ⟨.LN_MRG_RES, 0x138, 0, 61, 1, .ro, 0, .U, .any⟩
def F.LN_MRG_RES_ERRS : Fld := ⟨.LN_MRG_RES, 0x138, 0, 0, 48, .ro, 0, .U, .any⟩
def F.DEV_CLK_STAT_DROOP : Fld := ⟨.DEV_CLK_STAT, 0x4900, 0, 31, 1, .ro, 0, .W, .any⟩
def F.DEV_CLK_STAT_AUX_INT : Fld := ⟨.DEV_CLK_STAT, 0x4900, 0, 10, 1, .ro, 0, .W, .any⟩
def F.DEV_CLK_STAT_LOCK_HW : Fld := ⟨.DEV_CLK_STAT, 0x4900, 0, 9, 1, .ro, 0, .W, .any⟩
def F.DEV_CLK_STAT_LOCK_RSV : Fld := ⟨.DEV_CLK_STAT, 0x4900, 0, 8, 1, .ro, 0, .W, .any⟩
def F.DEV_CLK_STAT_LOCK_CORE : Fld := ⟨.DEV_CLK_STAT, 0x4900, 0, 7, 1, .ro, 0, .W, .any⟩
def F.DEV_CLK_STAT_AUXCLK_OK : Fld := ⟨.DEV_CLK_STAT, 0x4900, 0, 6, 1, .ro, 0, .W, .any⟩
def F.DEV_CLK_STAT_SYSCLK_OK : Fld := ⟨.DEV_CLK_STAT, 0x4900, 0, 5, 1, .ro, 0, .W, .any⟩
def F.DEV_CLK_STAT_REFCLK_OK : Fld := ⟨.DEV_CLK_STAT, 0x4900, 0, 0, 4, .ro, 0, .W, .any⟩
def F.DEV_CDC_PEND_GRP : Fld := ⟨.DEV_CDC_PEND, 0x4904, 0, 4, 1, .ro, 0, .W, .any⟩
def F.DEV_CDC_PEND_SLOT : Fld := ⟨.DEV_CDC_PEND, 0x4904, 0, 3, 1, .ro, 0, .W, .any⟩
def F.DEV_CDC_PEND_AON : Fld := ⟨.DEV_CDC_PEND, 0x4904, 0, 2, 1, .ro, 0, .W, .any⟩
def F.DEV_CDC_PEND_RSV : Fld := ⟨.DEV_CDC_PEND, 0x4904, 0, 1, 1, .ro, 0, .W, .any⟩
def F.DEV_CDC_PEND_HW : Fld := ⟨.DEV_CDC_PEND, 0x4904, 0, 0, 1, .ro, 0, .W, .any⟩
def F.DEV_TIME_NS : Fld := ⟨.DEV_TIME, 0x4908, 0, 0, 64, .ro, 0, .C, .any⟩
def F.SLT_CFG_PEND : Fld := ⟨.SLT_CFG, 0x100, 0, 31, 1, .ro, 0, .U, .any⟩
def F.SLT_CFG_BTN_ON : Fld := ⟨.SLT_CFG, 0x100, 0, 15, 1, .rw, 1, .N, .any⟩
def F.SLT_CFG_AUTO_OFF : Fld := ⟨.SLT_CFG, 0x100, 0, 14, 1, .rw, 0, .N, .any⟩
def F.SLT_CFG_FORCE_EN : Fld := ⟨.SLT_CFG, 0x100, 0, 13, 1, .rw, 0, .N, .any⟩
def F.SLT_CFG_MRL_EN : Fld := ⟨.SLT_CFG, 0x100, 0, 12, 1, .rw, 1, .N, .any⟩
def F.SLT_CFG_TSRC : Fld := ⟨.SLT_CFG, 0x100, 0, 10, 2, .rw, 0, .N, .legal 2⟩
def F.SLT_CFG_HS_MULT : Fld := ⟨.SLT_CFG, 0x100, 0, 8, 2, .rw, 1, .N, .legal 2⟩
def F.SLT_CFG_SLEW : Fld := ⟨.SLT_CFG, 0x100, 0, 0, 5, .rw, 4, .N, .clamp 1 24⟩
def F.SLT_ILIM_PEND : Fld := ⟨.SLT_ILIM, 0x104, 0, 31, 1, .ro, 0, .U, .any⟩
def F.SLT_ILIM_RSHUNT_UOHM : Fld := ⟨.SLT_ILIM, 0x104, 0, 16, 15, .rw, 2000, .N, .clamp 100 32767⟩
def F.SLT_ILIM_ILIM_MA : Fld := ⟨.SLT_ILIM, 0x104, 0, 0, 15, .rw, 4000, .N, .any⟩
def F.SLT_TIME_PEND : Fld := ⟨.SLT_TIME, 0x108, 0, 63, 1, .ro, 0, .U, .any⟩
def F.SLT_TIME_DISCH_MS : Fld := ⟨.SLT_TIME, 0x108, 0, 53, 10, .rw, 1000, .N, .clamp 1 1023⟩
def F.SLT_TIME_RAMP_MS : Fld := ⟨.SLT_TIME, 0x108, 0, 45, 8, .rw, 50, .N, .clamp 1 255⟩
def F.SLT_TIME_COOL_MS : Fld := ⟨.SLT_TIME, 0x108, 0, 32, 13, .rw, 1000, .N, .clamp 100 8191⟩
def F.SLT_TIME_ARM_S : Fld := ⟨.SLT_TIME, 0x108, 0, 25, 4, .rw, 5, .N, .clamp 1 15⟩
def F.SLT_TIME_PGDLY : Fld := ⟨.SLT_TIME, 0x108, 0, 17, 8, .rw, 10, .N, .clamp 1 255⟩
def F.SLT_TIME_FT_US : Fld := ⟨.SLT_TIME, 0x108, 0, 0, 17, .rw, 5000, .N, .clamp 50 100000⟩
def F.SLT_VTHR_PEND : Fld := ⟨.SLT_VTHR, 0x110, 0, 31, 1, .ro, 0, .U, .any⟩
def F.SLT_VTHR_PG_THR : Fld := ⟨.SLT_VTHR, 0x110, 0, 16, 11, .rw, 1080, .N, .any⟩
def F.SLT_VTHR_VOFF_THR : Fld := ⟨.SLT_VTHR, 0x110, 0, 0, 11, .rw, 100, .N, .any⟩
def F.SLT_THM_PEND : Fld := ⟨.SLT_THM, 0x118, 0, 63, 1, .ro, 0, .U, .any⟩
def F.SLT_THM_R3 : Fld := ⟨.SLT_THM, 0x118, 0, 32, 16, .rw, 2000, .N, .any⟩
def F.SLT_THM_R2 : Fld := ⟨.SLT_THM, 0x118, 0, 16, 16, .rw, 100, .N, .any⟩
def F.SLT_THM_R1 : Fld := ⟨.SLT_THM, 0x118, 0, 0, 16, .rw, 30, .N, .any⟩
def F.SLT_TAU_PEND : Fld := ⟨.SLT_TAU, 0x120, 0, 63, 1, .ro, 0, .U, .any⟩
def F.SLT_TAU_TAU3 : Fld := ⟨.SLT_TAU, 0x120, 0, 40, 20, .rw, 200000, .N, .clamp 1 1048575⟩
def F.SLT_TAU_TAU2 : Fld := ⟨.SLT_TAU, 0x120, 0, 20, 20, .rw, 1000, .N, .any⟩
def F.SLT_TAU_TAU1 : Fld := ⟨.SLT_TAU, 0x120, 0, 0, 20, .rw, 10, .N, .any⟩
def F.SLT_TLIM_PEND : Fld := ⟨.SLT_TLIM, 0x128, 0, 31, 1, .ro, 0, .U, .any⟩
def F.SLT_TLIM_T_AMB : Fld := ⟨.SLT_TLIM, 0x128, 0, 16, 8, .rw, 55, .N, .any⟩
def F.SLT_TLIM_TJ_WARN : Fld := ⟨.SLT_TLIM, 0x128, 0, 8, 8, .rw, 125, .N, .any⟩
def F.SLT_TLIM_TJ_MAX : Fld := ⟨.SLT_TLIM, 0x128, 0, 0, 8, .rw, 150, .N, .any⟩
def F.SLT_NTC_PEND : Fld := ⟨.SLT_NTC, 0x12c, 0, 31, 1, .ro, 0, .U, .any⟩
def F.SLT_NTC_R26 : Fld := ⟨.SLT_NTC, 0x12c, 0, 16, 13, .rw, 1000, .N, .any⟩
def F.SLT_NTC_B : Fld := ⟨.SLT_NTC, 0x12c, 0, 0, 13, .rw, 3435, .N, .any⟩
def F.SLT_CMD_PEND : Fld := ⟨.SLT_CMD, 0x130, 0, 31, 1, .ro, 0, .U, .any⟩
def F.SLT_CMD_OP : Fld := ⟨.SLT_CMD, 0x130, 0, 0, 3, .wo, 0, .none, .any⟩
def F.SLT_STAT_REFUSE : Fld := ⟨.SLT_STAT, 0x138, 0, 20, 4, .ro, 0, .W, .any⟩
def F.SLT_STAT_CAUSE : Fld := ⟨.SLT_STAT, 0x138, 0, 16, 4, .ro, 0, .C, .any⟩
def F.SLT_STAT_NTC_BAD : Fld := ⟨.SLT_STAT, 0x138, 0, 15, 1, .ro, 0, .W, .any⟩
def F.SLT_STAT_IDENT : Fld := ⟨.SLT_STAT, 0x138, 0, 14, 1, .ro, 0, .W, .any⟩
def F.SLT_STAT_REINS : Fld := ⟨.SLT_STAT, 0x138, 0, 13, 1, .w1c, 0, .W, .any⟩
def F.SLT_STAT_BOUND : Fld := ⟨.SLT_STAT, 0x138, 0, 12, 1, .ro, 0, .W, .any⟩
def F.SLT_STAT_INLIM : Fld := ⟨.SLT_STAT, 0x138, 0, 11, 1, .ro, 0, .W, .any⟩
def F.SLT_STAT_PG : Fld := ⟨.SLT_STAT, 0x138, 0, 10, 1, .ro, 0, .W, .any⟩
def F.SLT_STAT_GATE : Fld := ⟨.SLT_STAT, 0x138, 0, 9, 1, .ro, 0, .W, .any⟩
def F.SLT_STAT_BTN : Fld := ⟨.SLT_STAT, 0x138, 0, 8, 1, .ro, 0, .W, .any⟩
def F.SLT_STAT_MRL : Fld := ⟨.SLT_STAT, 0x138, 0, 7, 1, .ro, 0, .W, .any⟩
def F.SLT_STAT_PRSNT : Fld := ⟨.SLT_STAT, 0x138, 0, 6, 1, .ro, 0, .W, .any⟩
def F.SLT_STAT_STATE : Fld := ⟨.SLT_STAT, 0x138, 0, 0, 4, .ro, 0, .C, .any⟩
def F.SLT_MEAS_TJ : Fld := ⟨.SLT_MEAS, 0x140, 0, 32, 16, .ro, 0, .W, .any⟩
def F.SLT_MEAS_IOUT : Fld := ⟨.SLT_MEAS, 0x140, 0, 16, 15, .ro, 0, .W, .any⟩
def F.SLT_MEAS_VOUT : Fld := ⟨.SLT_MEAS, 0x140, 0, 0, 11, .ro, 0, .W, .any⟩
def F.SLT_CNT_INSERT : Fld := ⟨.SLT_CNT, 0x148, 0, 32, 16, .ro, 0, .W, .any⟩
def F.SLT_CNT_SURPRISE : Fld := ⟨.SLT_CNT, 0x148, 0, 24, 8, .ro, 0, .W, .any⟩
def F.SLT_CNT_THERM : Fld := ⟨.SLT_CNT, 0x148, 0, 16, 8, .ro, 0, .W, .any⟩
def F.SLT_CNT_SHORT : Fld := ⟨.SLT_CNT, 0x148, 0, 8, 8, .ro, 0, .W, .any⟩
def F.SLT_CNT_LIMIT : Fld := ⟨.SLT_CNT, 0x148, 0, 0, 8, .ro, 0, .W, .any⟩
def F.DEV_WS_STAT_SAFE : Fld := ⟨.DEV_WS_STAT, 0x4a00, 0, 31, 1, .ro, 0, .W, .any⟩
def F.DEV_WS_STAT_INJ_EN : Fld := ⟨.DEV_WS_STAT, 0x4a00, 0, 30, 1, .ro, 0, .C, .any⟩
def F.DEV_WS_STAT_ALIVE : Fld := ⟨.DEV_WS_STAT, 0x4a00, 0, 29, 1, .ro, 0, .U, .any⟩
def F.DEV_WS_STAT_CAUSE_EV : Fld := ⟨.DEV_WS_STAT, 0x4a00, 0, 20, 9, .ro, 0, .C, .any⟩
def F.DEV_WS_STAT_LEVEL : Fld := ⟨.DEV_WS_STAT, 0x4a00, 0, 16, 2, .ro, 0, .W, .any⟩
def F.DEV_WS_STAT_OPEN : Fld := ⟨.DEV_WS_STAT, 0x4a00, 0, 8, 8, .ro, 0, .W, .any⟩
def F.DEV_WS_STAT_HCOUNT : Fld := ⟨.DEV_WS_STAT, 0x4a00, 0, 0, 6, .ro, 0, .C, .any⟩
def F.DEV_WS_HEAD_OVW : Fld := ⟨.DEV_WS_HEAD, 0x4a08, 0, 32, 32, .ro, 0, .C, .any⟩
def F.DEV_WS_HEAD_NEXT_SEQ : Fld := ⟨.DEV_WS_HEAD, 0x4a08, 0, 0, 32, .ro, 0, .C, .any⟩
def F.DEV_WS_ACK_SEQ : Fld := ⟨.DEV_WS_ACK, 0x4a10, 0, 0, 32, .wo, 0, .none, .any⟩
def F.DEV_WS_INJ_GO : Fld := ⟨.DEV_WS_INJ, 0x4a18, 0, 63, 1, .wo, 0, .none, .any⟩
def F.DEV_WS_INJ_EVENT : Fld := ⟨.DEV_WS_INJ, 0x4a18, 0, 32, 9, .rw, 0, .U, .any⟩
def F.DEV_WS_INJ_PATH : Fld := ⟨.DEV_WS_INJ, 0x4a18, 0, 0, 32, .rw, 0, .U, .any⟩
def F.DEV_WS_HIST_W_ENTRY : Fld := ⟨.DEV_WS_HIST_W, 0x4c00, 8, 0, 64, .ro, 0, .C, .any⟩
def F.DEV_RST_CAUSE_WARMS : Fld := ⟨.DEV_RST_CAUSE, 0x5000, 0, 16, 16, .ro, 0, .C, .any⟩
def F.DEV_RST_CAUSE_TRIPPED : Fld := ⟨.DEV_RST_CAUSE, 0x5000, 0, 8, 1, .ro, 0, .C, .any⟩
def F.DEV_RST_CAUSE_SRC : Fld := ⟨.DEV_RST_CAUSE, 0x5000, 0, 0, 4, .ro, 0, .C, .any⟩
def F.DEV_RST_CMD_KEY : Fld := ⟨.DEV_RST_CMD, 0x5004, 0, 16, 16, .wo, 0, .none, .any⟩
def F.DEV_RST_CMD_KIND : Fld := ⟨.DEV_RST_CMD, 0x5004, 0, 0, 2, .wo, 0, .none, .any⟩
def F.DEV_RAIL_STAT_WARNED : Fld := ⟨.DEV_RAIL_STAT, 0x5008, 0, 32, 12, .w1c, 0, .W, .any⟩
def F.DEV_RAIL_STAT_BELOW : Fld := ⟨.DEV_RAIL_STAT, 0x5008, 0, 0, 12, .ro, 0, .W, .any⟩
def F.DEV_DROOP_STAT_MAX_NS : Fld := ⟨.DEV_DROOP_STAT, 0x5010, 0, 32, 16, .rc, 0, .W, .any⟩
def F.DEV_DROOP_STAT_COUNT : Fld := ⟨.DEV_DROOP_STAT, 0x5010, 0, 0, 32, .ro, 0, .C, .any⟩
def F.DEV_PWR_CAP_STEP : Fld := ⟨.DEV_PWR_CAP, 0x5018, 0, 28, 4, .ro, 8, .W, .any⟩
def F.DEV_PWR_CAP_EST_W : Fld := ⟨.DEV_PWR_CAP, 0x5018, 0, 16, 9, .ro, 0, .W, .any⟩
def F.DEV_PWR_CAP_CAP_W : Fld := ⟨.DEV_PWR_CAP, 0x5018, 0, 0, 9, .rw, 420, .N, .clamp 100 420⟩
def F.DEV_PD_STAT_GRP_ON : Fld := ⟨.DEV_PD_STAT, 0x5020, 0, 0, 64, .ro, 0, .W, .any⟩
def F.DEV_PD_STAT2_AON : Fld := ⟨.DEV_PD_STAT2, 0x5028, 0, 13, 1, .ro, 1, .F, .any⟩
def F.DEV_PD_STAT2_HW : Fld := ⟨.DEV_PD_STAT2, 0x5028, 0, 12, 1, .ro, 0, .W, .any⟩
def F.DEV_PD_STAT2_ENG_ON : Fld := ⟨.DEV_PD_STAT2, 0x5028, 0, 4, 8, .ro, 0, .C, .any⟩
def F.DEV_PD_STAT2_STK_ON : Fld := ⟨.DEV_PD_STAT2, 0x5028, 0, 0, 4, .ro, 0, .W, .any⟩
def F.DEV_THERM_CFG_STK_TRIP : Fld := ⟨.DEV_THERM_CFG, 0x5030, 0, 40, 8, .rw, 105, .N, .code 105 105⟩
def F.DEV_THERM_CFG_STK_THROT : Fld := ⟨.DEV_THERM_CFG, 0x5030, 0, 32, 8, .rw, 95, .N, .code 95 95⟩
def F.DEV_THERM_CFG_STK_WARN : Fld := ⟨.DEV_THERM_CFG, 0x5030, 0, 24, 8, .rw, 85, .N, .code 85 85⟩
def F.DEV_THERM_CFG_DIE_TRIP : Fld := ⟨.DEV_THERM_CFG, 0x5030, 0, 16, 8, .rw, 115, .N, .code 115 118⟩
def F.DEV_THERM_CFG_DIE_THROT : Fld := ⟨.DEV_THERM_CFG, 0x5030, 0, 8, 8, .rw, 105, .N, .code 105 110⟩
def F.DEV_THERM_CFG_DIE_WARN : Fld := ⟨.DEV_THERM_CFG, 0x5030, 0, 0, 8, .rw, 95, .N, .code 95 100⟩
def F.DEV_TEMP_DIE_SENS : Fld := ⟨.DEV_TEMP, 0x5038, 0, 48, 4, .ro, 0, .W, .any⟩
def F.DEV_TEMP_SLOT : Fld := ⟨.DEV_TEMP, 0x5038, 0, 32, 16, .ro, 0, .W, .any⟩
def F.DEV_TEMP_STK : Fld := ⟨.DEV_TEMP, 0x5038, 0, 16, 16, .ro, 0, .W, .any⟩
def F.DEV_TEMP_DIE : Fld := ⟨.DEV_TEMP, 0x5038, 0, 0, 16, .ro, 0, .W, .any⟩
def F.GRP_PWR_STATE : Fld := ⟨.GRP_PWR, 0x300, 0, 1, 1, .ro, 0, .W, .any⟩
def F.GRP_PWR_OFF : Fld := ⟨.GRP_PWR, 0x300, 0, 0, 1, .rw, 0, .N, .any⟩
def F.HW_STAT_READY : Fld := ⟨.HW_STAT, 0x6000, 0, 31, 1, .ro, 0, .U, .any⟩
def F.HW_STAT_RECOVERY : Fld := ⟨.HW_STAT, 0x6000, 0, 30, 1, .ro, 0, .W, .any⟩
def F.HW_STAT_ACT : Fld := ⟨.HW_STAT, 0x6000, 0, 29, 1, .ro, 0, .W, .any⟩
def F.HW_STAT_FTM : Fld := ⟨.HW_STAT, 0x6000, 0, 28, 1, .ro, 0, .C, .any⟩
def F.HW_STAT_SLOT : Fld := ⟨.HW_STAT, 0x6000, 0, 27, 1, .ro, 0, .W, .any⟩
def F.HW_STAT_BG : Fld := ⟨.HW_STAT, 0x6000, 0, 8, 6, .ro, 0, .W, .any⟩
def F.HW_STAT_QDEPTH : Fld := ⟨.HW_STAT, 0x6000, 0, 0, 7, .ro, 0, .W, .any⟩
def F.HW_FW_VER_SVN_MIN : Fld := ⟨.HW_FW_VER, 0x6008, 0, 48, 16, .ro, 0, .F, .any⟩
def F.HW_FW_VER_SVN : Fld := ⟨.HW_FW_VER, 0x6008, 0, 32, 16, .ro, 0, .W, .any⟩
def F.HW_FW_VER_VER : Fld := ⟨.HW_FW_VER, 0x6008, 0, 0, 32, .ro, 0, .W, .any⟩
def F.HW_WDT_EXPIRED : Fld := ⟨.HW_WDT, 0x6010, 0, 16, 16, .ro, 0, .C, .any⟩
def F.HW_WDT_TMO_MS : Fld := ⟨.HW_WDT, 0x6010, 0, 0, 16, .rw, 500, .N, .clamp 10 65535⟩
def F.HW_DBG_CTL_FTM_CLOSED : Fld := ⟨.HW_DBG_CTL, 0x6014, 0, 2, 1, .ro, 0, .F, .any⟩
def F.HW_DBG_CTL_ACTIVE : Fld := ⟨.HW_DBG_CTL, 0x6014, 0, 1, 1, .ro, 0, .U, .any⟩
def F.HW_DBG_CTL_DIS : Fld := ⟨.HW_DBG_CTL, 0x6014, 0, 0, 1, .w1s, 0, .C, .any⟩
def F.HW_RING_CBASE_BASE : Fld := ⟨.HW_RING_CBASE, 0x0, 0, 12, 52, .rw, 0, .U, .any⟩
def F.HW_RING_RBASE_BASE : Fld := ⟨.HW_RING_RBASE, 0x8, 0, 12, 52, .rw, 0, .U, .any⟩
def F.HW_RING_CFG_EN : Fld := ⟨.HW_RING_CFG, 0x10, 0, 31, 1, .rw, 0, .U, .any⟩
def F.HW_RING_CFG_VEC : Fld := ⟨.HW_RING_CFG, 0x10, 0, 16, 4, .rw, 0, .U, .any⟩
def F.HW_RING_CFG_RLOG2 : Fld := ⟨.HW_RING_CFG, 0x10, 0, 12, 4, .rw, 6, .U, .clamp 4 12⟩
def F.HW_RING_CFG_CLOG2 : Fld := ⟨.HW_RING_CFG, 0x10, 0, 8, 4, .rw, 6, .U, .clamp 4 12⟩
def F.HW_RING_CTAIL_TAIL : Fld := ⟨.HW_RING_CTAIL, 0x18, 0, 0, 16, .wo, 0, .none, .any⟩
def F.HW_RING_RHEAD_HEAD : Fld := ⟨.HW_RING_RHEAD, 0x1c, 0, 0, 16, .wo, 0, .none, .any⟩
def F.GAU_CTL_PEND : Fld := ⟨.GAU_CTL, 0x800, 0, 31, 1, .ro, 0, .U, .any⟩
def F.GAU_CTL_CLR : Fld := ⟨.GAU_CTL, 0x800, 0, 1, 1, .wo, 0, .none, .any⟩
def F.GAU_CTL_FREEZE : Fld := ⟨.GAU_CTL, 0x800, 0, 0, 1, .rw, 0, .W, .any⟩
def F.GAU_OVF_OVF : Fld := ⟨.GAU_OVF, 0x804, 0, 0, 8, .w1c, 0, .W, .any⟩
def F.GAU_IVL_SEQ : Fld := ⟨.GAU_IVL, 0x808, 0, 32, 32, .ro, 0, .W, .any⟩
def F.GAU_CNT_COUNT : Fld := ⟨.GAU_CNT, 0x810, 8, 0, 48, .ro, 0, .W, .any⟩
def F.GAU_SNAP_COUNT : Fld := ⟨.GAU_SNAP, 0x850, 8, 0, 48, .ro, 0, .W, .any⟩
def F.GAU_EVSEL_EN : Fld := ⟨.GAU_EVSEL, 0x890, 4, 31, 1, .rw, 0, .N, .any⟩
def F.GAU_EVSEL_EVNUM : Fld := ⟨.GAU_EVSEL, 0x890, 4, 16, 9, .rw, 0, .N, .any⟩
def F.GAU_EVSEL_CLSMASK : Fld := ⟨.GAU_EVSEL, 0x890, 4, 8, 7, .rw, 0, .N, .any⟩
def F.GAU_EVSEL_CODE : Fld := ⟨.GAU_EVSEL, 0x890, 4, 0, 8, .rw, 0, .N, .any⟩
def F.GAU_SLOT_COUNT : Fld := ⟨.GAU_SLOT, 0x8c0, 8, 0, 64, .ro, 0, .W, .any⟩
def F.GAU_SLOT_SNAP_COUNT : Fld := ⟨.GAU_SLOT_SNAP, 0x8e0, 8, 0, 64, .ro, 0, .W, .any⟩
def F.GAU_IVL_CFG_EN : Fld := ⟨.GAU_IVL_CFG, 0x5100, 0, 31, 1, .rw, 0, .N, .any⟩
def F.GAU_IVL_CFG_NOW : Fld := ⟨.GAU_IVL_CFG, 0x5100, 0, 30, 1, .wo, 0, .none, .any⟩
def F.GAU_IVL_CFG_PERIOD_US : Fld := ⟨.GAU_IVL_CFG, 0x5100, 0, 0, 20, .rw, 1000, .N, .clamp 1 1000000⟩
def F.GAU_IVL_TIME_TIME : Fld := ⟨.GAU_IVL_TIME, 0x5108, 0, 0, 64, .ro, 0, .W, .any⟩
def F.GAU_SMP_CFG_EN : Fld := ⟨.GAU_SMP_CFG, 0x5110, 0, 31, 1, .rw, 0, .N, .any⟩
def F.GAU_SMP_CFG_WRAP : Fld := ⟨.GAU_SMP_CFG, 0x5110, 0, 30, 1, .rw, 0, .N, .any⟩
def F.GAU_SMP_CFG_XMASK : Fld := ⟨.GAU_SMP_CFG, 0x5110, 0, 22, 8, .rw, 0, .N, .any⟩
def F.GAU_SMP_CFG_SEED : Fld := ⟨.GAU_SMP_CFG, 0x5110, 0, 14, 8, .rw, 1, .N, .any⟩
def F.GAU_SMP_CFG_CLSMASK : Fld := ⟨.GAU_SMP_CFG, 0x5110, 0, 7, 7, .rw, 0, .N, .any⟩
def F.GAU_SMP_CFG_LOG2N : Fld := ⟨.GAU_SMP_CFG, 0x5110, 0, 0, 5, .rw, 16, .N, .clamp 8 24⟩
def F.GAU_SMP_PORTS_MASK : Fld := ⟨.GAU_SMP_PORTS, 0x5118, 0, 0, 64, .rw, 0, .N, .any⟩
def F.GAU_SMP_RING_BASE : Fld := ⟨.GAU_SMP_RING, 0x5120, 0, 12, 18, .rw, 0, .N, .any⟩
def F.GAU_SMP_RING_LOG2SZ : Fld := ⟨.GAU_SMP_RING, 0x5120, 0, 0, 5, .rw, 24, .N, .clamp 12 30⟩
def F.GAU_SMP_PTR_HEAD : Fld := ⟨.GAU_SMP_PTR, 0x5128, 0, 32, 24, .rw, 0, .W, .any⟩
def F.GAU_SMP_PTR_TAIL : Fld := ⟨.GAU_SMP_PTR, 0x5128, 0, 0, 24, .ro, 0, .W, .any⟩
def F.GAU_SMP_LOST_FULL : Fld := ⟨.GAU_SMP_LOST, 0x5130, 0, 32, 32, .ro, 0, .W, .any⟩
def F.GAU_SMP_LOST_BUSY : Fld := ⟨.GAU_SMP_LOST, 0x5130, 0, 16, 16, .ro, 0, .W, .any⟩
def F.GAU_SMP_LOST_DAMAGED : Fld := ⟨.GAU_SMP_LOST, 0x5130, 0, 0, 16, .ro, 0, .W, .any⟩
def F.DEV_STRAP_PID : Fld := ⟨.DEV_STRAP, 0x5040, 0, 2, 4, .ro, 0, .C, .any⟩
def F.DEV_STRAP_PMODE : Fld := ⟨.DEV_STRAP, 0x5040, 0, 0, 2, .ro, 0, .C, .any⟩
def F.ID_CLASS : Fld := ⟨.ID, 0x0, 0, 28, 4, .ro, 0, .F, .any⟩
def F.ID_INDEX : Fld := ⟨.ID, 0x0, 0, 0, 16, .ro, 0, .F, .any⟩
def F.PATH_CODE : Fld := ⟨.PATH, 0x4, 0, 0, 32, .ro, 0, .F, .any⟩
def F.CHILD_STRIDE : Fld := ⟨.CHILD, 0x8, 0, 32, 32, .ro, 0, .W, .any⟩
def F.CHILD_COUNT : Fld := ⟨.CHILD, 0x8, 0, 0, 16, .ro, 0, .W, .any⟩
def F.CHILD_BASE_ADDR : Fld := ⟨.CHILD_BASE, 0x10, 0, 0, 32, .ro, 0, .W, .any⟩
def F.SUMMARY_FAULT : Fld := ⟨.SUMMARY, 0x18, 0, 8, 2, .ro, 0, .W, .any⟩
def F.SUMMARY_STATUS : Fld := ⟨.SUMMARY, 0x18, 0, 0, 2, .ro, 0, .W, .any⟩
def F.IDENT_WORD : Fld := ⟨.IDENT, 0x20, 4, 0, 32, .ro, 0, .C, .any⟩
def F.CMD_PARAM : Fld := ⟨.CMD, 0x60, 0, 16, 8, .wo, 0, .none, .any⟩
def F.CMD_OPC : Fld := ⟨.CMD, 0x60, 0, 0, 16, .wo, 0, .none, .any⟩
def F.CMD_RES_FIRST : Fld := ⟨.CMD_RES, 0x68, 0, 32, 32, .ro, 0, .U, .any⟩
def F.CMD_RES_BUSY : Fld := ⟨.CMD_RES, 0x68, 0, 31, 1, .ro, 0, .U, .any⟩
def F.CMD_RES_STATUS : Fld := ⟨.CMD_RES, 0x68, 0, 0, 16, .ro, 0, .U, .any⟩
def F.CMD_NFAIL_NFAIL : Fld := ⟨.CMD_NFAIL, 0x70, 0, 0, 32, .ro, 0, .U, .any⟩
def F.ENG_STAT_UCODE : Fld := ⟨.ENG_STAT, 0xf00, 0, 32, 32, .ro, 0, .W, .any⟩
def F.ENG_STAT_RESTARTS : Fld := ⟨.ENG_STAT, 0xf00, 0, 8, 8, .ro, 0, .C, .any⟩
def F.ENG_STAT_STATE : Fld := ⟨.ENG_STAT, 0xf00, 0, 0, 3, .ro, 0, .C, .any⟩

/-- Registers of class root (R548). -/
def regsRoot0 : List RegSpec :=
  [⟨.DEV_EPOCH, 0x4000, 0, 1, false, [F.DEV_EPOCH_CUR]⟩,
   ⟨.DEV_EPOCH_STAT, 0x4004, 0, 1, false, [F.DEV_EPOCH_STAT_OPEN_COUNT, F.DEV_EPOCH_STAT_NO_OPEN, F.DEV_EPOCH_STAT_QUEUED, F.DEV_EPOCH_STAT_STATE]⟩,
   ⟨.DEV_EPOCH_DONE, 0x4008, 0, 1, false, [F.DEV_EPOCH_DONE_DONE]⟩,
   ⟨.DEV_EPOCH_WARN, 0x400c, 0, 1, false, [F.DEV_EPOCH_WARN_WARN_US]⟩,
   ⟨.DEV_XC_CTL, 0x4010, 0, 1, false, [F.DEV_XC_CTL_BUSY, F.DEV_XC_CTL_INV]⟩,
   ⟨.DEV_MAP_SIZE, 0x4014, 0, 1, false, [F.DEV_MAP_SIZE_NEXT]⟩,
   ⟨.DEV_MOV_CTL, 0x4100, 0, 1, false, [F.DEV_MOV_CTL_RATE, F.DEV_MOV_CTL_MAX_PASSES, F.DEV_MOV_CTL_HOLD_LINES, F.DEV_MOV_CTL_PAUSE]⟩,
   ⟨.DEV_MOV_STAT, 0x4104, 0, 1, false, [F.DEV_MOV_STAT_HOLDING, F.DEV_MOV_STAT_ACTIVE]⟩,
   ⟨.DEV_MOV_BYTES, 0x4108, 0, 1, true, [F.DEV_MOV_BYTES_BYTES]⟩,
   ⟨.DEV_MOV_HOLD, 0x4110, 0, 1, false, [F.DEV_MOV_HOLD_MAX_NS]⟩,
   ⟨.DEV_FP_CLS_CFG, 0x4200, 8, 7, false, [F.DEV_FP_CLS_CFG_WEIGHT, F.DEV_FP_CLS_CFG_RES]⟩,
   ⟨.DEV_FP_CLS_SH, 0x4204, 8, 7, false, [F.DEV_FP_CLS_SH_SHMAX]⟩,
   ⟨.DEV_FP_PO, 0x4240, 0, 1, false, [F.DEV_FP_PO_PO_THR]⟩,
   ⟨.DEV_FP_RB, 0x4244, 0, 1, false, [F.DEV_FP_RB_AGE_US, F.DEV_FP_RB_QMAX]⟩,
   ⟨.DEV_FP_OCC, 0x4248, 0, 1, true, [F.DEV_FP_OCC_RMAB, F.DEV_FP_OCC_TOTAL]⟩,
   ⟨.DEV_FP_PEAK, 0x4250, 0, 1, false, [F.DEV_FP_PEAK_PEAK]⟩,
   ⟨.DEV_STALL, 0x4254, 0, 1, false, [F.DEV_STALL_STALL_US]⟩,
   ⟨.DEV_ORT_CFG, 0x4260, 0, 1, false, [F.DEV_ORT_CFG_PORT_MAX, F.DEV_ORT_CFG_TMO_US]⟩,
   ⟨.DEV_ORT_CFG2, 0x4264, 0, 1, false, [F.DEV_ORT_CFG2_QUAR_MS]⟩,
   ⟨.DEV_ORT_STAT, 0x4268, 0, 1, true, [F.DEV_ORT_STAT_PNLOST, F.DEV_ORT_STAT_QUAR, F.DEV_ORT_STAT_PNQ, F.DEV_ORT_STAT_INUSE]⟩]

/-- Registers of class root (R548). -/
def regsRoot1 : List RegSpec :=
  [⟨.DEV_ORT_LATE, 0x4270, 0, 1, false, [F.DEV_ORT_LATE_COUNT]⟩,
   ⟨.DEV_RSV_PART, 0x4300, 0, 1, true, [F.DEV_RSV_PART_UNITS, F.DEV_RSV_PART_STATE_GIB, F.DEV_RSV_PART_CACHE_GIB, F.DEV_RSV_PART_DIR_GIB, F.DEV_RSV_PART_MAP_GIB]⟩,
   ⟨.DEV_RSV_RSZ, 0x4308, 0, 1, true, [F.DEV_RSV_RSZ_LEFT, F.DEV_RSV_RSZ_STATE]⟩,
   ⟨.DEV_RSV_CCTL, 0x4310, 0, 1, false, [F.DEV_RSV_CCTL_NOALLOC, F.DEV_RSV_CCTL_PIN_MAX]⟩,
   ⟨.DEV_RSV_SUSPECT, 0x4314, 0, 1, false, [F.DEV_RSV_SUSPECT_FULL, F.DEV_RSV_SUSPECT_COUNT]⟩,
   ⟨.DEV_PL_CTL, 0x4318, 0, 1, false, [F.DEV_PL_CTL_MAXL, F.DEV_PL_CTL_WCLR]⟩,
   ⟨.DEV_PL_STAT, 0x4320, 0, 1, true, [F.DEV_PL_STAT_OVF, F.DEV_PL_STAT_ALLS, F.DEV_PL_STAT_LINES]⟩,
   ⟨.DEV_COH_CFG, 0x4400, 0, 1, false, [F.DEV_COH_CFG_BI_MAX, F.DEV_COH_CFG_BI_TMO_US]⟩,
   ⟨.DEV_COH_STAT, 0x4408, 0, 1, true, [F.DEV_COH_STAT_WALK, F.DEV_COH_STAT_SUSPECT, F.DEV_COH_STAT_BUSY]⟩,
   ⟨.DEV_COH_LOST, 0x4410, 0, 1, true, [F.DEV_COH_LOST_LOST]⟩,
   ⟨.DEV_COH_SNP, 0x4418, 0, 1, true, [F.DEV_COH_SNP_COUNT]⟩,
   ⟨.DEV_COH_EVICT, 0x4420, 0, 1, true, [F.DEV_COH_EVICT_COUNT]⟩,
   ⟨.DEV_COH_HOST, 0x4500, 4, 64, false, [F.DEV_COH_HOST_V, F.DEV_COH_HOST_SW, F.DEV_COH_HOST_SUB, F.DEV_COH_HOST_PORT]⟩,
   ⟨.DEV_FAB_ID, 0x4600, 0, 1, false, [F.DEV_FAB_ID_FABRIC_ID, F.DEV_FAB_ID_MAXHOP, F.DEV_FAB_ID_SWID]⟩,
   ⟨.DEV_FAB_CFG, 0x4604, 0, 1, false, [F.DEV_FAB_CFG_AUTH_MS, F.DEV_FAB_CFG_REFRESH_US, F.DEV_FAB_CFG_SPRAY]⟩,
   ⟨.DEV_FAB_STAT, 0x4608, 0, 1, false, [F.DEV_FAB_STAT_READY, F.DEV_FAB_STAT_REACH]⟩,
   ⟨.DEV_FAB_RT, 0x4620, 8, 16, true, [F.DEV_FAB_RT_MEMBERS]⟩,
   ⟨.DEV_FAB_EFF, 0x46a0, 8, 16, true, [F.DEV_FAB_EFF_MEMBERS]⟩,
   ⟨.DEV_INS_RST, 0x4720, 0, 1, false, [F.DEV_INS_RST_T_DRAIN_US]⟩,
   ⟨.DEV_INS_FRZ, 0x4724, 0, 1, false, [F.DEV_INS_FRZ_DRAIN_MS]⟩]

/-- Registers of class root (R548). -/
def regsRoot2 : List RegSpec :=
  [⟨.DEV_MBX_PEND, 0x4740, 8, 16, true, [F.DEV_MBX_PEND_PEND]⟩,
   ⟨.LEV_STAT, 0x4800, 0, 1, false, [F.LEV_STAT_ENABLED, F.LEV_STAT_LOCKED]⟩,
   ⟨.LEV_CNT, 0x4808, 0, 1, true, [F.LEV_CNT_DENIED, F.LEV_CNT_LOGGED]⟩,
   ⟨.LEV_RULE_BASE, 0x20000, 32, 4096, true, [F.LEV_RULE_BASE_BASE_PG]⟩,
   ⟨.LEV_RULE_LIMIT, 0x20008, 32, 4096, true, [F.LEV_RULE_LIMIT_LIMIT_PG]⟩,
   ⟨.LEV_RULE_CTL, 0x20010, 32, 4096, true, [F.LEV_RULE_CTL_LOCK, F.LEV_RULE_CTL_EN, F.LEV_RULE_CTL_ACTION, F.LEV_RULE_CTL_A, F.LEV_RULE_CTL_W, F.LEV_RULE_CTL_R, F.LEV_RULE_CTL_SPACE, F.LEV_RULE_CTL_KIND, F.LEV_RULE_CTL_ID_MASK, F.LEV_RULE_CTL_ID]⟩,
   ⟨.DEV_CLK_STAT, 0x4900, 0, 1, false, [F.DEV_CLK_STAT_DROOP, F.DEV_CLK_STAT_AUX_INT, F.DEV_CLK_STAT_LOCK_HW, F.DEV_CLK_STAT_LOCK_RSV, F.DEV_CLK_STAT_LOCK_CORE, F.DEV_CLK_STAT_AUXCLK_OK, F.DEV_CLK_STAT_SYSCLK_OK, F.DEV_CLK_STAT_REFCLK_OK]⟩,
   ⟨.DEV_CDC_PEND, 0x4904, 0, 1, false, [F.DEV_CDC_PEND_GRP, F.DEV_CDC_PEND_SLOT, F.DEV_CDC_PEND_AON, F.DEV_CDC_PEND_RSV, F.DEV_CDC_PEND_HW]⟩,
   ⟨.DEV_TIME, 0x4908, 0, 1, true, [F.DEV_TIME_NS]⟩,
   ⟨.DEV_WS_STAT, 0x4a00, 0, 1, false, [F.DEV_WS_STAT_SAFE, F.DEV_WS_STAT_INJ_EN, F.DEV_WS_STAT_ALIVE, F.DEV_WS_STAT_CAUSE_EV, F.DEV_WS_STAT_LEVEL, F.DEV_WS_STAT_OPEN, F.DEV_WS_STAT_HCOUNT]⟩,
   ⟨.DEV_WS_HEAD, 0x4a08, 0, 1, true, [F.DEV_WS_HEAD_OVW, F.DEV_WS_HEAD_NEXT_SEQ]⟩,
   ⟨.DEV_WS_ACK, 0x4a10, 0, 1, false, [F.DEV_WS_ACK_SEQ]⟩,
   ⟨.DEV_WS_INJ, 0x4a18, 0, 1, true, [F.DEV_WS_INJ_GO, F.DEV_WS_INJ_EVENT, F.DEV_WS_INJ_PATH]⟩,
   ⟨.DEV_WS_HIST_W, 0x4c00, 8, 128, true, [F.DEV_WS_HIST_W_ENTRY]⟩,
   ⟨.DEV_RST_CAUSE, 0x5000, 0, 1, false, [F.DEV_RST_CAUSE_WARMS, F.DEV_RST_CAUSE_TRIPPED, F.DEV_RST_CAUSE_SRC]⟩,
   ⟨.DEV_RST_CMD, 0x5004, 0, 1, false, [F.DEV_RST_CMD_KEY, F.DEV_RST_CMD_KIND]⟩,
   ⟨.DEV_RAIL_STAT, 0x5008, 0, 1, true, [F.DEV_RAIL_STAT_WARNED, F.DEV_RAIL_STAT_BELOW]⟩,
   ⟨.DEV_DROOP_STAT, 0x5010, 0, 1, true, [F.DEV_DROOP_STAT_MAX_NS, F.DEV_DROOP_STAT_COUNT]⟩,
   ⟨.DEV_PWR_CAP, 0x5018, 0, 1, false, [F.DEV_PWR_CAP_STEP, F.DEV_PWR_CAP_EST_W, F.DEV_PWR_CAP_CAP_W]⟩,
   ⟨.DEV_PD_STAT, 0x5020, 0, 1, true, [F.DEV_PD_STAT_GRP_ON]⟩]

/-- Registers of class root (R548). -/
def regsRoot3 : List RegSpec :=
  [⟨.DEV_PD_STAT2, 0x5028, 0, 1, false, [F.DEV_PD_STAT2_AON, F.DEV_PD_STAT2_HW, F.DEV_PD_STAT2_ENG_ON, F.DEV_PD_STAT2_STK_ON]⟩,
   ⟨.DEV_THERM_CFG, 0x5030, 0, 1, true, [F.DEV_THERM_CFG_STK_TRIP, F.DEV_THERM_CFG_STK_THROT, F.DEV_THERM_CFG_STK_WARN, F.DEV_THERM_CFG_DIE_TRIP, F.DEV_THERM_CFG_DIE_THROT, F.DEV_THERM_CFG_DIE_WARN]⟩,
   ⟨.DEV_TEMP, 0x5038, 0, 1, true, [F.DEV_TEMP_DIE_SENS, F.DEV_TEMP_SLOT, F.DEV_TEMP_STK, F.DEV_TEMP_DIE]⟩,
   ⟨.HW_STAT, 0x6000, 0, 1, false, [F.HW_STAT_READY, F.HW_STAT_RECOVERY, F.HW_STAT_ACT, F.HW_STAT_FTM, F.HW_STAT_SLOT, F.HW_STAT_BG, F.HW_STAT_QDEPTH]⟩,
   ⟨.HW_FW_VER, 0x6008, 0, 1, true, [F.HW_FW_VER_SVN_MIN, F.HW_FW_VER_SVN, F.HW_FW_VER_VER]⟩,
   ⟨.HW_WDT, 0x6010, 0, 1, false, [F.HW_WDT_EXPIRED, F.HW_WDT_TMO_MS]⟩,
   ⟨.HW_DBG_CTL, 0x6014, 0, 1, false, [F.HW_DBG_CTL_FTM_CLOSED, F.HW_DBG_CTL_ACTIVE, F.HW_DBG_CTL_DIS]⟩,
   ⟨.GAU_IVL_CFG, 0x5100, 0, 1, false, [F.GAU_IVL_CFG_EN, F.GAU_IVL_CFG_NOW, F.GAU_IVL_CFG_PERIOD_US]⟩,
   ⟨.GAU_IVL_TIME, 0x5108, 0, 1, true, [F.GAU_IVL_TIME_TIME]⟩,
   ⟨.GAU_SMP_CFG, 0x5110, 0, 1, false, [F.GAU_SMP_CFG_EN, F.GAU_SMP_CFG_WRAP, F.GAU_SMP_CFG_XMASK, F.GAU_SMP_CFG_SEED, F.GAU_SMP_CFG_CLSMASK, F.GAU_SMP_CFG_LOG2N]⟩,
   ⟨.GAU_SMP_PORTS, 0x5118, 0, 1, true, [F.GAU_SMP_PORTS_MASK]⟩,
   ⟨.GAU_SMP_RING, 0x5120, 0, 1, true, [F.GAU_SMP_RING_BASE, F.GAU_SMP_RING_LOG2SZ]⟩,
   ⟨.GAU_SMP_PTR, 0x5128, 0, 1, true, [F.GAU_SMP_PTR_HEAD, F.GAU_SMP_PTR_TAIL]⟩,
   ⟨.GAU_SMP_LOST, 0x5130, 0, 1, true, [F.GAU_SMP_LOST_FULL, F.GAU_SMP_LOST_BUSY, F.GAU_SMP_LOST_DAMAGED]⟩,
   ⟨.DEV_STRAP, 0x5040, 0, 1, false, [F.DEV_STRAP_PID, F.DEV_STRAP_PMODE]⟩]

/-- Registers of class root (R548). -/
def regsRoot : List RegSpec := regsRoot0 ++ regsRoot1 ++ regsRoot2 ++ regsRoot3

/-- Registers of class group (R548). -/
def regsGroup : List RegSpec :=
  [⟨.GRP_CFG, 0x100, 0, 1, false, [F.GRP_CFG_SPLIT, F.GRP_CFG_MODE]⟩,
   ⟨.GRP_STAT, 0x104, 0, 1, false, [F.GRP_STAT_CHG, F.GRP_STAT_REFUSE, F.GRP_STAT_CUR_SPLIT, F.GRP_STAT_CUR_MODE]⟩,
   ⟨.GRP_FC_CFG, 0x200, 0, 1, false, [F.GRP_FC_CFG_TRY_MS, F.GRP_FC_CFG_RATE]⟩,
   ⟨.GRP_FC_STAT, 0x204, 0, 1, false, [F.GRP_FC_STAT_FCI_OK, F.GRP_FC_STAT_LOCK, F.GRP_FC_STAT_RATE_CUR, F.GRP_FC_STAT_FAILS, F.GRP_FC_STAT_GOOD, F.GRP_FC_STAT_TSTEP]⟩,
   ⟨.GRP_LTEST, 0x208, 0, 1, false, [F.GRP_LTEST_GO, F.GRP_LTEST_BUSY, F.GRP_LTEST_DUR_MS]⟩,
   ⟨.GRP_PWR, 0x300, 0, 1, false, [F.GRP_PWR_STATE, F.GRP_PWR_OFF]⟩]

/-- Registers of class port (R548). -/
def regsPort0 : List RegSpec :=
  [⟨.PRT_WIN_BASE, 0x2000, 32, 16, true, [F.PRT_WIN_BASE_BASE_HI]⟩,
   ⟨.PRT_WIN_SIZE, 0x2008, 32, 16, false, [F.PRT_WIN_SIZE_SIZE_M1]⟩,
   ⟨.PRT_WIN_CTL, 0x200c, 32, 16, false, [F.PRT_WIN_CTL_LOCK, F.PRT_WIN_CTL_CMODE, F.PRT_WIN_CTL_WTYPE, F.PRT_WIN_CTL_EN]⟩,
   ⟨.PRT_WIN_GPA, 0x2010, 32, 16, true, [F.PRT_WIN_GPA_GPA_HI]⟩,
   ⟨.PRT_FAB_PEER, 0x3000, 0, 1, false, [F.PRT_FAB_PEER_EN, F.PRT_FAB_PEER_PEER_GRP, F.PRT_FAB_PEER_PEER_SW]⟩,
   ⟨.PRT_FAB_STAT, 0x3008, 0, 1, true, [F.PRT_FAB_STAT_PEER_REACH, F.PRT_FAB_STAT_PEER_GRP, F.PRT_FAB_STAT_PEER_SW, F.PRT_FAB_STAT_FAIL_CODE, F.PRT_FAB_STAT_STATE]⟩,
   ⟨.PRT_HCFG, 0x1000, 0, 1, false, [F.PRT_HCFG_MGMT, F.PRT_HCFG_HDM_OWN, F.PRT_HCFG_MAXRATE, F.PRT_HCFG_NUM_VFS, F.PRT_HCFG_INST_BASE]⟩,
   ⟨.PRT_HSTAT, 0x1004, 0, 1, false, [F.PRT_HSTAT_PERST, F.PRT_HSTAT_BME, F.PRT_HSTAT_BI_EN, F.PRT_HSTAT_MEM_EN, F.PRT_HSTAT_HELD, F.PRT_HSTAT_RATE, F.PRT_HSTAT_WIDTH, F.PRT_HSTAT_FLIT, F.PRT_HSTAT_LSTATE]⟩,
   ⟨.PRT_BME_HOLD, 0x1008, 0, 1, false, [F.PRT_BME_HOLD_HOLD_US]⟩,
   ⟨.PRT_MCFG, 0x1010, 0, 1, false, [F.PRT_MCFG_EN, F.PRT_MCFG_MAXRATE, F.PRT_MCFG_EVT_POLL_MS, F.PRT_MCFG_ENUM_S, F.PRT_MCFG_SLOT]⟩,
   ⟨.PRT_MSTAT, 0x1018, 0, 1, true, [F.PRT_MSTAT_CAP_X, F.PRT_MSTAT_RATE, F.PRT_MSTAT_WIDTH, F.PRT_MSTAT_FAIL_CODE, F.PRT_MSTAT_STATE]⟩,
   ⟨.PRT_FL_CFG, 0x3100, 0, 1, false, [F.PRT_FL_CFG_REPLAY_MAX, F.PRT_FL_CFG_ACK_TMO, F.PRT_FL_CFG_RT_MAX_US, F.PRT_FL_CFG_AUTO_DEG]⟩,
   ⟨.PRT_FL_RESHAPE, 0x3104, 0, 1, false, [F.PRT_FL_RESHAPE_GO, F.PRT_FL_RESHAPE_RATE, F.PRT_FL_RESHAPE_BASE, F.PRT_FL_RESHAPE_WIDTH]⟩,
   ⟨.PRT_FL_RXCFG, 0x3108, 0, 1, true, [F.PRT_FL_RXCFG_RSV6, F.PRT_FL_RXCFG_RSV5, F.PRT_FL_RXCFG_RSV4, F.PRT_FL_RXCFG_RSV3, F.PRT_FL_RXCFG_RSV2, F.PRT_FL_RXCFG_RSV1, F.PRT_FL_RXCFG_RSV0]⟩,
   ⟨.PRT_FL_RXLIM, 0x3110, 0, 1, false, [F.PRT_FL_RXLIM_RBMAX, F.PRT_FL_RXLIM_POOL]⟩,
   ⟨.PRT_FL_CRED, 0x3114, 0, 1, false, [F.PRT_FL_CRED_EMPTY, F.PRT_FL_CRED_CTRL_CR, F.PRT_FL_CRED_SH_CR]⟩,
   ⟨.PRT_FL_STAT, 0x3120, 0, 1, false, [F.PRT_FL_STAT_EXP_SEQ, F.PRT_FL_STAT_NXT_SEQ, F.PRT_FL_STAT_WIDTH, F.PRT_FL_STAT_DISCARD, F.PRT_FL_STAT_PHASE]⟩,
   ⟨.PRT_FL_PSTAT, 0x3124, 0, 1, false, [F.PRT_FL_PSTAT_RSP, F.PRT_FL_PSTAT_EDDY_PEAK, F.PRT_FL_PSTAT_EDDY_INUSE]⟩,
   ⟨.PRT_FL_ERR, 0x3128, 0, 1, true, [F.PRT_FL_ERR_SEQERR, F.PRT_FL_ERR_CRCERR]⟩,
   ⟨.PRT_FL_RPL, 0x3130, 0, 1, true, [F.PRT_FL_RPL_FLITS, F.PRT_FL_RPL_NAK_RX, F.PRT_FL_RPL_NAK_TX]⟩]

/-- Registers of class port (R548). -/
def regsPort1 : List RegSpec :=
  [⟨.PRT_FL_STOMP, 0x3138, 0, 1, false, [F.PRT_FL_STOMP_RX, F.PRT_FL_STOMP_TX]⟩,
   ⟨.PRT_FL_RETRAIN, 0x313c, 0, 1, false, [F.PRT_FL_RETRAIN_COUNT, F.PRT_FL_RETRAIN_LAST]⟩]

/-- Registers of class port (R548). -/
def regsPort : List RegSpec := regsPort0 ++ regsPort1

/-- Registers of class lane (R548). -/
def regsLane : List RegSpec :=
  [⟨.LN_TXEQ, 0x100, 0, 1, false, [F.LN_TXEQ_AUTO, F.LN_TXEQ_MAN, F.LN_TXEQ_PRESET, F.LN_TXEQ_SWING, F.LN_TXEQ_POST, F.LN_TXEQ_PRE]⟩,
   ⟨.LN_RXEQ, 0x104, 0, 1, false, [F.LN_RXEQ_FREEZE, F.LN_RXEQ_CTLE, F.LN_RXEQ_VREF_H, F.LN_RXEQ_VREF_M, F.LN_RXEQ_VREF_L, F.LN_RXEQ_PH]⟩,
   ⟨.LN_RXDFE, 0x108, 0, 1, true, [F.LN_RXDFE_TAPS]⟩,
   ⟨.LN_CAL_FAC, 0x110, 0, 1, true, [F.LN_CAL_FAC_PH, F.LN_CAL_FAC_VH, F.LN_CAL_FAC_VM, F.LN_CAL_FAC_VL, F.LN_CAL_FAC_CTLE, F.LN_CAL_FAC_SWING, F.LN_CAL_FAC_POST, F.LN_CAL_FAC_PRE]⟩,
   ⟨.LN_CAL_USR, 0x118, 0, 1, true, [F.LN_CAL_USR_PEND, F.LN_CAL_USR_OFS]⟩,
   ⟨.LN_STAT, 0x120, 0, 1, false, [F.LN_STAT_ALIGN, F.LN_STAT_INV, F.LN_STAT_LLANE, F.LN_STAT_SAT, F.LN_STAT_A_PRE, F.LN_STAT_A_POST, F.LN_STAT_A_MAIN, F.LN_STAT_A_SWING]⟩,
   ⟨.LN_ERR, 0x128, 0, 1, true, [F.LN_ERR_LTEST, F.LN_ERR_STUFF, F.LN_ERR_MRK]⟩,
   ⟨.LN_MRG_CTL, 0x130, 0, 1, false, [F.LN_MRG_CTL_GO, F.LN_MRG_CTL_EYE, F.LN_MRG_CTL_LOG2N, F.LN_MRG_CTL_V_OFS, F.LN_MRG_CTL_PH_OFS]⟩,
   ⟨.LN_MRG_RES, 0x138, 0, 1, true, [F.LN_MRG_RES_BUSY, F.LN_MRG_RES_DONE, F.LN_MRG_RES_BLOCKED, F.LN_MRG_RES_ERRS]⟩]

/-- Registers of class stack (R548). -/
def regsStack : List RegSpec :=
  [⟨.RSV_SCRUB_CTL, 0x100, 0, 1, false, [F.RSV_SCRUB_CTL_LAP_WARN, F.RSV_SCRUB_CTL_MIN_GAP, F.RSV_SCRUB_CTL_EN]⟩,
   ⟨.RSV_CE_CTL, 0x104, 0, 1, false, [F.RSV_CE_CTL_KEEP, F.RSV_CE_CTL_THR]⟩,
   ⟨.RSV_MB_STAT, 0x108, 0, 1, false, [F.RSV_MB_STAT_PEAK, F.RSV_MB_STAT_INUSE]⟩]

/-- Registers of class pc (R548). -/
def regsPc : List RegSpec :=
  [⟨.RSV_SCRUB_POS, 0x100, 0, 1, false, [F.RSV_SCRUB_POS_LINE]⟩,
   ⟨.RSV_SCRUB_LAP, 0x108, 0, 1, true, [F.RSV_SCRUB_LAP_LAPS, F.RSV_SCRUB_LAP_LAST_MS]⟩,
   ⟨.RSV_ECC_CNT, 0x110, 0, 1, true, [F.RSV_ECC_CNT_UE, F.RSV_ECC_CNT_CE]⟩,
   ⟨.RSV_CE_LOST, 0x118, 0, 1, false, [F.RSV_CE_LOST_COUNT]⟩,
   ⟨.RSV_CE_ROW, 0x200, 8, 64, true, [F.RSV_CE_ROW_V, F.RSV_CE_ROW_COUNT, F.RSV_CE_ROW_SYM, F.RSV_CE_ROW_ROW]⟩]

/-- Registers of class engine (R548). -/
def regsEngine : List RegSpec :=
  [⟨.MRC_CFG, 0x100, 0, 1, false, [F.MRC_CFG_WND_M1, F.MRC_CFG_ACK_PKTS, F.MRC_CFG_ACK_DELAY]⟩,
   ⟨.MRC_RTO, 0x104, 0, 1, false, [F.MRC_RTO_RETRY_MAX, F.MRC_RTO_RTO_MAX_US, F.MRC_RTO_RTO_MIN_US]⟩,
   ⟨.MRC_RNR, 0x108, 0, 1, false, [F.MRC_RNR_RNR_MAX_MS, F.MRC_RNR_RNR_US]⟩,
   ⟨.MRC_REC, 0x10c, 0, 1, false, [F.MRC_REC_REC_MS]⟩,
   ⟨.MRC_STAT, 0x110, 0, 1, true, [F.MRC_STAT_DEPARTED, F.MRC_STAT_ERROR, F.MRC_STAT_OPEN]⟩,
   ⟨.MRC_TX, 0x118, 0, 1, true, [F.MRC_TX_COUNT]⟩,
   ⟨.MRC_RTX, 0x120, 0, 1, true, [F.MRC_RTX_TRIM, F.MRC_RTX_TIMER]⟩,
   ⟨.MRC_RX_DISC, 0x128, 0, 1, true, [F.MRC_RX_DISC_FLOW, F.MRC_RX_DISC_WINDOW, F.MRC_RX_DISC_DUP]⟩,
   ⟨.ENG_STAT, 0xf00, 0, 1, true, [F.ENG_STAT_UCODE, F.ENG_STAT_RESTARTS, F.ENG_STAT_STATE]⟩]

/-- Registers of class inst (R548). -/
def regsInst : List RegSpec :=
  [⟨.MRC_ICMD_DATA, 0x7000, 4, 16, false, [F.MRC_ICMD_DATA_DATA]⟩,
   ⟨.MRC_ICMD_CTL, 0x7040, 0, 1, false, [F.MRC_ICMD_CTL_BUSY, F.MRC_ICMD_CTL_STATUS, F.MRC_ICMD_CTL_OPC]⟩,
   ⟨.MRC_ICMD_RES, 0x7048, 0, 1, true, [F.MRC_ICMD_RES_RES]⟩,
   ⟨.MRC_EQ_DB, 0x7050, 0, 1, false, [F.MRC_EQ_DB_HEAD]⟩,
   ⟨.MRC_SQ_DB, 0x8000, 8, 1024, false, [F.MRC_SQ_DB_TAIL]⟩,
   ⟨.MRC_CQ_DB, 0x8004, 8, 1024, false, [F.MRC_CQ_DB_HEAD]⟩,
   ⟨.INS_STAT, 0x100, 0, 1, false, [F.INS_STAT_FLOWS, F.INS_STAT_DRAINING, F.INS_STAT_SAVED, F.INS_STAT_STATE]⟩,
   ⟨.INS_CFG, 0x104, 0, 1, false, [F.INS_CFG_MBX_VEC]⟩,
   ⟨.INS_MBX_DB, 0x108, 0, 1, false, [F.INS_MBX_DB_M2H_FULL, F.INS_MBX_DB_H2M_FULL]⟩,
   ⟨.INS_MBX_H2M, 0x1000, 4, 64, false, [F.INS_MBX_H2M_DATA]⟩,
   ⟨.INS_MBX_M2H, 0x1100, 4, 64, false, [F.INS_MBX_M2H_DATA]⟩]

/-- Registers of class slot (R548). -/
def regsSlot : List RegSpec :=
  [⟨.SLT_CFG, 0x100, 0, 1, false, [F.SLT_CFG_PEND, F.SLT_CFG_BTN_ON, F.SLT_CFG_AUTO_OFF, F.SLT_CFG_FORCE_EN, F.SLT_CFG_MRL_EN, F.SLT_CFG_TSRC, F.SLT_CFG_HS_MULT, F.SLT_CFG_SLEW]⟩,
   ⟨.SLT_ILIM, 0x104, 0, 1, false, [F.SLT_ILIM_PEND, F.SLT_ILIM_RSHUNT_UOHM, F.SLT_ILIM_ILIM_MA]⟩,
   ⟨.SLT_TIME, 0x108, 0, 1, true, [F.SLT_TIME_PEND, F.SLT_TIME_DISCH_MS, F.SLT_TIME_RAMP_MS, F.SLT_TIME_COOL_MS, F.SLT_TIME_ARM_S, F.SLT_TIME_PGDLY, F.SLT_TIME_FT_US]⟩,
   ⟨.SLT_VTHR, 0x110, 0, 1, false, [F.SLT_VTHR_PEND, F.SLT_VTHR_PG_THR, F.SLT_VTHR_VOFF_THR]⟩,
   ⟨.SLT_THM, 0x118, 0, 1, true, [F.SLT_THM_PEND, F.SLT_THM_R3, F.SLT_THM_R2, F.SLT_THM_R1]⟩,
   ⟨.SLT_TAU, 0x120, 0, 1, true, [F.SLT_TAU_PEND, F.SLT_TAU_TAU3, F.SLT_TAU_TAU2, F.SLT_TAU_TAU1]⟩,
   ⟨.SLT_TLIM, 0x128, 0, 1, false, [F.SLT_TLIM_PEND, F.SLT_TLIM_T_AMB, F.SLT_TLIM_TJ_WARN, F.SLT_TLIM_TJ_MAX]⟩,
   ⟨.SLT_NTC, 0x12c, 0, 1, false, [F.SLT_NTC_PEND, F.SLT_NTC_R26, F.SLT_NTC_B]⟩,
   ⟨.SLT_CMD, 0x130, 0, 1, false, [F.SLT_CMD_PEND, F.SLT_CMD_OP]⟩,
   ⟨.SLT_STAT, 0x138, 0, 1, true, [F.SLT_STAT_REFUSE, F.SLT_STAT_CAUSE, F.SLT_STAT_NTC_BAD, F.SLT_STAT_IDENT, F.SLT_STAT_REINS, F.SLT_STAT_BOUND, F.SLT_STAT_INLIM, F.SLT_STAT_PG, F.SLT_STAT_GATE, F.SLT_STAT_BTN, F.SLT_STAT_MRL, F.SLT_STAT_PRSNT, F.SLT_STAT_STATE]⟩,
   ⟨.SLT_MEAS, 0x140, 0, 1, true, [F.SLT_MEAS_TJ, F.SLT_MEAS_IOUT, F.SLT_MEAS_VOUT]⟩,
   ⟨.SLT_CNT, 0x148, 0, 1, true, [F.SLT_CNT_INSERT, F.SLT_CNT_SURPRISE, F.SLT_CNT_THERM, F.SLT_CNT_SHORT, F.SLT_CNT_LIMIT]⟩]

/-- Registers of class ring (R548). -/
def regsRing : List RegSpec :=
  [⟨.HW_RING_CBASE, 0x0, 0, 1, true, [F.HW_RING_CBASE_BASE]⟩,
   ⟨.HW_RING_RBASE, 0x8, 0, 1, true, [F.HW_RING_RBASE_BASE]⟩,
   ⟨.HW_RING_CFG, 0x10, 0, 1, false, [F.HW_RING_CFG_EN, F.HW_RING_CFG_VEC, F.HW_RING_CFG_RLOG2, F.HW_RING_CFG_CLOG2]⟩,
   ⟨.HW_RING_CTAIL, 0x18, 0, 1, false, [F.HW_RING_CTAIL_TAIL]⟩,
   ⟨.HW_RING_RHEAD, 0x1c, 0, 1, false, [F.HW_RING_RHEAD_HEAD]⟩]

/-- Registers of class every (R548). -/
def regsEvery : List RegSpec :=
  [⟨.GAU_CTL, 0x800, 0, 1, false, [F.GAU_CTL_PEND, F.GAU_CTL_CLR, F.GAU_CTL_FREEZE]⟩,
   ⟨.GAU_OVF, 0x804, 0, 1, false, [F.GAU_OVF_OVF]⟩,
   ⟨.GAU_IVL, 0x808, 0, 1, true, [F.GAU_IVL_SEQ]⟩,
   ⟨.GAU_CNT, 0x810, 8, 8, true, [F.GAU_CNT_COUNT]⟩,
   ⟨.GAU_SNAP, 0x850, 8, 8, true, [F.GAU_SNAP_COUNT]⟩,
   ⟨.GAU_EVSEL, 0x890, 4, 8, false, [F.GAU_EVSEL_EN, F.GAU_EVSEL_EVNUM, F.GAU_EVSEL_CLSMASK, F.GAU_EVSEL_CODE]⟩,
   ⟨.GAU_SLOT, 0x8c0, 8, 4, true, [F.GAU_SLOT_COUNT]⟩,
   ⟨.GAU_SLOT_SNAP, 0x8e0, 8, 4, true, [F.GAU_SLOT_SNAP_COUNT]⟩,
   ⟨.ID, 0x0, 0, 1, false, [F.ID_CLASS, F.ID_INDEX]⟩,
   ⟨.PATH, 0x4, 0, 1, false, [F.PATH_CODE]⟩,
   ⟨.CHILD, 0x8, 0, 1, true, [F.CHILD_STRIDE, F.CHILD_COUNT]⟩,
   ⟨.CHILD_BASE, 0x10, 0, 1, false, [F.CHILD_BASE_ADDR]⟩,
   ⟨.SUMMARY, 0x18, 0, 1, false, [F.SUMMARY_FAULT, F.SUMMARY_STATUS]⟩,
   ⟨.IDENT, 0x20, 4, 16, false, [F.IDENT_WORD]⟩,
   ⟨.CMD, 0x60, 0, 1, false, [F.CMD_PARAM, F.CMD_OPC]⟩,
   ⟨.CMD_RES, 0x68, 0, 1, true, [F.CMD_RES_FIRST, F.CMD_RES_BUSY, F.CMD_RES_STATUS]⟩,
   ⟨.CMD_NFAIL, 0x70, 0, 1, false, [F.CMD_NFAIL_NFAIL]⟩]

/-- The registers of a unit class, the descriptor and Gauge registers of every unit among them (R545, R548). -/
def regsOf : UClass → List RegSpec
  | .root => regsRoot ++ regsEvery
  | .quadrant => regsEvery
  | .group => regsGroup ++ regsEvery
  | .port => regsPort ++ regsEvery
  | .lane => regsLane ++ regsEvery
  | .stack => regsStack ++ regsEvery
  | .pc => regsPc ++ regsEvery
  | .engine => regsEngine ++ regsEvery
  | .inst => regsInst ++ regsEvery
  | .slot => regsSlot ++ regsEvery
  | .ring => regsRing
  | .every => regsEvery

end Sys2Proof.Machine
end

