-- ==== Sys2Proof/Machine/Units.lean ====
section
/-!
DEFINITION. Machine/Units.lean: where each unit's registers stand and the path code that names it (R542, R543).
-/
namespace Sys2Proof.Machine

/-- The block address of port p of group g (R542). -/
def portBase (g p : Nat) : Nat := 0x08000000 + g / 16 * 0x02000000 + g % 16 * 0x00200000 + p * 0x00040000

/-- The block address of a unit (R542). -/
def unitBase : UnitId → Nat
  | .root => 0
  | .engine e => 0x01000000 + e.val * 0x00100000
  | .stack s => 0x02000000 + s.val * 0x00400000
  | .pc s c => 0x02000000 + s.val * 0x00400000 + 0x00100000 + c.val * 0x00010000
  | .slot k => 0x03000000 + k.val * 0x00001000
  | .quadrant q => 0x04000000 + q.val * 0x00100000
  | .port pt => portBase pt.g.val pt.p.val
  | .group g => portBase g.val 0 + 0x00080000
  | .lane ln => portBase ln.port.g.val ln.port.p.val + 0x00020000 + ln.l.val * 0x00002000
  | .inst i => 0x10000000 + i.val * 0x00010000

/-- The class of a unit (R4). -/
def unitClass : UnitId → UClass
  | .root => .root | .quadrant _ => .quadrant | .group _ => .group | .port _ => .port | .lane _ => .lane
  | .stack _ => .stack | .pc _ _ => .pc | .engine _ => .engine | .inst _ => .inst | .slot _ => .slot

/-- The CLASS number of a unit (R543). -/
def unitClassNum : UnitId → Nat
  | .root => 0 | .quadrant _ => 1 | .group _ => 2 | .port _ => 3 | .lane _ => 4
  | .stack _ => 5 | .pc _ _ => 6 | .engine _ => 7 | .inst _ => 8 | .slot _ => 9

/-- A unit's own index (R545, ID.INDEX). -/
def unitIndex : UnitId → Nat
  | .root => 0 | .quadrant q => q.val | .group g => g.val | .port pt => pt.p.val | .lane ln => ln.l.val
  | .stack s => s.val | .pc _ c => c.val | .engine e => e.val | .inst i => i.val | .slot k => k.val

/-- The IDX field of the path code (R543). -/
def unitIdx : UnitId → Nat
  | .port pt => pt.g.val | .lane ln => ln.port.g.val | .pc s _ => s.val
  | u => unitIndex u

/-- The path code of a unit (R543). -/
def pathCode (u : UnitId) : Nat :=
  unitClassNum u * 2 ^ 28
    + (match u with | .lane ln => ln.l.val | _ => 0) * 2 ^ 21
    + (match u with | .port pt => pt.p.val | .lane ln => ln.port.p.val | .pc _ c => c.val | _ => 0) * 2 ^ 16
    + unitIdx u

/-- A number as an index below n, where it is one. -/
def fin? (n v : Nat) : Option (Fin n) := if h : v < n then some ⟨v, h⟩ else none

/-- The unit a path code names, where the code is well formed (R543, R544): no reserved class or bit, no LANE or SUB field in a
class that does not use it, and every index within its range. -/
def unitOfCode (c : Nat) : Option UnitId :=
  let cls := bits c 31 28
  let lane := bits c 23 21
  let sub := bits c 20 16
  let idx := bits c 15 0
  if bits c 27 24 ≠ 0 then none
  else if cls ≠ 4 ∧ lane ≠ 0 then none
  else if cls ≠ 3 ∧ cls ≠ 4 ∧ cls ≠ 6 ∧ sub ≠ 0 then none
  else match cls with
    | 0 => if idx = 0 then some .root else none
    | 1 => (fin? 4 idx).map .quadrant
    | 2 => (fin? 64 idx).map .group
    | 3 => match fin? 64 idx, fin? 2 sub with
      | some g, some p => some (.port ⟨g, p⟩)
      | _, _ => none
    | 4 => match fin? 64 idx, fin? 2 sub, fin? 8 lane with
      | some g, some p, some l => some (.lane ⟨⟨g, p⟩, l⟩)
      | _, _, _ => none
    | 5 => (fin? 4 idx).map .stack
    | 6 => match fin? 4 idx, fin? 32 sub with
      | some s, some k => some (.pc s k)
      | _, _ => none
    | 7 => (fin? 8 idx).map .engine
    | 8 => (fin? 1024 idx).map .inst
    | 9 => (fin? 64 idx).map .slot
    | _ => none

/-- The unit whose block covers an address of the unit register space, and the offset in that block (R542). -/
def unitAt (a : Nat) : Option (UnitId × Nat) :=
  if a < 0x01000000 then some (.root, a)
  else if a < 0x02000000 then
    (fin? 8 ((a - 0x01000000) / 0x00100000)).map fun e => (.engine e, (a - 0x01000000) % 0x00100000)
  else if a < 0x03000000 then
    let r := (a - 0x02000000) % 0x00400000
    match fin? 4 ((a - 0x02000000) / 0x00400000) with
    | none => none
    | some s =>
      if r < 0x00100000 then some (.stack s, r)
      else (fin? 32 ((r - 0x00100000) / 0x00010000)).map fun c => (.pc s c, r % 0x00010000)
  else if a < 0x04000000 then
    (fin? 64 ((a - 0x03000000) / 0x1000)).map fun k => (.slot k, a % 0x1000)
  else if a < 0x08000000 then
    (fin? 4 ((a - 0x04000000) / 0x00100000)).map fun q => (.quadrant q, a % 0x00100000)
  else if a < 0x10000000 then
    let r := (a - 0x08000000) % 0x00200000
    match fin? 64 ((a - 0x08000000) / 0x02000000 * 16 + (a - 0x08000000) % 0x02000000 / 0x00200000) with
    | none => none
    | some g =>
      if r < 0x00080000 then
        let o := r % 0x00040000
        let pt : PortId := ⟨g, ⟨r / 0x00040000 % 2, Nat.mod_lt _ (by decide)⟩⟩
        if 0x00020000 ≤ o ∧ o < 0x00030000 then
          some (.lane ⟨pt, ⟨(o - 0x00020000) / 0x00002000 % 8, Nat.mod_lt _ (by decide)⟩⟩, o % 0x00002000)
        else some (.port pt, o)
      else if r < 0x00100000 then some (.group g, r - 0x00080000)
      else none
  else if a < 0x14000000 then
    (fin? 1024 ((a - 0x10000000) / 0x00010000)).map fun i => (.inst i, a % 0x00010000)
  else none

/-- The parent of a unit (R29). -/
def unitParent : UnitId → Option UnitId
  | .root => none
  | .quadrant _ | .stack _ | .engine _ | .inst _ | .slot _ => some .root
  | .group g => some (.quadrant ⟨g.val / 16, by omega⟩)
  | .port pt => some (.group pt.g)
  | .lane ln => some (.port ln.port)
  | .pc s _ => some (.stack s)

/-- Whether the second unit is the first or a descendant of it (R29). -/
def isUnder (a u : UnitId) : Bool :=
  a == u || match unitParent u with
    | none => false
    | some p1 => a == p1 || match unitParent p1 with
      | none => false
      | some p2 => a == p2 || match unitParent p2 with
        | none => false
        | some p3 => a == p3 || unitParent p3 == some a

/-- The key of a register field in the register store: the place of the register, the field's lowest bit and its width. -/
def placeKey (base : Nat) (f : Fld) (n : Nat) : Nat := ((base + f.off + n * f.stride) * 64 + f.lo) * 64 + (f.w - 1)

/-- The width a key carries. -/
def keyWidth (k : Nat) : Nat := k % 64 + 1

/-- The key of a unit's register field, entry n of an array. -/
def fkey (u : UnitId) (f : Fld) (n : Nat) : Nat := placeKey (unitBase u) f n

/-- The key of a ring register of a management port (R277): the model's own place, beyond the unit register space. -/
def ringKey (pt : PortId) (f : Fld) : Nat := placeKey (0x20000000 + pt.ix * 0x1000) f 0

/-- The reset value of a field, entry n of an array: the table's value, or the tables of R111 and R501. -/
def resetOf (f : Fld) (n : Nat) : Nat :=
  match f.reg with
  | .DEV_FP_CLS_CFG => if f.w = 4 then [4, 0, 2, 0, 1, 2, 0].getD n 0 else [36864, 65536, 9216, 9216, 9216, 18432, 0].getD n 0
  | .DEV_FP_CLS_SH => [196608, 196608, 65536, 65536, 65536, 65536, 327680].getD n 0
  | .GAU_EVSEL =>
    if f.lo = 31 then [1, 0, 1, 0, 1, 0, 0, 0].getD n 0
    else if f.lo = 16 then [0, 0, 0, 0, 511, 0, 0, 0].getD n 0
    else if f.lo = 0 then [1, 0, 2, 0, 0x40, 0, 0, 0].getD n 0
    else f.rst
  | _ => f.rst

end Sys2Proof.Machine
end

