-- ==== Sys2Proof/Machine/State.lean ====
section
/-!
DEFINITION. Machine/State.lean: the state of the device as plain data, the reasons a step can stop, and the state at reset.
-/
namespace Sys2Proof.Machine


/-! ### What the device sends -/

/-- What a posted write carries (R284): a placement of a work item, a completion entry, an event entry, data of a READ, or a ring's. -/
inductive BusKind where
  | place (e : Fin 2) (item : Nat)
  | data | cqe | event | ring
  deriving DecidableEq, Repr

/-- A status reply (R459): the header of its command, STATUS, FIRST, NFAIL, and the reply data as numbers in the order of its fields. -/
structure Reply where
  hdr : Hdr
  status : Nat
  first : Nat
  nfail : Nat
  data : List Nat
  deriving DecidableEq, Repr

/-- A cell as a fabric link's receiver rebuilds it (R329): its tag as R99 lays it out, but for EGR and SUB, which routing adds, and its content slots. -/
structure RxCell where
  tag : BitVec 64
  slots : List (BitVec 128)
  deriving DecidableEq, Repr

/-- What Headwater does in a module's configuration space. -/
inductive ModCfg where
  | bmeOff
  | memOn
  | aer
  | cdat
  deriving DecidableEq, Repr

/-- What the device has sent for the last command: replies, messages and writes to its neighbours. The model's own record
(log entry 5): it is emptied when the next command starts. -/
inductive Out where
  /-- A cell that leaves at an egress of the crossbar. -/
  | cell (c : Cell) (egr : XPort)
  /-- A message of the device's own for another switch, and the fabric port it leaves on (R249). -/
  | leave (egr : XPort) (o : Out)
  /-- A request to a module: its tracker entry, the tag {GEN, k} (R125), the operation, the module address, the data, and whether the data
  goes with poison. -/
  | toModule (pt : PortId) (ort : Nat × Nat) (tag : Nat) (op : M2S) (dpa : Nat) (data : Line) (mask : Mask)
    (poison : Bool)
  /-- A request forwarded to the home switch of its extent (R36). -/
  | toSwitch (d : Fin 16) (egr : XPort) (ort : Nat × Nat) (a : Acc)
  /-- The answer to a requester: the MetaValue granted, the data of a read (none where it is poison without a value), poison. -/
  | answer (o : Origin) (mv : MetaV) (data : Option Line) (poison : Bool)
  /-- A back-invalidate snoop to a host (R186). -/
  | bisnp (h : Fin 64) (la : Nat) (inv : Bool)
  /-- BIConflictAck to a host port (R188). -/
  | biConflictAck (pt : PortId) (tag : BitVec 16)
  /-- A contain notice to a host's switch (R190). -/
  | containNotice (h : Fin 64) (sw : Fin 16)
  /-- A poison-add notice to a home switch (R131). -/
  | poisonAdd (line lines : Nat) (home : Fin 16)
  /-- The acknowledgement of a notice, to the switch that sent it (R131, R190). -/
  | noticeAck (sw : Fin 16)
  /-- An atomic operation forwarded to the home switch of its extent (R195). -/
  | atomicFwd (d : Fin 16) (egr : XPort) (ort : Nat × Nat) (op : AtomOp) (gpa : Nat)
  /-- A result of the atomic unit to its requester: code and old value (R195, R198). -/
  | atomicResult (o : Origin) (code : Nat) (old : BitVec 64)
  /-- The reads and writes of a DM_COPY: ports, module addresses and length (R463). -/
  | dmCopy (src dst : PortId) (sdpa ddpa len : Nat)
  /-- Meander writes a corrected line back: the pseudo-channel and its line (R164). -/
  | scrubWrite (st : Fin 4) (c : Fin 32) (line : Nat)
  /-- The reply to an Asryn command over MCTP (R459, R467): its bytes; the in-band interrupt says that it is ready (R469). -/
  | reply (bytes : List Byte)
  /-- A Millrace packet an engine sends into Watersmeet (R219): the header, the payload, and the operation of an ATOMIC, whose place in the
  header the spec does not give (log entry 30). -/
  | mill (h : MHdr) (data : List Byte) (op : Option AtomOp)
  /-- An ACK an engine sends (R224): the header fields of bytes 0-7, the cumulative base, the bitmap and its start, the transient
  and reject records, and MORE. -/
  | millAck (h : MHdr) (cum start : Nat) (sack : BitVec 256) (trans rejs : List (Nat × Nat)) (more : Bool)
  /-- A posted write a function of an H port masters; `item` names the placement it belongs to. -/
  | busWrite (pt : PortId) (fn : Nat) (addr : Nat) (data : List Byte) (kind : BusKind)
  /-- A bus-master read and its tracker entry. -/
  | busRead (pt : PortId) (fn : Nat) (ort : Nat × Nat) (addr len : Nat)
  /-- A flit on a fabric link (R323): its payload slots, its header (R324) and its CRC-64 (R325). -/
  | flit (g : Fin 64) (header : BitVec 64) (slots : List TxSlot) (crc : BitVec 64)
  /-- A CTRL message received on a fabric link (R331), handed to its receiver. -/
  | ctrlIn (g : Fin 64) (m : BitVec 128)
  /-- Cells of a packet received on a fabric link, handed to Watersmeet: the fabric header, the first cell's place in the packet, the cells, and
  whether the packet is whole with them (R329, R342). -/
  | rxCells (g : Fin 64) (header : BitVec 128) (first : Nat) (cells : List RxCell) (whole : Bool)
  /-- A preset a lane asks of the peer's transmitter, in the PREQ of its markers (R366, R367). -/
  | presetReq (ln : LaneId) (preset : Nat)
  /-- A lane reports itself not ready to a margining command (R378). -/
  | marginBusy (ln : LaneId)
  /-- The answer to a configuration request (R287): Request Retry Status, or the value read. -/
  | cfgReply (pt : PortId) (fn : Nat) (retry : Bool) (value : BitVec 32)
  /-- Whether a decoder is committed after a host's write (R275). -/
  | hdm (pt : PortId) (n : Nat) (committed : Bool)
  /-- The CDAT of a port (R276): for each decoder its number, size, the latencies of a Reservoir hit and of the module path in ns, and the bandwidth. -/
  | cdat (pt : PortId) (entries : List (Nat × Nat × Nat × Nat × Nat))
  /-- An error message of function 0 of a port to its host (R281), with the bit of the AER status that it set. -/
  | pcieError (pt : PortId) (bit : Nat) (fatal : Bool)
  /-- Headwater programs HDM decoder 0 of a module: base 0, this size, 1-way, Lock On Commit (R290). -/
  | moduleHdm (pt : PortId) (size : Nat)
  /-- Headwater acts on a module's configuration space (R272, R289, R290): Bus Master Enable off, Mem_Enable on, AER read and cleared, CDAT read over DOE. -/
  | moduleCfg (pt : PortId) (act : ModCfg)
  /-- The answer of a port's CXL mailbox (R280): success or Unsupported, and its data as numbers. -/
  | cxlReply (pt : PortId) (ok : Bool) (data : List Nat)
  /-- A command through a module's mailbox (R290, R292): opcode and parameters. -/
  | moduleCmd (pt : PortId) (op : Nat) (data : List Nat)
  /-- A completion of a CXL.io request (R281): Unsupported Request, or the data read. -/
  | ioReply (pt : PortId) (fn : Nat) (tag : Nat) (ok : Bool) (data : Nat)
  /-- The value a read of a register returns to its master (R9). -/
  | regValue (m : Master) (value : Nat)
  /-- A response to an MCTP control request (R469): the request and the data. -/
  | mctpCtl (cmd : Nat) (data : List Nat)
  /-- An SPDM message (R259, R484): 0 over I3C, a port's index plus 1 over DOE, 129 plus a group's number to the peer of its fabric link, as an IOTX packet for the
  peer's X7; the code and its data. -/
  | spdm (resp code : Nat) (data : List Nat)
  /-- The data of a read of the debug master (R489). -/
  | debugData (data : List Nat)
  /-- An MSI-X message: the address and data of the vector's table entry. -/
  | msix (pt : PortId) (fn vec addr data : Nat)
  deriving DecidableEq, Repr


/-! ### Register accesses in halves (R9, R320, R499) -/

/-- A 32-bit half of a 64-bit register that is held or latched: whose, of which register (by the address of its low half), and
its value. -/
structure Half where
  master : Master
  addr : Nat
  value : Nat
  deriving DecidableEq, Repr

/-- A register write on its way into another clock domain (R388): whether a value is in flight, the value that waits in the shadow, and the last written
value that reads return until the acknowledge where the register store does not hold it: one that waits in the shadow, or one its domain refused
(R387). The register store holds the value in effect. -/
structure Crossing where
  flight : Bool
  shadow : Option Nat
  kept : Option Nat
  deriving DecidableEq, Repr

/-- The held low halves of writes and the latched high halves of reads of each master (R9), the counter pairs and slot accounts
latched by a read of their first (R499), the BASE and LIMIT values held for a Levee rule's next CTL write (R320), and the
crossings in flight with the shadow write that waits behind each (R388), and the places whose shadow waits in the order of their writes (R389). -/
structure RegIo where
  low : List Half
  high : List Half
  gauge : List Half
  ruleBase : Tab Nat
  ruleLimit : Tab Nat
  crossing : Tab Crossing
  order : List Nat
  deriving DecidableEq, Repr

/-! ### Translation (spec 02) -/

/-- The types of a map entry (R47). -/
inductive EType where
  | unmapped | mapped | moving
  deriving DecidableEq, Repr

/-- A Plains map entry (R47). PSN is not kept here: it is set while the poison list holds a line of the extent (R53). -/
structure MapEntry where
  type : EType
  home : Fin 16
  tgtA : Option Tgt
  tgtB : Option Tgt
  trk : Fin 65536
  deriving DecidableEq, Repr

/-- A stripe set (R54): its members' module ports and first 2 MiB units, and the count of its extents. -/
structure Sset where
  members : List (Fin 128 × Nat)
  next : Nat
  deriving DecidableEq, Repr

/-- A staged entry, and whether it was staged to end a move (R93, R94). -/
structure Staged where
  e : MapEntry
  closes : Bool
  deriving DecidableEq, Repr

/-- An advance in progress (R65, R69): the sealed entries, whether e5 has written them, whether the advance is a flip, when it
started and whether it was warned of; `units` are the Reservoir-pinned units it releases at its end, `slots` the bitmap
slots (R79, R89, R159). -/
structure Advance where
  sealed : Tab MapEntry
  written : Bool
  flip : Bool
  since : Nat
  warned : Bool
  units : List Nat
  slots : List Nat
  deriving DecidableEq, Repr

/-- A miss of the extent cache: the entry e5 reads, as the map region held it when the read was issued, and the accesses that
wait for it (R59, R68). -/
structure Miss where
  entry : MapEntry
  waiters : List Acc
  deriving DecidableEq, Repr

/-- The committed map, the extents whose entry is uncorrectable (R62), the cached extents by cache set (R58), the misses by
extent, the stage buffers (R65, R66), the advance in progress, the MAP_ADVANCE reply held during a hold, and the stripe
sets. -/
structure Xlat where
  map : Tab MapEntry
  bad : List Nat
  cached : Tab (List Nat)
  hurt : Tab Ecc
  misses : Tab Miss
  heldMiss : List Acc
  openBuf : Option (Tab Staged)
  queued : Option (Tab Staged)
  adv : Option Advance
  heldReply : Option Hdr
  ssets : Tab Sset
  deriving DecidableEq, Repr

/-! ### Data mover (spec 03) -/

/-- The states of a bitmap slot (R85); a slot that is FREE is not listed. -/
inductive MovState where
  | wait | copy | ready | hot | hold | flipped | failedSrc | failedDst
  deriving DecidableEq, Repr

/-- A bitmap slot in use: its extent, state, completed passes and those since it was last READY, whether the first pass is done, the 64-bit words of
the bitmap this pass has read and cleared, the lines still to be copied of those read, the lines whose destination write is not acknowledged,
whether it was logged HOT, and whether a sealed abort or commit entry has stopped it (R78-R85, R94). -/
structure MovSlot where
  x : Nat
  state : MovState
  passes : Nat
  tries : Nat
  firstDone : Bool
  word : Nat
  todo : Nat
  writing : Nat
  hotLogged : Bool
  stopped : Bool
  deriving DecidableEq, Repr

/-- A final hold (R86, R87): its slots, when it started, whether the sources are drained, and the parked writes in order, each with whether its
MREQ cell lies in its class's reserved part. -/
structure Hold where
  slots : List Nat
  since : Nat
  drained : Bool
  parked : List (Acc × Bool)
  deriving DecidableEq, Repr

/-- The data mover: slots in use, the write-tracking bitmaps (a bit per line, R80), and the hold. -/
structure Mover where
  slots : Tab MovSlot
  marks : Tab Nat
  hold : Option Hold
  deriving DecidableEq, Repr

/-! ### Floodplain and outstanding-request tracker (spec 04) -/

/-- A cell held in the Floodplain, and whether it was admitted into its class's reserved part (R107, R108). -/
structure HeldCell where
  cell : Cell
  inRes : Bool
  deriving DecidableEq, Repr

/-- A packet in an egress class queue: its cells still held, whether the last cell was admitted, whether the first has begun
transmission, whether it takes the Col path (it may leave before its last cell is admitted), the cells already sent, when the first was admitted
(R100, R103, R113), and the cells of a bulk packet that are counted since its admission and have not arrived (R109). -/
structure Pkt where
  first : Cell
  held : List HeldCell
  complete : Bool
  started : Bool
  cut : Bool
  sent : Nat
  at_ : Nat
  owed : Nat
  deriving DecidableEq, Repr

/-- An egress scheduler: the class whose cell is in transmission, the deficit of each tier 2 class and whose turn it is (R102). -/
structure Egress where
  sending : Option Cls
  deficit : Tab Nat
  turn : Nat
  deriving DecidableEq, Repr

/-- An atomic operation that waits: what, where, whose. -/
structure AtomReq where
  op : AtomOp
  gpa : Nat
  origin : Origin
  deriving DecidableEq, Repr

/-- What waits at an ingress: a cell for Floodplain space (R108), a write to be parked for the cell that holds it (R87), a message of the unit behind an internal port
(R117), or a request for a tracker entry (R123): a request that e7 is to answer, in the receive pool or not (R136, R251), an access at translation, an access at
its target, a write-back, a line that is to be flushed from its way, an atomic operation on its way to its home switch, a bus-master read of an engine, a line the mover writes, or the fetch of a command
ring. -/
inductive Wait where
  | lost (c : Cell) (pool : Bool)
  | notice (c : Cell)
  | out (o : Out)
  | copyRead (slot line : Nat)
  | copy (slot line : Nat) (data : Line) (bad : Bool)
  | ring (pt : PortId)
  | mbox (pt : PortId) (op : Nat) (data : List Nat)
  | cell (c : Cell)
  | park (a : Acc)
  | forward (a : Acc) (home : Fin 16)
  | target (a : Acc)
  | wb (la : Nat) (data : Line)
  | flush (la set way : Nat) (inval : Bool)
  | atomic (r : AtomReq)
  | mill (e : Fin 2) (item : Nat)
  deriving DecidableEq, Repr

/-- The Floodplain: the cells each class holds in its reserved and shared part (R107), the class queues by egress port and
class, the schedulers, the cells waiting at an ingress by port and class with the place of the round robin (R108, R118), and
the ingress classes whose packet's later cells are discarded (R109, R113). -/
structure Flood where
  resUsed : Tab Nat
  shUsed : Tab Nat
  queues : Tab (List Pkt)
  egress : Tab Egress
  waiting : Tab (List Wait)
  rr : Tab Nat
  dropRest : List Nat
  downX : List Nat
  deriving DecidableEq, Repr

/-- What a tracked request was sent for, so that its answer goes on from there: an answer passed to the requester as it comes; a
home access at its target, an atomic operation's among them; the old line of a merge-buffer entry; a cache write-back; a copy read or write of a bitmap
slot's line; a work item of a Millrace engine; a fetch of a port's command ring; a command through a module's mailbox; nothing that goes on from it. -/
inductive OrtCtx where
  | fwd (o : Origin)
  | acc (a : Acc) (discard : Bool)
  | merge (la ord : Nat)
  | wb (la : Nat) (data : Line)
  | copyRead (slot line : Nat)
  | copyWrite (slot line : Nat)
  | mill (e : Fin 2) (item : Nat)
  | hw (item : Nat)
  | mbox (pt : PortId)
  | none
  deriving DecidableEq, Repr

/-- An entry of the outstanding-request tracker that is OPEN or in QUAR (R124); `lost` marks an OPEN entry whose path is
declared lost (R127), `taken` one whose response has taken the cell held for it (R110), `owed` the home switch a poison-add notice is owed to (R131). -/
structure OrtEntry where
  isOpen : Bool
  gen : Nat
  port : XPort
  info : ReqInfo
  egr : XPort
  dstSw : Option (Fin 16)
  epar : Bool
  egrTag : Nat
  tIssue : Nat
  lost : Bool
  taken : Bool
  owed : Option (Fin 16)
  tQuar : Nat
  ctx : OrtCtx
  deriving DecidableEq, Repr

/-- An owed poison-add notice in the notice queue: first line number, count of lines, home switch (R131). -/
structure Notice where
  line : Nat
  lines : Nat
  home : Fin 16
  sent : Bool
  deriving DecidableEq, Repr

/-- The tracker: entries by index, the generations of the entries that are FREE, the notice queue, and the egresses that are lost and not yet
logged (R123-R131). -/
structure Ort where
  entries : Tab OrtEntry
  gens : Tab Nat
  notices : List Notice
  lostX : List XPort
  deriving DecidableEq, Repr

/-! ### Reservoir (spec 05) -/

/-- A way of the cache region that holds something (R148): a line, or the mark LOST of an uncorrectable way (R161). -/
structure Way where
  la : Nat
  dirty : Bool
  pin : Bool
  pu : Bool
  lost : Bool
  data : Line
  deriving DecidableEq, Repr

/-- A merge-buffer entry (R160): new bytes and their mask, whether the old line has arrived (or the mask is full), whether its
DRAM write is in flight, whether the line is to be pinned, the reads that wait for it, and the writes that wait for the DRAM write. `ord` tells the entry from an earlier
one of its line, whose pending read is not used (R160 rule 3). -/
structure MergeEntry where
  stack : Fin 4
  ord : Nat
  data : Line
  mask : Mask
  fromTarget : Bool
  ready : Bool
  writing : Bool
  pin : Bool
  reads : List Acc
  late : List Acc
  deriving DecidableEq, Repr

/-- An entry of the poison list (R166). -/
structure PsnEntry where
  x : Nat
  line : Nat
  all : Bool
  reason : Nat
  time : Nat
  deriving DecidableEq, Repr

/-- A scrub read outstanding in a pseudo-channel: its line, whether a write to the line was accepted since (R164), and, for a line outside the
cache region, what it held at the read, so that a change since shows such a write. -/
structure ScrubRead where
  line : Nat
  overtaken : Bool
  image : Option Nat
  deriving DecidableEq, Repr

/-- A resize in progress (R146): the map and directory sizes it moves to. -/
structure Resize where
  mapGib : Nat
  dirGib : Nat
  deriving DecidableEq, Repr

/-- What a Reservoir read of an access reads: all 16 ways of its cache set, the ways whose partial tag matches (R150), or its line's place in a
Reservoir-pinned unit (R151). -/
inductive SetScope where
  | all
  | ways (l : List Nat)
  | place (set way : Nat)
  deriving DecidableEq, Repr

/-- What has come of a target read before the set read beside it: its data, poisoned or not, or that its path is lost. -/
inductive Early where
  | data (d : Line) (poison : Bool)
  | lost
  deriving DecidableEq, Repr

/-- A read of the cache region that an access waits for (R150, R151): what it reads, whether the target read of a read is already issued and what has come of
it, whether a write of the line was accepted or sent since (so that target data is not installed, R174), and the atomic reads of the line that wait behind a
write (R197). -/
structure SetRead where
  acc : Acc
  scope : SetScope
  issued : Bool
  arrived : Option Early
  stale : Bool
  behind : List Acc
  deriving DecidableEq, Repr

/-- The Reservoir: the ways in use by set times 16 plus way, the sets the tag-hint cache holds by hint set, outstanding set
reads, merge buffers by line, partial writes that wait for an entry, suspect sets and the state of all being suspect, the
poison list by bucket times 4 plus slot, the resize, pinned units being withdrawn with the accesses that wait, scrub reads
and laps by pseudo-channel, row entries whose count was logged, the errors that are met by later reads of the device's own (lines by pseudo-channel and line number with
the bits their next read brings turned over, and sets whose hint entry fails its parity; log entry 144), and whether the stacks are in self-refresh. -/
structure Rsv where
  ways : Tab Way
  hint : Tab (List Nat)
  reads : Tab SetRead
  nextRead : Nat
  merge : Tab MergeEntry
  mergeWait : List Acc
  suspect : List Nat
  suspectAll : Bool
  poison : Tab PsnEntry
  resize : Option Resize
  withdraw : Tab (List Acc)
  scrub : Tab (List ScrubRead)
  lapStart : Tab Nat
  lapWarned : List Nat
  rowLogged : List Nat
  struck : Tab Burst
  hintHurt : List Nat
  selfRefresh : Bool
  deriving DecidableEq, Repr

/-! ### Coherence and atomics (spec 06) -/

/-- A directory entry (R179); an invalid entry is not listed. `excl` is STATE E, whose owner is the one host of the vector. -/
structure DirEntry where
  shv : BitVec 64
  la : Nat
  excl : Bool
  owner : Fin 64
  age : Fin 4
  deriving DecidableEq, Repr

/-- A snoop of a line: its host, whether it is BISnpInv, and when it was sent; one that waits in e4 is not sent (R186). -/
structure Snoop where
  host : Fin 64
  inv : Bool
  sent : Option Nat
  deriving DecidableEq, Repr

/-- What a busy line is held for: a request; the recall of a directory entry, to make room for another line (an eviction) or for
a resize; an atomic operation; or the snoops that a warm reset sends again, with the hosts that get BISnpInv (R194). -/
inductive BusyFor where
  | access (a : Acc)
  | recall
  | atomic (id : Nat)
  | again (inv : BitVec 64)
  deriving DecidableEq, Repr

/-- A busy-line entry (R182): the transaction in progress, whether e4 has served it (its snoops are out), its snoops, and the
transactions queued in order of arrival. `room` is the directory entry that is evicted for the transaction and kept for it (R181). -/
structure Busy where
  cur : BusyFor
  served : Bool
  snoops : List Snoop
  queue : List BusyFor
  room : Option Nat
  deriving DecidableEq, Repr

/-- The steps of an atomic operation (R196): it waits for its line, reads, has read its line (poisoned or not), writes its result, or has its write
accepted. -/
inductive AtomStep where
  | waiting | held | reading | got (d : Line) (bad : Bool) | writing (old : BitVec 64) | wrote (old : BitVec 64)
  deriving DecidableEq, Repr

/-- An operation of the atomic unit: what, where, whose, the epoch and the target its translation chose (R67), and how far (R195-R198). -/
structure Atomic where
  op : AtomOp
  gpa : Nat
  origin : Origin
  epoch : Nat
  tgt : Option Tgt
  step : AtomStep
  deriving DecidableEq, Repr

/-- A contain notice sent and not acknowledged: the host and its switch (R190, R250). -/
structure ContainNote where
  host : Fin 64
  sw : Fin 16
  deriving DecidableEq, Repr

/-- The coherence engine: the directory by set times 4 plus entry, the sets the entry cache holds, the most recently used last, the accesses that wait for a
set's read, the busy lines by line address, accesses that wait for a busy-line entry, suspect directory sets with the
lines already recalled in them, contain notices, hosts retired whose walk runs, the atomic unit's operations, and those that wait
for a place in it or for the end of a hold. -/
structure Coh where
  dir : Tab DirEntry
  cached : List Nat
  setWait : Tab (List BusyFor)
  busy : Tab Busy
  noBusy : List BusyFor
  suspect : List Nat
  suspectAll : Bool
  touched : List Nat
  notes : List ContainNote
  retiring : List (Fin 64)
  atoms : Tab Atomic
  nextAtom : Nat
  atomWait : List AtomReq
  deriving DecidableEq, Repr

/-! ### Millrace (spec 07) -/

/-- A fetched descriptor of a flow (R210) and how far it is: a serial number, its ring index and fields, the WRITE source once it
is read, the bytes cut into packets, the lowest failing byte offset with its code, the bytes done, the
result of an atomic, and the status and DEP bit once it has finished and waits for the earlier ones (R209, R213). -/
structure MDesc where
  sn : Nat
  idx : Nat
  opc : Nat
  fin : Bool
  irq : Bool
  len : Nat
  laddr : Nat
  roff : Nat
  rkey : BitVec 32
  user : Nat
  op1 : BitVec 64
  op2 : BitVec 64
  src : Option (List Byte)
  cut : Nat
  fail : Option (Nat × Nat)
  done : Nat
  result : BitVec 64
  status : Option Nat
  dep : Bool
  deriving DecidableEq, Repr

/-- A packet sent and not ended (R226-R233): its sequence number and descriptor, the place of its first byte in the descriptor and in
the region, its length, payload and requested blocks, the sendings, timer retransmissions and trims in succession, when it was
sent last and the timeout it runs under (ns), since when it meets RETRY, and whether it was sent in DEPARTED mode. The trims in
succession are those of the packet itself at 0, or of the RDATA of each block (R230). -/
structure MPkt where
  seq : Nat
  sn : Nat
  type : MType
  fin : Bool
  off : Nat
  roff : Nat
  len : Nat
  rkey : BitVec 32
  op1 : BitVec 64
  op2 : BitVec 64
  data : List Byte
  blocks : Nat
  sends : Nat
  retries : Nat
  trims : Tab Nat
  sentAt : Nat
  rto : Nat
  rnrSince : Option Nat
  dep : Bool
  deriving DecidableEq, Repr

/-- The rings of a flow (R206-R209): base, log2 size, next entry and the other side's pointer of the submission and completion ring,
the completion vector and the completion phase. -/
structure MRings where
  sqBase : Nat
  sqLog : Nat
  sqHead : Nat
  sqTail : Nat
  cqBase : Nat
  cqLog : Nat
  cqTail : Nat
  cqHead : Nat
  vec : Nat
  phase : Bool
  deriving DecidableEq, Repr

/-- An atomic result kept by a flow (R233): sequence number, status and old value. -/
structure MAtom where
  seq : Nat
  status : Nat
  old : BitVec 64
  deriving DecidableEq, Repr

/-- A flow end that is OPEN or in ERROR (R200-R202): whose it is, its peer, its rings, the descriptors fetched and not completed, the sender
(next sequence number, packets not ended, smoothed times in ns, the descriptors of which a packet completed on departure failed since the
last FLUSH), and the receiver (base, results by sequence number: 0 accepted, 1 ended, else a reject code; the highest UNA received,
the ends since the last ACK, and whether an ACK is due after the delay, R222-R225). `departed` is the completion mode (R235). -/
structure Flow where
  inst : Fin 1024
  slot : Nat
  peerSw : Fin 16
  peerFlow : Nat
  fgen : Nat
  err : Bool
  departed : Bool
  rings : Option MRings
  descs : List MDesc
  nextSn : Nat
  fetching : Bool
  flushAs : Nat
  sndNxt : Nat
  pkts : List MPkt
  srtt : Nat
  rttvar : Nat
  flushFail : List Nat
  rxB : Nat
  rxRes : Tab Nat
  hiUna : Nat
  newEnds : List Nat
  ackDue : Bool
  atoms : List MAtom
  deriving DecidableEq, Repr

/-- A region table entry in use, or damaged (R216). -/
structure Region where
  v : Bool
  closing : Bool
  pool : Bool
  permW : Bool
  permR : Bool
  permA : Bool
  flowr : Bool
  flow : Nat
  inst : Fin 1024
  dmg : Bool
  base : Nat
  len : Nat
  hdr : Option Hdr
  closedAt : Nat
  late : Bool
  deriving DecidableEq, Repr

/-- What an engine waits for: the fetch of a descriptor; the read of a WRITE's source; a placement; the read of a block an RREQ asks
for, at its offset in the region; an atomic operation; the ordering read of a placement that an earlier answer has ended already (R223). `now` says that the packet
was FINAL or RETX (R225). -/
inductive MWork where
  | fetch (idx : Nat)
  | source (sn : Nat)
  | place (seq : Nat) (fin retx : Bool)
  | block (seq : Nat) (seg : Nat) (roff : Nat) (now : Bool)
  | atomic (seq : Nat) (now : Bool)
  | spent
  deriving DecidableEq, Repr

/-- A work item of an engine: its flow with the generation of the end it serves and that end's instance, what it is, the region it counts against (R237), the
bus-master read it needs (address and length), whether that read is issued (R284), and the placements whose writes were issued before it (R223). -/
structure MItem where
  flow : Nat
  fgen : Nat
  inst : Fin 1024
  work : MWork
  region : Option Nat
  bus : Option (Nat × Nat)
  issued : Bool
  behind : List Nat
  deriving DecidableEq, Repr

/-- The event queue of an instance (R242). -/
structure EvQ where
  base : Nat
  log : Nat
  vec : Nat
  head : Nat
  tail : Nat
  phase : Bool
  lost : Nat
  deriving DecidableEq, Repr

/-- Millrace: flow ends and the generation of each number's last use, regions, the generations of their indexes and the free list (the
indexes never used from `nextIx` on but for those a restore took, then the freed ones in order), work items, and the
event queues by instance. -/
structure Mill where
  flows : Tab Flow
  lastGen : Tab Nat
  regions : Tab Region
  gens : Tab Nat
  nextIx : Nat
  taken : List Nat
  freed : List Nat
  items : Tab MItem
  nextItem : Nat
  eqs : Tab EvQ
  deriving DecidableEq, Repr


/-! ### Fabric mode (spec 08) -/

/-- An identity message (R261): fabric ID, switch ID, group and map size. -/
structure IdMsg where
  fabId : BitVec 16
  sw : Fin 16
  grp : Fin 64
  mapGib : BitVec 8
  deriving DecidableEq, Repr

/-- What a fabric link in bring-up has done: the identity message accepted, CRINIT sent and received (R261, R333). -/
structure LinkAdmit where
  identityOk : Bool
  crinitSent : Bool
  crinitRx : Bool
  deriving DecidableEq, Repr

/-- Fabric state that no register holds: the trust list of root digests (R260), by group the advertisement sequence last applied, the
sequence and reach mask last sent, the progress of links in ADMIT and identity messages that came before it, the
destinations whose path-loss notice stands (R256), and the links that entered AUTH, in order, each with whether Headwater authenticates it (R262). -/
structure Fabric where
  trust : List (BitVec 384)
  advRx : Tab Nat
  advTx : Tab Nat
  advMask : Tab Nat
  joining : Tab LinkAdmit
  early : Tab IdMsg
  lostDst : List Nat
  auth : List (Nat × Bool)
  passed : List Nat
  deriving DecidableEq, Repr


/-! ### Host and module ports (spec 09), instances (spec 10) -/

/-- Port state that no register holds. By function (port times 128 plus function): the VFs whose Bus Master Enable is set, the mastered
writes held while a function's BME is 0 (R283-R285), the words of the MSI-X tables and the pending vectors (R272, R284, R296). By
port: the NumVFs in effect (0 while VF Enable is 0, R294), until when configuration requests are answered with Request Retry
Status (R287), the ports whose link the host has disabled, the enumeration step of a module and the MOD_MBOX
commands that wait for its mailbox (R290-R292), and the event records of the CXL mailbox as handle, event and ARG (R280);
the ports to which the strap layout, the image or an accepted write has given a binding (R269, R289); the configuration words of function 0 and the words of the
CXL registers as the host has written them (R274-R277, R281). By group: the step of a mode or
width change or of a power-up (R271, R451). By instance: the tracker entries an instance reset has squashed (R313). -/
structure Ports where
  vfBme : List Nat
  held : Tab (List Out)
  msix : Tab Nat
  msixPend : List Nat
  numVfs : Tab Nat
  rrs : Tab Nat
  linkDis : List Nat
  enumStep : Tab Nat
  mboxWait : Tab (List (Hdr × Nat × List Nat))
  records : Tab (List (Nat × Nat × Nat))
  bound : List Nat
  cfg : Tab Nat
  cxl : Tab Nat
  mboxOut : Tab (Nat × List Nat)
  grpStep : Tab Nat
  squashed : Tab Nat
  deriving DecidableEq, Repr



/-! ### Fabric links (spec 11) and lanes (spec 12) -/

/-- A flit in the Eddy and how often it was retransmitted (R337, R341). -/
structure EddyFlit where
  flit : TxFlit
  retx : Nat
  deriving DecidableEq, Repr

/-- A packet in reception (R327, R345): its fabric header, its content slots accepted and how many they are, and the cells handed to Watersmeet. -/
structure RxPkt where
  hdr : BitVec 128
  data : List (BitVec 128)
  got : Nat
  handed : Nat
  deriving DecidableEq, Repr

/-- A width or rate request (R348): token, width, first lane and rate code. -/
structure Reshape where
  token : Nat
  width : Nat
  base : Nat
  rate : Nat
  deriving DecidableEq, Repr

/-- A retrain that runs (R349, R350): when it began, and the request it serves (none: a degrade). -/
structure Retrain where
  since : Nat
  req : Option Reshape
  swept : Bool
  deriving DecidableEq, Repr

/-- The link layer of a fabric port beside its registers. The sender: reserve credits and cells charged and not returned by class, the
packets charged to the shared pool in order (whether RMAB, cells), the peer's RBMAX, the slots not yet in a flit, the content slots of
the packet in progress still to come and those already counted as delivered, CTRL messages waiting and the one
announced, the Eddy, when an ACK last advanced, and the last replay (its ACK and time). The receiver: whether NAK is set, the announced CTRL
slot, the CTRL messages received and not yet processed, the packet in reception, the cells in the receive pool (class, from its reserve), those of a class that come again
after their credit has gone back, and the limits last advertised, the returns by pool and of CTRL credits, and whether CRINIT has come. A request of ours, a request of the peer's that is granted and whose answer
has not left, a retrain that runs, and the next token. -/
structure FLink where
  cred : Tab Nat
  charged : Tab Nat
  shared : List (Bool × Nat)
  rbMax : Nat
  buf : List TxSlot
  left : Nat
  counted : Nat
  ctrlQ : List (BitVec 128)
  ctrlAnn : Option (BitVec 128)
  ctrlHeld : List (BitVec 128)
  eddy : List EddyFlit
  ackAt : Nat
  replay : Option (Nat × Nat)
  nak : Bool
  rxCt : Nat
  rxCur : Option RxPkt
  rxPool : List (Nat × Bool)
  rxPaid : Tab Nat
  rxRes : Tab Nat
  rxShared : Nat
  ret : Tab Nat
  retCtrl : Nat
  crinit : Bool
  ask : Option Reshape
  grant : Option Reshape
  retrain : Option Retrain
  nextToken : Nat
  deriving DecidableEq, Repr

/-- A lane beside its registers: the scrambler state the receiver predicts from, its place in the current flit portion as a frame begins (R359), the level of
the last marker's last symbol (R361), the data symbols up to the flit boundary that the lanes are lined up to (R359), the unit intervals by which its phase has
wrapped (R368), the markers missed and accepted in succession, whether one has been missed since step 4 of training (R365), whether
the last marker had TEST set, the windows measured in preset selection, the adapted base values (CTLE, thresholds, phase)
and transmit base, whether the equalization procedure of modes H and M has set that base (R373), the user offsets in effect, whether written ones wait for a
marker, whether EV143 has been logged for them (R375, R376), and whether a margining command is active (R359, R364-R378). -/
structure Lane where
  foff : Nat
  tail : Nat
  skip : Nat
  wraps : Int
  broken : Bool
  ofs : Nat
  ofsDue : Bool
  satTold : Bool
  scr : Nat
  missed : Nat
  good : Nat
  test : Bool
  windows : List Nat
  ctle : Nat
  vl : Nat
  vm : Nat
  vh : Nat
  ph : Nat
  pre : Nat
  post : Nat
  eqDone : Bool
  margining : Bool
  deriving DecidableEq, Repr

/-- What a lane of a fabric link sends (R356-R361): the scrambler, the level of the last line symbol and how many have been sent at it, the positions left in
the frame, the data symbols sent of the current flit portion, the line symbols of the frame in progress from its marker
on, the last first, the preset its markers request (R366), and whether they belong to a link test (R370). -/
structure TxLane where
  preq : Option Nat
  test : Bool
  scr : Nat
  level : Nat
  run : Nat
  left : Nat
  foff : Nat
  line : List (Fin 4)
  deriving DecidableEq, Repr

/-- The sending lanes of a fabric link: the first lane of the active block (R348, R356), and the eight lanes in order. -/
structure TxLine where
  base : Nat
  lanes : List TxLane
  deriving DecidableEq, Repr

/-- Fabric links by group, their sending lanes, when their training attempt started, groups whose link test counts as running (R370), and lanes by
path code. -/
structure Links where
  fl : Tab FLink
  tx : Tab TxLine
  train : Tab Nat
  testing : List Nat
  lanes : Tab Lane
  deriving DecidableEq, Repr


/-! ### Slot channels (spec 14) -/

/-- The thermal model of a slot channel (R412, R413): the temperatures of the three poles in K above the ambient, the junction estimate in °C,
and whether it is at or above TJ_WARN. -/
structure SlotHeat where
  t1 : Frac
  t2 : Frac
  t3 : Frac
  tj : Frac
  hot : Bool
  deriving DecidableEq, Repr

/-- Slot channels beside their registers: the thermal model and until when ATTNLED shows a
refusal (R415). -/
structure Slots where
  heat : Tab SlotHeat
  flash : Tab Nat
  deriving DecidableEq, Repr

/-! ### Watershed (spec 15) -/

/-- One entry of the history queue (R433). -/
structure HistEntry where
  time : Nat
  path : Nat
  event : Nat
  level : Nat
  cls : Nat
  esc : Bool
  inj : Bool
  ack : Bool
  queued : Bool
  safe : Bool
  fenced : Bool
  seq : Nat
  supp : Nat
  arg : Nat
  deriving DecidableEq, Repr

/-- One open fault: the history sequence number it was logged with, if it was logged, the path code of the unit that raised it,
and its level (R419, R431). -/
structure OpenFault where
  seq : Option Nat
  unit : Nat
  level : Nat
  deriving DecidableEq, Repr

/-- The open faults of one class in one domain. A domain holds these in the order of raising: the first is active, the next
eight are queued, later ones are held beyond the queue (R430). -/
structure ClassFaults where
  cls : Nat
  level : Nat
  list : List OpenFault
  deriving DecidableEq, Repr

/-- A safe action that a fault of level L2 or L3 has fired and that runs in the sample after detection (R423). -/
structure Fire where
  ev : Nat
  unit : UnitId
  dom : UnitId
  level : Nat
  arg : Nat
  deriving DecidableEq, Repr

/-- Watershed: open faults by the path code of their domain, suppressed counts and last log times for rate limits, the
device safe state, contained ports, fenced units, and the ALIVE wave. -/
structure Watershed where
  faults : Tab (List ClassFaults)
  stamps : Tab Nat
  supp : Tab Nat
  safe : Bool
  contained : List UnitId
  fenced : List UnitId
  fire : List Fire
  aliveOn : Bool
  aliveSince : Nat
  aliveLevel : Bool
  injecting : Bool
  deriving DecidableEq, Repr


/-! ### Power and reset (spec 16) -/

/-- Where a reset is (R444, R454): none runs; cold reset is held; the boot after a reset runs; a warm reset drains the stacks; it is drained and
waits for the rise of RESET_L; Headwater restarts. -/
inductive Phase where
  | run | held | boot | drain | drained
  deriving DecidableEq, Repr

/-- Power and reset beside the registers. The reset that runs, whether it is warm, whether RESET_L is low, the groups whose PERST_L is low (R286), the cause of the cold reset that is held, whether a
Headwater restart runs and the time of a watchdog expiry that the firmware has not logged yet (R436); THERMTRIP_L low, and whether it was so as the cold reset began. The core clock (R446, R448): droop sensors below the warning level and since when one is,
150 MHz steps above 1.2 GHz, and whether the clock steps up. Temperatures by sensor in 0.1 °C, and the sensors at or above
WARN and THROT: 0-15 switch die, 16-19 stacks, 20 slot die. -/
structure Power where
  phase : Phase
  warm : Bool
  resetLow : Bool
  perstLow : List Nat
  src : Nat
  restart : Bool
  expiry : Option Nat
  trip : Bool
  tripped : Bool
  droop : List Nat
  since : Option Nat
  steps : Nat
  rising : Bool
  temps : Tab Int
  warned : List Nat
  throttled : List Nat
  deriving DecidableEq, Repr

/-! ### Headwater (spec 17) -/

/-- A command that waits in Headwater's queue (R465). -/
structure QCmd where
  hdr : Hdr
  cmd : AsrynCmd
  deriving DecidableEq, Repr

/-- A background command that runs (R466): its header, opcode, the unit it targets (none for a device command), and the numbers
its end needs. -/
structure Bg where
  hdr : Hdr
  opcode : Nat
  unit : Option UnitId
  args : List Nat
  deriving DecidableEq, Repr

/-- The rings of a management port (R470): the next command entry to fetch and the tail the manager wrote, the next reply entry
and the head the manager wrote, the PHASE of the lap of the reply ring, and replies that wait for a free slot. -/
structure Ring where
  cNext : Nat
  cTail : Nat
  rTail : Nat
  rHead : Nat
  phase : Bool
  waiting : List Reply
  deriving DecidableEq, Repr

/-- A live activation (R476): its command, the slot, and the step: 0 the slot is verified, 1 the new image loads, 2 both images run; the new image, the
image that ran before, its background commands, and how many commands at the head of the queue are the old one's. -/
structure Activation where
  hdr : Hdr
  slot : Fin 2
  step : Nat
  fw : Fw
  old : Fw
  oldBg : List Bg
  oldQ : Nat
  deriving DecidableEq, Repr

/-- A connection of an SPDM responder (R259, R484): whether the requester has had the capabilities, the algorithms and an answer to CHALLENGE, and the messages it has
sent so far. -/
structure Spdm where
  caps : Bool
  algs : Bool
  challenged : Bool
  log : List Nat
  deriving DecidableEq, Repr

/-- The status of a unit command so far: the most severe code, the first unit that returned it, and the count of units that
returned a code other than success (R30). -/
structure Tally where
  worst : Nat
  first : Nat
  nfail : Nat
  deriving DecidableEq, Repr

/-- A SLOT_CMD whose reply waits for channels in whose SLT_CMD its operation stands in the shadow (R388, R402): its header, those channels, and the result of
the others. -/
structure SlotWait where
  hdr : Hdr
  left : List Nat
  tally : Tally
  deriving DecidableEq, Repr

/-- A POOL_READ or POOL_WRITE that runs (R464), or an access of the debug master to pool memory (no header, R489): whether it reads, its range, the
lines not yet answered, the lines read, and whether one was poisoned or failed. -/
structure PoolCmd where
  hdr : Option Hdr
  read : Bool
  gpa : Nat
  len : Nat
  left : List Nat
  data : Tab Line
  bad : Bool
  deriving DecidableEq, Repr

/-- Headwater: the rings by management port; the flash as bytes that differ from erased ones, with the firmware slot the boot record names and the
configuration slot that is active (R471, R481); the image that runs, the one of the last boot and of the last cold boot, and the live
activation; whether identity is derived (R483, R493); whether the debug master was selected since reset (R489); the I3C dynamic address and
the MCTP endpoint ID (R469); the SPDM connections by responder (numbered as in its messages); and the pool accesses that run: 0 a command's (R464),
1 and 2 the debug master's; and the SLOT_CMD that waits for a crossing. -/
structure Headwater where
  rings : Tab Ring
  flash : Tab Byte
  fwSlot : Fin 2
  cfgSlot : Fin 2
  run : Fw
  boot : Fw
  cold : Fw
  act : Option Activation
  ident : Bool
  dbgSeen : Bool
  addr : Option Nat
  eid : Nat
  spdm : Tab Spdm
  pool : Tab PoolCmd
  slot : Option SlotWait
  deriving DecidableEq, Repr


/-! ### Gauge (spec 18) -/

/-- The gap counter of a sampled ingress and its LFSR (R507). -/
structure SmpGen where
  lfsr : Nat
  count : Nat
  gap : Nat
  deriving DecidableEq, Repr

/-- A sampled transaction that is followed until it ends: what its record holds from its start (R508, R509). -/
structure Sample where
  cell : Cell
  egr : Option XPort
  tIn : Nat
  deriving DecidableEq, Repr

/-- Sampling: the gap counters by crossbar port, the transactions followed, the records given to the Reservoir and not yet
acknowledged, the number of the next record, and whether the ring was half full when its fill was last looked at (R507-R510). -/
structure GaugeSt where
  gens : Tab SmpGen
  samples : Tab Sample
  flight : Nat
  seq : Nat
  half : Bool
  deriving DecidableEq, Repr

/-! ### The whole state -/

/-- The units' own state beside the register store, one part per chapter of the spec. -/
structure Dev where
  io : RegIo
  ws : Watershed
  xlat : Xlat
  mov : Mover
  flood : Flood
  ort : Ort
  rsv : Rsv
  coh : Coh
  mill : Mill
  fab : Fabric
  ports : Ports
  link : Links
  slot : Slots
  pwr : Power
  hw : Headwater
  gau : GaugeSt
  deriving DecidableEq, Repr

/-- The state of the device. `regs` holds every register field that is not at its reset value, by place; `mem` the bytes of
the Reservoir areas that software reads and writes as bytes; `hist` the history queue, oldest first; `out` what was sent
for the last command; `time` the timebase in ns; `fresh` the counter of the free values; `cmdq` Headwater's command queue and `bg` its running
background commands; `pending` the commands that wait. -/
structure State where
  regs : Tab Nat
  mem : List Host.Cell
  hist : List HistEntry
  out : List Out
  time : Nat
  fresh : Nat
  cmdq : List QCmd
  bg : List Bg
  dev : Dev
  pending : List Instr
  deriving DecidableEq, Repr

/-! ### Reset -/

/-- The image of a firmware slot before the first boot: none has run (log entry 9). -/
def Fw.none : Fw := { ver := 0, svn := 0, ucode := [] }

/-- What every unit holds as cold reset releases, beside the registers: nothing is stored, in progress or queued, the device is held in cold
reset after a power-up, one stage buffer is open (R65), region indexes start at 1 (R215), the core clock is at 2.4 GHz (R446) and both
records of the flash name slot 0 (log entry 9). -/
def Dev.cold : Dev where
  io := { low := [], high := [], gauge := [], ruleBase := [], ruleLimit := [], crossing := [], order := [] }
  ws := {
    faults := [], stamps := [], supp := [], safe := false, contained := [], fenced := [], fire := [], aliveOn := false, aliveSince := 0,
    aliveLevel := false, injecting := false }
  xlat := {
    map := [], bad := [], cached := [], hurt := [], misses := [], heldMiss := [], openBuf := some [], queued := none, adv := none,
    heldReply := none, ssets := [] }
  mov := { slots := [], marks := [], hold := none }
  flood := { resUsed := [], shUsed := [], queues := [], egress := [], waiting := [], rr := [], dropRest := [], downX := [] }
  ort := { entries := [], gens := [], notices := [], lostX := [] }
  rsv := {
    ways := [], hint := [], reads := [], nextRead := 0, merge := [], mergeWait := [], suspect := [], suspectAll := false, poison := [],
    resize := none, withdraw := [], scrub := [], lapStart := [], lapWarned := [], rowLogged := [], struck := [], hintHurt := [], selfRefresh := false }
  coh := {
    dir := [], cached := [], setWait := [], busy := [], noBusy := [], suspect := [], suspectAll := false, touched := [], notes := [],
    retiring := [], atoms := [], nextAtom := 0, atomWait := [] }
  mill := {
    flows := [], lastGen := [], regions := [], gens := [], nextIx := 1, taken := [], freed := [], items := [], nextItem := 0, eqs := [] }
  fab := { trust := [], advRx := [], advTx := [], advMask := [], joining := [], early := [], lostDst := [], auth := [], passed := [] }
  ports := {
    vfBme := [], held := [], msix := [], msixPend := [], numVfs := [], rrs := [], linkDis := [], enumStep := [], mboxWait := [],
    records := [], bound := [], cfg := [], cxl := [], mboxOut := [], grpStep := [], squashed := [] }
  link := { fl := [], tx := [], train := [], testing := [], lanes := [] }
  slot := { heat := [], flash := [] }
  pwr := {
    phase := .held, warm := false, resetLow := false, perstLow := [], src := 1, restart := false, expiry := none, trip := false, tripped := false, droop := [],
    since := none, steps := 8, rising := false, temps := [], warned := [], throttled := [] }
  hw := {
    rings := [], flash := [], fwSlot := 0, cfgSlot := 0, run := Fw.none, boot := Fw.none, cold := Fw.none, act := none, ident := false,
    dbgSeen := false, addr := none, eid := 0, spdm := [], pool := [], slot := none }
  gau := { gens := [], samples := [], flight := 0, seq := 0, half := false }

/-- The device after power-up, held in cold reset (R444 step 1): every register field at its reset value, nothing in memory, nothing logged,
and no command waiting. -/
def State.reset : State where
  regs := []
  mem := []
  hist := []
  out := []
  time := 0
  fresh := 0
  cmdq := []
  bg := []
  dev := Dev.cold
  pending := []

/-- Why the device stops with a fault: no row of the table ends so. -/
inductive Fault where
  deriving DecidableEq, Repr

/-- Why a command has no meaning. -/
inductive Refusal where
  /-- The command's meaning is not written: raised by exec's own arm only. Safe: the run stops. -/
  | notModelled (mnemonic : String)
  deriving DecidableEq, Repr

end Sys2Proof.Machine
end

