-- ==== Sys2Proof/Machine/Prog.lean ====
section
/-!
DEFINITION. Machine/Prog.lean: the primitive updates of the state, and programs over them. Every command's meaning is a
program, so what each primitive keeps every command keeps.
-/
namespace Sys2Proof.Machine

/-- The most entries the history queue holds (R433). -/
def histMax : Nat := 32

/-- The most commands Headwater's queue holds (R465). -/
def cmdMax : Nat := 64

/-- The most background commands that run at once (R466). -/
def bgMax : Nat := 32

/-- Store a byte, in the canonical form: rising addresses, and no entry equal to what an unlisted address reads as (zero). -/
def memWrite (m : List Host.Cell) (a : Nat) (b : Byte) : List Host.Cell := Tab.setD m 0 a b

/-- The byte at an address of the Reservoir; an address nothing has written reads as zero (log entry 12). -/
def memRead (m : List Host.Cell) (a : Nat) : Byte := Tab.getD m a 0

/-- The canonical form of memory: addresses strictly rising, and no entry that an unlisted address would read as. -/
def Memory.wf (m : List Host.Cell) : Bool := Tab.wf m && m.all fun e => e.2 != 0

/-- The canonical form of the register store: places strictly rising, and no field holds more than its width. -/
def Regs.wf (r : Tab Nat) : Bool := Tab.wf r && r.all fun e => decide (e.2 < 2 ^ keyWidth e.1)

/-- One primitive update of the state. -/
inductive Eff where
  /-- Store a register field, brought to its width. -/
  | reg (key v : Nat)
  /-- Bring the register fields that a test picks back to their reset values. -/
  | dropRegs (p : Nat → Bool)
  /-- Store a byte of the Reservoir. -/
  | mem (a : Nat) (b : Byte)
  /-- Clear the bytes of the Reservoir that a test picks. -/
  | dropMem (p : Nat → Bool)
  /-- Append an entry to the history queue; the oldest leaves when it is full (R433). -/
  | hist (e : HistEntry)
  /-- Change entries of the history queue in place. -/
  | histMap (f : HistEntry → HistEntry)
  /-- Empty the history queue. -/
  | histClear
  /-- Send something to the outside. -/
  | send (o : Out)
  /-- Start the record of what is sent anew. -/
  | sendClear
  /-- Let the timebase run. -/
  | tick (ns : Nat)
  /-- The timebase starts again from 0 (R394). -/
  | restart
  /-- Use up one free value. -/
  | fresh
  /-- Put a command at the end of Headwater's queue of 64 (R465). -/
  | cmdPush (q : QCmd)
  /-- Take a command out of the queue. -/
  | cmdPop (i : Nat)
  /-- Empty the queue. -/
  | cmdClear
  /-- Start a background command, beside at most 31 others (R466). -/
  | bgPut (b : Bg)
  /-- End the background commands that a test picks. -/
  | bgDrop (p : Bg → Bool)
  /-- Change the units' own state. -/
  | dev (f : Dev → Dev)

/-- What a primitive update does. -/
def Eff.apply : Eff → State → State
  | .reg k v, s => { s with regs := Tab.put s.regs k (v % 2 ^ keyWidth k) }
  | .dropRegs p, s => { s with regs := Tab.keep s.regs fun k _ => !p k }
  | .mem a b, s => { s with mem := memWrite s.mem a b }
  | .dropMem p, s => { s with mem := Tab.keep s.mem fun a _ => !p a }
  | .hist e, s => { s with hist := (s.hist ++ [e]).drop (s.hist.length + 1 - histMax) }
  | .histMap f, s => { s with hist := s.hist.map f }
  | .histClear, s => { s with hist := [] }
  | .send o, s => { s with out := s.out ++ [o] }
  | .sendClear, s => { s with out := [] }
  | .tick n, s => { s with time := s.time + n }
  | .restart, s => { s with time := 0 }
  | .fresh, s => { s with fresh := s.fresh + 1 }
  | .cmdPush q, s => { s with cmdq := (s.cmdq ++ [q]).take cmdMax }
  | .cmdPop i, s => { s with cmdq := s.cmdq.eraseIdx i }
  | .cmdClear, s => { s with cmdq := [] }
  | .bgPut b, s => { s with bg := (s.bg ++ [b]).take bgMax }
  | .bgDrop p, s => { s with bg := s.bg.filter fun b => !p b }
  | .dev f, s => { s with dev := f s.dev }

/-- A program: nothing, a primitive update, one program after another, or a program that looks at the state. -/
inductive Prog where
  | skip
  | eff (e : Eff)
  | seq (p q : Prog)
  | look (f : State → Prog)

/-- What a program does. -/
def Prog.run : Prog → State → State
  | .skip, s => s
  | .eff e, s => e.apply s
  | .seq p q, s => q.run (p.run s)
  | .look f, s => (f s).run s

/-- Programs one after another. -/
def Prog.all : List Prog → Prog
  | [] => .skip
  | p :: ps => .seq p (Prog.all ps)

/-- A program where a condition holds. -/
def Prog.when (b : Bool) (p : Prog) : Prog := if b then p else .skip

/-- One of two programs by a condition. -/
def Prog.cond (b : Bool) (p q : Prog) : Prog := if b then p else q

/-- A program for each element of a list, in order. -/
def Prog.each {α : Type} (l : List α) (f : α → Prog) : Prog := Prog.all (l.map f)

/-- A program for the value of an option, where there is one. -/
def Prog.opt {α : Type} (o : Option α) (f : α → Prog) : Prog :=
  match o with
  | none => .skip
  | some a => f a

/-- A program up to n times, while the state satisfies a condition. -/
def Prog.loop : Nat → (State → Bool) → Prog → Prog
  | 0, _, _ => .skip
  | n + 1, c, p => .look fun s => if c s then .seq p (Prog.loop n c p) else .skip

/-- Send something to the outside. -/
def Prog.send (o : Out) : Prog := .eff (.send o)

/-- Change the units' own state. -/
def Prog.dev (f : Dev → Dev) : Prog := .eff (.dev f)

/-- A program over the next free value. -/
def Prog.free (f : Nat → Prog) : Prog := .look fun s => .seq (.eff .fresh) (f s.fresh)

end Sys2Proof.Machine
end

