-- ==== Sys2Proof/Machine/Flags.lean ====
section
/-!
DEFINITION. Machine/Flags.lean: the event catalogue (R549, R550 and the event tables of the chapters): which events exist,
which units raise them, their level and class, and which are limited to one history entry per millisecond.
-/
namespace Sys2Proof.Machine

/-- Whether the number is an event the device raises (R549). -/
def eventDefined (ev : Nat) : Bool := ev ≤ 2 || (40 ≤ ev && ev ≤ 199 && ev ≠ 171)

/-- The level of an event before escalation (R549); EV169 is L3 for e4, e5 and e7 (R442). -/
def eventLevel (ev : Nat) (u : UnitId) : Nat :=
  if [147, 177, 182].contains ev then 3
  else if ev = 169 then (if u = .engine 4 ∨ u = .engine 5 ∨ u = .engine 7 then 3 else 1)
  else if [58, 78, 79, 113, 132, 134, 137, 148, 151, 154, 158, 159, 160, 162, 167].contains ev then 2
  else if [1, 44, 52, 64, 67, 71, 72, 73, 75, 81, 82, 85, 91, 96, 97, 98, 105, 111, 136, 140, 142, 149, 165, 168, 170,
    178, 181, 186, 192].contains ev then 1
  else 0

/-- The class of a fault (R420, R549); 15 for an event of level L0. -/
def eventClass (ev : Nat) : Nat :=
  if [44, 64, 71, 72, 73, 75, 81, 82, 91].contains ev then 0
  else if [52, 67, 98].contains ev then 1
  else if ev = 58 then 2
  else if [78, 79, 85, 105].contains ev then 3
  else if [111, 113].contains ev then 4
  else if [132, 134, 136, 137, 140, 142].contains ev then 5
  else if [96, 97].contains ev then 6
  else if [147, 148, 149, 151].contains ev then 7
  else if [158, 159, 162, 165].contains ev then 8
  else if ev = 154 then 9
  else if [160, 181, 182].contains ev then 10
  else if [177, 178].contains ev then 11
  else if [168, 169].contains ev then 12
  else if [1, 170, 186, 192].contains ev then 13
  else if ev = 167 then 14
  else 15

/-- Whether a unit of a class raises an event (R549, column Raised by). -/
def eventAt (ev : Nat) (c : UClass) : Bool :=
  eventDefined ev &&
  (if ev ≤ 2 then true
   else if ev ≤ 47 then c = .root || c = .port
   else if ev ≤ 55 then c = .root
   else if ev ≤ 67 then c = .root || c = .port
   else if ev ≤ 77 then c = .stack || c = .pc
   else if ev ≤ 86 then c = .root || c = .port
   else if ev ≤ 94 then c = .engine || c = .inst
   else if ev ≤ 102 then c = .root || c = .port
   else if ev ≤ 117 then c = .group || c = .port
   else if ev ≤ 128 then c = .root || c = .inst
   else if ev ≤ 139 then c = .port
   else if ev ≤ 146 then c = .group || c = .lane
   else if ev ≤ 151 then c = .root || c = .group || c = .port
   else if ev ≤ 166 then c = .slot
   else if ev ≤ 174 then c = .root || c = .group || c = .engine || c = .slot
   else if ev ≤ 195 then c = .root
   else true)

/-- The limit an event shares when its chapter allows one history entry per millisecond; EV041-EV043 share one (R50). -/
def rateGroup (ev : Nat) : Option Nat :=
  if [41, 42, 43].contains ev then some 41
  else if [0, 2, 56, 57, 60, 61, 63, 65, 68, 83, 84, 89, 90, 100, 103, 116, 117, 124, 125, 129, 130, 131, 133, 138, 141,
    146, 175, 176, 185, 196, 198].contains ev then some ev
  else none

/-- Whether an event's limit counts for the whole device and not per unit (R458, R510). -/
def rateDeviceWide (ev : Nat) : Bool := [175, 176, 198].contains ev

/-- The domain kinds' ceilings (R421). -/
def ceiling : UnitId → Nat
  | .slot _ | .port _ | .group _ => 2
  | .root => 3
  | _ => 1

/-- The level of a repeated fault in a domain, by the escalation column (R421, R429). -/
def escalate (dom : UnitId) (lvl : Nat) : Nat :=
  match dom with
  | .slot _ | .port _ | .group _ => if lvl = 1 then 2 else lvl
  | .root => if lvl = 2 then 3 else lvl
  | _ => lvl

end Sys2Proof.Machine
end

