-- ==== Sys2Proof/Machine/Ops.lean ====
section
/-!
DEFINITION. Machine/Ops.lean: the named operations that every chapter uses: reading and setting register fields, the units
that exist, containment domains, Gauge counts, the history queue, raising an event, and the wrap of every command.
-/
namespace Sys2Proof.Machine

/-! ### Registers -/

/-- A register field, entry n of an array. -/
def State.fldn (s : State) (u : UnitId) (f : Fld) (n : Nat) : Nat := Tab.getD s.regs (fkey u f n) (resetOf f n)

/-- A register field. -/
def State.fld (s : State) (u : UnitId) (f : Fld) : Nat := s.fldn u f 0

/-- A one-bit register field as a truth value. -/
def State.flag (s : State) (u : UnitId) (f : Fld) : Bool := s.fld u f != 0

/-- A ring register field of a management port (R277). -/
def State.ring (s : State) (pt : PortId) (f : Fld) : Nat := Tab.getD s.regs (ringKey pt f) (resetOf f 0)

/-- Set a register field, entry n of an array. -/
def Prog.setn (u : UnitId) (f : Fld) (n v : Nat) : Prog := .eff (.reg (fkey u f n) v)

/-- Set a register field. -/
def Prog.set (u : UnitId) (f : Fld) (v : Nat) : Prog := Prog.setn u f 0 v

/-- Set a ring register field. -/
def Prog.setRing (pt : PortId) (f : Fld) (v : Nat) : Prog := .eff (.reg (ringKey pt f) v)

/-- Add to a wrapping count field. -/
def Prog.addn (u : UnitId) (f : Fld) (n k : Nat) : Prog := .look fun s => Prog.setn u f n (s.fldn u f n + k)

/-- Add to a wrapping count field. -/
def Prog.add (u : UnitId) (f : Fld) (k : Nat) : Prog := Prog.addn u f 0 k

/-- Add to a count field that saturates. -/
def Prog.addSat (u : UnitId) (f : Fld) (k : Nat) : Prog :=
  .look fun s => Prog.set u f (min (2 ^ f.w - 1) (s.fld u f + k))

/-- Take a count field down, not below zero. -/
def Prog.sub (u : UnitId) (f : Fld) (k : Nat) : Prog := .look fun s => Prog.set u f (s.fld u f - k)

/-- Raise a field to a value it is below (peaks). -/
def Prog.peak (u : UnitId) (f : Fld) (v : Nat) : Prog := .look fun s => Prog.when (s.fld u f < v) (Prog.set u f v)

/-- Set or clear a one-bit field. -/
def Prog.setB (u : UnitId) (f : Fld) (b : Bool) : Prog := Prog.set u f (b2n b)

/-! ### Which units there are -/

/-- The modes of a group (R23), as GRP_CFG and GRP_STAT number them. -/
inductive Mode where
  | off | h | m | f
  deriving DecidableEq, Repr

/-- The mode a number stands for. -/
def Mode.ofNum : Nat → Mode
  | 1 => .h | 2 => .m | 3 => .f | _ => .off

/-- The mode of a group in effect (GRP_STAT.CUR_MODE). -/
def State.mode (s : State) (g : Fin 64) : Mode := Mode.ofNum (s.fld (.group g) F.GRP_STAT_CUR_MODE)

/-- Whether a group runs as two x4 ports (GRP_STAT.CUR_SPLIT). -/
def State.split (s : State) (g : Fin 64) : Bool := s.flag (.group g) F.GRP_STAT_CUR_SPLIT

/-- Whether a port exists in the current configuration (R6, R24, R542). -/
def State.portExists (s : State) (pt : PortId) : Bool :=
  s.mode pt.g != .off && (pt.p == 0 || (s.split pt.g && s.mode pt.g != .f))

/-- Whether a unit exists in the current configuration (R542). -/
def State.unitExists (s : State) : UnitId → Bool
  | .port pt => s.portExists pt
  | .lane ln => s.portExists ln.port && (decide (ln.l.val < 4) || !s.split ln.port.g || s.mode ln.port.g == .f)
  | _ => true

/-- All port places, p0 before p1, in ascending group order. -/
def allPorts : List PortId := (List.finRange 64).flatMap fun g => [⟨g, 0⟩, ⟨g, 1⟩]

/-- The ports that exist in a mode. -/
def State.portsIn (s : State) (md : Mode) : List PortId := allPorts.filter fun pt => s.portExists pt && s.mode pt.g == md

/-- The slot channel a module port's PRT_MCFG names. -/
def State.mslot (s : State) (pt : PortId) : Fin 64 := ⟨s.fld (.port pt) F.PRT_MCFG_SLOT % 64, Nat.mod_lt _ (by decide)⟩

/-- The port bound to a slot channel (R289): the module port with a binding whose PRT_MCFG names it. The reset value of SLOT gives no binding (log
entry 120). -/
def State.boundPort (s : State) (k : Fin 64) : Option PortId :=
  (s.portsIn .m).find? fun pt => s.dev.ports.bound.contains pt.ix && s.mslot pt == k

/-- Whether a module port is the one bound to its slot. -/
def State.isBound (s : State) (pt : PortId) : Option (Fin 64) :=
  (List.finRange 64).find? fun k => s.boundPort k == some pt

/-- The innermost containment domain that contains a unit (R421). -/
def State.domainOf (s : State) : UnitId → UnitId
  | .lane ln => match s.isBound ln.port with
    | some k => .slot k
    | none => .port ln.port
  | .port pt => match s.isBound pt with
    | some k => .slot k
    | none => .port pt
  | .pc st _ => .stack st
  | .quadrant _ => .root
  | u => u

/-- Whether a unit is fenced (R434, R425, R411): itself, or a unit it lies in. -/
def State.isFenced (s : State) (u : UnitId) : Bool := s.dev.ws.fenced.any fun f => isUnder f u

/-- Whether a unit is fenced or a port or lane of a group that is OFF, so that a command leaves it as it is (R32). -/
def State.unavailable (s : State) (u : UnitId) : Bool := s.isFenced u || !s.unitExists u

/-- Whether a port is contained (R424, R432). -/
def State.isContained (s : State) (pt : PortId) : Bool := s.dev.ws.contained.contains (.port pt)

/-! ### Changing a part of the units' state -/

/-- Change Watershed. -/
def Prog.ws (f : Watershed → Watershed) : Prog := Prog.dev fun d => { d with ws := f d.ws }
/-- Change the Floodplain. -/
def Prog.flood (f : Flood → Flood) : Prog := Prog.dev fun d => { d with flood := f d.flood }
/-- Change the tracker. -/
def Prog.ort (f : Ort → Ort) : Prog := Prog.dev fun d => { d with ort := f d.ort }
/-- Change the fabric state. -/
def Prog.fab (f : Fabric → Fabric) : Prog := Prog.dev fun d => { d with fab := f d.fab }

/-- Change the register access state. -/
def Prog.io (f : RegIo → RegIo) : Prog := Prog.dev fun d => { d with io := f d.io }
/-- A write to another register, or a whole write, discards the low half that a master holds (R9). -/
def dropHeld (m : Master) : Prog := Prog.io fun i => { i with low := i.low.filter fun h => h.master != m }
/-- Change translation. -/
def Prog.xlat (f : Xlat → Xlat) : Prog := Prog.dev fun d => { d with xlat := f d.xlat }
/-- Change the data mover. -/
def Prog.mov (f : Mover → Mover) : Prog := Prog.dev fun d => { d with mov := f d.mov }
/-- Change the Reservoir. -/
def Prog.rsv (f : Rsv → Rsv) : Prog := Prog.dev fun d => { d with rsv := f d.rsv }
/-- Change the coherence engine. -/
def Prog.coh (f : Coh → Coh) : Prog := Prog.dev fun d => { d with coh := f d.coh }

/-- Change Millrace. -/
def Prog.mill (f : Mill → Mill) : Prog := Prog.dev fun d => { d with mill := f d.mill }
/-- Change the ports' state. -/
def Prog.ports (f : Ports → Ports) : Prog := Prog.dev fun d => { d with ports := f d.ports }
/-- Change the fabric links and lanes. -/
def Prog.link (f : Links → Links) : Prog := Prog.dev fun d => { d with link := f d.link }
/-- Change the slot channels. -/
def Prog.slot (f : Slots → Slots) : Prog := Prog.dev fun d => { d with slot := f d.slot }
/-- Change power and reset. -/
def Prog.pwr (f : Power → Power) : Prog := Prog.dev fun d => { d with pwr := f d.pwr }
/-- Change Headwater. -/
def Prog.hw (f : Headwater → Headwater) : Prog := Prog.dev fun d => { d with hw := f d.hw }

/-- Change Gauge. -/
def Prog.gau (f : GaugeSt → GaugeSt) : Prog := Prog.dev fun d => { d with gau := f d.gau }

/-! ### Gauge counts (R496-R498, R500) -/

/-- Whether a code is a volume code, which chains two counters (R496, R497). -/
def isVolume (code : Nat) : Bool := 1 ≤ code && code ≤ 7

/-- Whether counter j of a unit counts an occurrence of a code, for a class and an event number (R496, R497). -/
def State.gaugeHit (s : State) (u : UnitId) (j code : Nat) (cls : Option Cls) (ev : Nat) : Bool :=
  s.fldn u F.GAU_EVSEL_EN j == 1 && s.fldn u F.GAU_EVSEL_CODE j == code
    && (j % 2 == 0 || !(s.fldn u F.GAU_EVSEL_EN (j - 1) == 1 && isVolume (s.fldn u F.GAU_EVSEL_CODE (j - 1))))
    && (match cls with
      | none => true
      | some c => s.fldn u F.GAU_EVSEL_CLSMASK j == 0 || bitOf (s.fldn u F.GAU_EVSEL_CLSMASK j) c.num)
    && (code != 0x40 || s.fldn u F.GAU_EVSEL_EVNUM j == 511 || s.fldn u F.GAU_EVSEL_EVNUM j == ev)

/-- Count in counter j: an event counter wraps at 48 bits and sets its overflow bit, a chained pair wraps at 96 bits and sets
both (R497, R498). -/
def gaugeAdd (u : UnitId) (j code n : Nat) : Prog := .look fun s =>
  if isVolume code then
    let v := s.fldn u F.GAU_CNT_COUNT j + s.fldn u F.GAU_CNT_COUNT (j + 1) * 2 ^ 48 + n
    Prog.all [Prog.setn u F.GAU_CNT_COUNT j v, Prog.setn u F.GAU_CNT_COUNT (j + 1) (v / 2 ^ 48),
      Prog.when (v ≥ 2 ^ 96) (Prog.set u F.GAU_OVF_OVF (s.fld u F.GAU_OVF_OVF ||| (3 * 2 ^ j)))]
  else
    let v := s.fldn u F.GAU_CNT_COUNT j + n
    Prog.all [Prog.setn u F.GAU_CNT_COUNT j v,
      Prog.when (v ≥ 2 ^ 48) (Prog.set u F.GAU_OVF_OVF (s.fld u F.GAU_OVF_OVF ||| 2 ^ j))]

/-- Count an occurrence at a unit in every counter that selects it, unless the unit is frozen (R496, R500). -/
def gaugeCount (u : UnitId) (code : Nat) (cls : Option Cls) (ev n : Nat) : Prog := .look fun s =>
  Prog.when (!s.flag u F.GAU_CTL_FREEZE)
    (Prog.each (List.range 8) fun j => .look fun t => Prog.when (t.gaugeHit u j code cls ev) (gaugeAdd u j code n))

/-- Add to a slot account of a unit (0 DELIV, 1 WASTE, 2 STARV, 3 BLOCK), unless the unit is frozen (R500, R505). -/
def slotAdd (u : UnitId) (m n : Nat) : Prog := .look fun s =>
  Prog.when (!s.flag u F.GAU_CTL_FREEZE && decide (n > 0)) (Prog.addn u F.GAU_SLOT_COUNT m n)

/-- Move slots counted as delivered to the wasted ones (R506). -/
def slotWaste (u : UnitId) (n : Nat) : Prog := .look fun s =>
  let k := min n (s.fldn u F.GAU_SLOT_COUNT 0)
  Prog.when (!s.flag u F.GAU_CTL_FREEZE && decide (k > 0))
    (Prog.seq (Prog.setn u F.GAU_SLOT_COUNT 0 (s.fldn u F.GAU_SLOT_COUNT 0 - k)) (Prog.addn u F.GAU_SLOT_COUNT 1 k))

/-! ### History and events -/

/-- One millisecond of the timebase. -/
def msNs : Nat := 1000000

/-- Whether a history sequence number names an open fault. -/
def State.openSeq (s : State) (q : Nat) : Bool :=
  s.dev.ws.faults.any fun e => e.2.any fun c => c.list.any fun f => f.seq == some q

/-- Append an entry to the history queue under the next sequence number; when the entry it overwrites holds an open fault, count
it and log EV173 at the root, which may overwrite in turn (R433). -/
def histAppend : Nat → HistEntry → Prog
  | 0, _ => .skip
  | n + 1, e => .look fun s =>
    let q := s.fld .root F.DEV_WS_HEAD_NEXT_SEQ
    let ovw := match s.hist with
      | [] => false
      | o :: _ => s.hist.length ≥ histMax && s.openSeq o.seq
    Prog.all [.eff (.hist { e with seq := q, time := s.time }), Prog.set .root F.DEV_WS_HEAD_NEXT_SEQ (q + 1),
      Prog.when ovw (Prog.all [Prog.add .root F.DEV_WS_HEAD_OVW 1, gaugeCount .root 0x40 none 173 1,
        histAppend n {
          path := pathCode .root, event := 173, level := 0, cls := 15, esc := false, inj := false, ack := false,
          queued := false, safe := false, fenced := false, supp := 0, arg := 0, seq := 0, time := 0 }])]

/-- How an event is filed: level after escalation, whether a fault of its class was open or its domain's queue full, whether it
queues behind another class, and whether its rate limit keeps it out of the history queue (R429, R430). -/
structure Filing where
  dom : UnitId
  level : Nat
  cls : Nat
  esc : Bool
  queued : Bool
  logged : Bool
  deriving DecidableEq, Repr

/-- The key of an event's limit or suppressed count at a unit. -/
def stampKey (ev : Nat) (u : UnitId) : Nat := ev * 2 ^ 32 + pathCode u

/-- The unit that an event's rate limit is kept for: EV090 of an instance, which no engine raises, shares the limit of e0 (R244, log entry 133). -/
def limitUnit (ev : Nat) (u : UnitId) : UnitId := if rateDeviceWide ev then .root else match u with
  | .inst _ => if ev = 90 then .engine 0 else u
  | _ => u

/-- The place where an event's rate limit is kept. -/
def limitKey (ev : Nat) (u : UnitId) : Nat := stampKey ((rateGroup ev).getD ev) (limitUnit ev u)

/-- How an event at a unit is filed, its rate limit kept at a given place. -/
def State.filing (s : State) (ev : Nat) (u : UnitId) (lk : Nat) : Filing :=
  let dom := s.domainOf u
  let base := eventLevel ev u
  let cls := eventClass ev
  let open_ := Tab.getD s.dev.ws.faults (pathCode dom) []
  let same := open_.find? fun c => c.cls == cls
  let full := open_.length ≥ 9
  let isFault := base != 0
  let esc := isFault && (same.isSome || full)
  let level := if !isFault then 0 else if same.isSome then escalate dom base else if full then max base (ceiling dom) else base
  let queued := isFault && (match same with
    | some c => open_.head? != some c
    | none => !open_.isEmpty)
  let limited := match rateGroup ev with
    | none => false
    | some _ => match Tab.get? s.dev.ws.stamps lk with
      | none => false
      | some t => s.time < t + msNs
  { dom, level, cls, esc, queued, logged := esc || !limited }

/-- The open faults of a domain with one more (R430). -/
def fileFault (l : List ClassFaults) (cls lvl : Nat) (f : OpenFault) : List ClassFaults :=
  if l.any (fun c => c.cls == cls) then
    l.map fun c => if c.cls == cls then { c with level := max c.level lvl, list := c.list ++ [f] } else c
  else l ++ [{ cls, level := lvl, list := [f] }]

/-- Whether an event fences its unit (R411, R425, R434). -/
def eventFences (ev lvl : Nat) : Bool := ev = 162 || ev = 167 || (ev = 169 && lvl = 1)

/-- Whether a safe action fires for a fault of a level in a domain (R424, R426): for L3, for L2 in a slot, port or group domain, and for the stall of an internal
port. -/
def safeActs (dom : UnitId) (ev lvl : Nat) : Bool := decide (3 ≤ lvl) || (decide (2 ≤ lvl) && (ev == 58 || match dom with
  | .slot _ | .port _ | .group _ => true
  | _ => false))

/-- Raise an event at a unit: count it, file it, log it unless its rate limit keeps it out, open it as a fault in its domain,
and fire the safe action of its level (R418, R419, R423, R427, R429, R430, R433). The wrap of a counter raises EV196
(R498). -/
def raiseCore (ev : Nat) (u : UnitId) (lk arg : Nat) : Prog := .look fun s =>
  let fl := s.filing ev u lk
  let seq := s.fld .root F.DEV_WS_HEAD_NEXT_SEQ
  let supp := Tab.getD s.dev.ws.supp (stampKey ev u) 0
  let acting := fl.level != 0 && !s.dev.ws.safe
  Prog.all [
    Prog.when fl.logged (Prog.all [
      Prog.ws fun w => { w with
        stamps := if (rateGroup ev).isSome then Tab.put w.stamps lk s.time else w.stamps,
        supp := Tab.erase w.supp (stampKey ev u) },
      histAppend 33 {
        time := 0, path := pathCode fl.dom, event := ev, level := fl.level, cls := fl.cls, esc := fl.esc,
        inj := s.dev.ws.injecting, ack := false, queued := fl.queued, safe := acting && safeActs fl.dom ev fl.level,
        fenced := acting && eventFences ev (eventLevel ev u), seq := 0, supp := supp % 2 ^ 32, arg := arg % 2 ^ 64 }]),
    Prog.when (!fl.logged) (Prog.ws fun w => { w with supp := Tab.put w.supp (stampKey ev u) (supp + 1) }),
    Prog.when (fl.level != 0) (Prog.ws fun w => { w with
      faults := Tab.put w.faults (pathCode fl.dom) (fileFault (Tab.getD w.faults (pathCode fl.dom) []) fl.cls fl.level
        { seq := if fl.logged then some seq else none, unit := pathCode u, level := fl.level }) }),
    Prog.when (acting && decide (fl.level ≥ 2)) (Prog.ws fun w => { w with
      fire := w.fire ++ [{ ev, unit := u, dom := fl.dom, level := fl.level, arg }] })]

/-- The events that a host port's mailbox relays to its host (R280). -/
def relayed (ev : Nat) : Bool := ev = 41 || ev = 42 || ev = 124

/-- Keep an event as a record for the host of a port (R280). -/
def relayEvent (ev : Nat) (u : UnitId) (arg : Nat) : Prog :=
  match u with
  | .port pt => Prog.when (relayed ev) (Prog.ports fun p =>
      let l := Tab.getD p.records pt.ix []
      let n := match l.getLast? with
        | some r => r.1 + 1
        | none => 1
      { p with records := Tab.put p.records pt.ix (l ++ [(n, ev, arg)]) })
  | _ => .skip

/-- Whether counting at a unit has wrapped an event counter or a chained pair: a counter fell that is not the low one of a pair (R498). -/
def State.wrapped (s t : State) (u : UnitId) : Bool := (List.range 8).any fun j =>
  decide (t.fldn u F.GAU_CNT_COUNT j < s.fldn u F.GAU_CNT_COUNT j)
    && !(j % 2 == 0 && s.fldn u F.GAU_EVSEL_EN j == 1 && isVolume (s.fldn u F.GAU_EVSEL_CODE j))

/-- Raise an event at a unit, with its count under Gauge code 0x40 (R496) and the overflow event of a counter that wraps
(R498). -/
def raiseLim (ev : Nat) (u : UnitId) (lk arg : Nat) : Prog := .look fun s =>
  Prog.all [gaugeCount u 0x40 none ev 1, raiseCore ev u lk arg, relayEvent ev u arg,
    .look fun t => Prog.when (s.wrapped t u) (raiseCore 196 u (limitKey 196 u) 0)]

/-- Raise an event at a unit, its rate limit kept per unit. -/
def raise (ev : Nat) (u : UnitId) (arg : Nat) : Prog := raiseLim ev u (limitKey ev u) arg

/-- Count an occurrence at a unit; a counter that wraps raises EV196 (R496, R498). -/
def gauge (u : UnitId) (code : Nat) (cls : Option Cls) (n : Nat) : Prog := .look fun s =>
  Prog.all [gaugeCount u code cls 0 n,
    .look fun t => Prog.when (s.wrapped t u) (raise 196 u 0)]

/-! ### The wrap of a command -/

/-- A command whose program raises no fault: the record of what is sent starts anew, and the program runs. -/
def quiet (p : Prog) (s : State) : Host.Outcome State Fault Refusal :=
  .next ((Prog.seq (.eff .sendClear) p).run s)

end Sys2Proof.Machine
end

