-- ==== Sys2Proof/Machine/RegOps.lean ====
section
/-!
DEFINITION. Machine/RegOps.lean: what a write stores into the fields of a register, by access code and range (R10, R11, R14, R551),
and the value a register reads from its stored fields.
-/
namespace Sys2Proof.Machine

/-- A field's part of a register value. -/
def Fld.part (f : Fld) (v : Nat) : Nat := v / 2 ^ f.lo % 2 ^ f.w

/-- The value a field takes when one is written to it: outside its range it takes the nearer end (R551). -/
def Fld.bring (f : Fld) (v : Nat) : Nat :=
  match f.lim with
  | .clamp lo hi => max lo (min hi v)
  | .code ac lc => min v (if Config.lidless then lc else ac)
  | .clampS m => unsigned f.w (max (-(m : Int)) (min (m : Int) (signed f.w v)))
  | _ => v

/-- Whether a written value places no reserved encoding in a field (R14). -/
def Fld.legal (f : Fld) (v : Nat) : Bool :=
  match f.lim with
  | .legal top => decide (v ≤ top)
  | _ => true

/-- The registers of a class under one name. -/
def regSpec (c : UClass) (id : RegId) : RegSpec :=
  ((regsOf c).find? fun r => r.id == id).getD { id, off := 0, stride := 0, count := 0, wide := false, fields := [] }

/-- Where an offset lies in a register's place or its array: the entry, and the byte in it. -/
def RegSpec.hit (r : RegSpec) (off : Nat) : Option (Nat × Nat) :=
  let size := if r.wide then 8 else 4
  if off < r.off then none
  else if r.stride = 0 then (if off - r.off < size then some (0, off - r.off) else none)
  else if (off - r.off) / r.stride < r.count ∧ (off - r.off) % r.stride < size then
    some ((off - r.off) / r.stride, (off - r.off) % r.stride)
  else none

/-- Whether a write to a register places no reserved encoding. -/
def regLegal (r : RegSpec) (v : Nat) : Bool := r.fields.all fun f =>
  !([RegAcc.rw, RegAcc.rwl].contains f.acc) || f.legal (f.part v)

/-- Store a written value into one field by its access code (R11): RO, RC and WO fields keep what they hold; a locked RWL field
is the caller's to refuse. -/
def fldStore (u : UnitId) (n v : Nat) (f : Fld) : Prog :=
  match f.acc with
  | .rw | .rwl => Prog.setn u f n (f.bring (f.part v))
  | .w1s => .look fun s => Prog.setn u f n (s.fldn u f n ||| f.part v)
  | .w1c => .look fun s => Prog.setn u f n (s.fldn u f n ^^^ (s.fldn u f n &&& f.part v))
  | _ => .skip

/-- Store a written value into the fields of a register, entry n of an array. -/
def regStore (u : UnitId) (id : RegId) (n v : Nat) : Prog := Prog.each (regSpec (unitClass u) id).fields (fldStore u n v)

/-- The field a key of the register store stands for: its unit, register and bits. -/
def keyField (k : Nat) : Option (UnitId × Fld) :=
  match unitAt (k / 4096) with
  | none => none
  | some (u, off) =>
    let hit := fun (r : RegSpec) => decide (r.off ≤ off) && (if r.count = 0 then off == r.off
      else (off - r.off) % r.stride == 0 && decide ((off - r.off) / r.stride < r.count))
    match (regsOf (unitClass u)).find? fun r => hit r && r.fields.any fun f => f.lo == k / 64 % 64 && f.w == k % 64 + 1 with
    | none => none
    | some r => (r.fields.find? fun f => f.lo == k / 64 % 64 && f.w == k % 64 + 1).map fun f => (u, f)

/-- Bring the fields that a test picks back to their reset values. -/
def clearFields (p : UnitId → Fld → Bool) : Prog := .eff (.dropRegs fun k => match keyField k with
  | some (u, f) => p u f
  | none => false)

/-- Clear the class U fields of one unit (R15). -/
def clearU (u : UnitId) : Prog := clearFields fun v f => v == u && f.keep == .U

/-- The fields of class U that a unit reset leaves as they are: the current state of a lane, which the lane reports again (R552). -/
def resetKeeps (f : Fld) : Bool := f.reg == .LN_STAT

/-- The class U fields of a unit and its descendants clear (R453, R457). -/
def clearTree (u : UnitId) : Prog := clearFields fun v f => isUnder u v && f.keep == .U && !resetKeeps f

/-- The value of a register from its stored fields; a WO field reads zero (R10, R11). -/
def State.regStored (s : State) (u : UnitId) (r : RegSpec) (n : Nat) : Nat :=
  (r.fields.map fun f => if f.acc = .wo then 0 else s.fldn u f n * 2 ^ f.lo).sum

end Sys2Proof.Machine
end

