-- ==== Sys2Proof/Machine/Operands.lean ====
section
/-!
DEFINITION. Machine/Operands.lean: the forms addresses and fields take: map entry words (R47, R48), stripe sets (R55), cache, directory
and poison-list places (R143, R147, R166, R167, R178), extent-cache sets (R58), and the Levee's identities and rules (R314-R318).
-/
namespace Sys2Proof.Machine

/-! ### Map entries -/

/-- A target descriptor read from its 48 bits; none for a reserved KIND (R48). -/
def tgtOfNum (v : Nat) : Option Tgt :=
  match bits v 2 0 with
  | 1 => some (.module ⟨bits v 10 4 % 128, Nat.mod_lt _ (by decide)⟩ (bits v 32 12))
  | 2 => some (.stripe ⟨(bits v 11 4 + bits v 15 12 * 2 ^ 8) % 4096, Nat.mod_lt _ (by decide)⟩ (bits v 39 16))
  | 3 => some (.pinned (bits v 19 4))
  | _ => none

/-- A target descriptor as its 48 bits (R48). -/
def tgtNum : Tgt → Nat
  | .module m d => 1 + m.val * 2 ^ 4 + d % 2 ^ 21 * 2 ^ 12
  | .stripe n o => 2 + n.val % 2 ^ 8 * 2 ^ 4 + n.val / 2 ^ 8 * 2 ^ 12 + o % 2 ^ 24 * 2 ^ 16
  | .pinned u => 3 + u % 2 ^ 16 * 2 ^ 4

/-- The entry of an extent that no map entry names: UNMAPPED (R47, R73). -/
def MapEntry.unmapped : MapEntry := { type := .unmapped, home := 0, tgtA := none, tgtB := none, trk := 0 }

/-- A map entry read from its 16 bytes; none for a reserved TYPE, or, where `kinds` says of its HOME that the targets are looked at, for a reserved
KIND of a target in use (R47, R57). -/
def MapEntry.ofNum (v : Nat) (kinds : Fin 16 → Bool) : Option MapEntry :=
  let home : Fin 16 := ⟨bits v 7 4 % 16, Nat.mod_lt _ (by decide)⟩
  let a := tgtOfNum (bits v 63 16)
  let b := tgtOfNum (bits v 111 64)
  let trk : Fin 65536 := ⟨bits v 127 112 % 65536, Nat.mod_lt _ (by decide)⟩
  match bits v 2 0 with
  | 0 => some { type := .unmapped, home, tgtA := none, tgtB := none, trk := 0 }
  | 1 => if kinds home ∧ a = none then none else some { type := .mapped, home, tgtA := a, tgtB := none, trk := 0 }
  | 2 => if kinds home ∧ (a = none ∨ b = none) then none else some { type := .moving, home, tgtA := a, tgtB := b, trk }
  | _ => none

/-- A map entry as its 16 bytes (R47), with PSN as the poison list has it (R53). -/
def MapEntry.toNum (e : MapEntry) (psn : Bool) : Nat :=
  (match e.type with | .unmapped => 0 | .mapped => 1 | .moving => 2) + e.home.val * 2 ^ 4 + b2n psn * 2 ^ 8
    + (match e.tgtA with | none => 0 | some t => tgtNum t) * 2 ^ 16
    + (match e.tgtB with | none => 0 | some t => tgtNum t) * 2 ^ 64
    + e.trk.val * 2 ^ 112

/-- The cache set of the extent cache (R58). -/
def xcSet (x : Nat) : Nat := (x % 2 ^ 14) ^^^ (x / 2 ^ 14 % 2 ^ 14)

/-- The member and module address of a STRIPE access (R55). -/
def Sset.place (t : Sset) (soff gpa : Nat) : Option (Fin 128 × Nat) :=
  let w := t.members.length
  let g := gpa / 2 ^ 12 % 2 ^ 9
  (t.members[g % w]?).map fun m =>
    (m.1, m.2 * 2 ^ 21 + soff * (2 ^ 21 / w) + g / w * 2 ^ 12 + gpa % 2 ^ 12)

/-! ### Reservoir places -/

/-- The sets of the memory-side cache (R147). -/
def State.nsets (s : State) : Nat := s.fld .root F.DEV_RSV_PART_CACHE_GIB * 2 ^ 30 / 1024

/-- The cache set of a line address (R147). -/
def State.cacheSet (s : State) (la : Nat) : Nat := ((la % 2 ^ 27) ^^^ (la / 2 ^ 27 % 2 ^ 17)) % s.nsets

/-- The stack that holds a cache set (R147). -/
def setStack (set : Nat) : Fin 4 := ⟨set % 8 / 2, by omega⟩

/-- The pseudo-channel that holds a way of a cache set (R147). -/
def wayPc (set way : Nat) : UnitId :=
  .pc (setStack set) ⟨(set % 2 * 16 + way % 16) % 32, Nat.mod_lt _ (by decide)⟩

/-- The hint set and hint tag place of a cache set (R149). -/
def hintSet (set : Nat) : Nat := set % 2 ^ 14

/-- The sets of the directory (R178). -/
def State.dirSets (s : State) : Nat := s.fld .root F.DEV_RSV_PART_DIR_GIB * 16777216

/-- The directory set of a line address (R178). -/
def State.dirSet (s : State) (la : Nat) : Nat := ((la % 2 ^ 28) ^^^ (la / 2 ^ 28 % 2 ^ 16)) % s.dirSets

/-- The pseudo-channel and the offset of a byte of the state, map or directory region (R143). -/
def regionPc (o : Nat) : UnitId :=
  let n := o / 256 % 128
  .pc ⟨n % 4, Nat.mod_lt _ (by decide)⟩ ⟨n / 4 % 32, Nat.mod_lt _ (by decide)⟩

/-- The first bucket of an extent's probe window (R167). -/
def psnBucket (x : Nat) : Nat := x * 0x9E3779B1 % 2 ^ 32 / 2 ^ 11

/-- The places of an extent's probe window in order: sixteen buckets of four entries (R166, R167). -/
def psnWindow (x : Nat) : List Nat :=
  (List.range 16).flatMap fun i => (List.range 4).map fun j => (psnBucket x + i) % 2097152 * 4 + j

/-- The stack that holds a poison-list bucket of copy A (R143, R166). -/
def psnStack (bucket : Nat) : UnitId :=
  .stack ⟨(0x90000000 + bucket * 64) / 256 % 128 % 4, Nat.mod_lt _ (by decide)⟩

/-- The cache places of a Reservoir-pinned unit's line: set and way (R157). -/
def pinnedPlace (unit line : Nat) : Nat × Nat := (unit * 2048 + line % 2048, line / 2048)

/-- The key of a way. -/
def wayKey (set way : Nat) : Nat := set * 16 + way

/-! ### The Levee -/

/-- The identity kinds of the Levee (R314). -/
inductive LevKind where
  | hostPort | inst | engine | debug
  deriving DecidableEq, Repr

/-- The number of an identity kind (R314). -/
def LevKind.num : LevKind → Nat
  | .hostPort => 0 | .inst => 1 | .engine => 2 | .debug => 3

/-- The permissions (R317). -/
inductive Perm where
  | r | w | a
  deriving DecidableEq, Repr

/-- This switch's ID (R245). -/
def State.swid (s : State) : Fin 16 := ⟨s.fld .root F.DEV_FAB_ID_SWID % 16, Nat.mod_lt _ (by decide)⟩

/-- The identity of a host port (R314). -/
def State.hostIdent (s : State) (pt : PortId) : Nat := s.swid.val * 2 ^ 12 + pt.p.val * 2 ^ 7 + pt.g.val

/-- The identity of an instance (R314). -/
def State.instIdent (s : State) (i : Fin 1024) : Nat := s.swid.val * 2 ^ 12 + i.val

/-- The identity of an engine, or of Headwater as engine 8 (R314). -/
def State.engIdent (s : State) (e : Nat) : Nat := s.swid.val * 2 ^ 12 + e % 16

/-- The enabled rules in rising order of number (R315). -/
def State.rules (s : State) : List Nat :=
  s.regs.filterMap fun e =>
    let a := e.1 / 4096
    if e.1 % 4096 = 41 * 64 ∧ e.2 = 1 ∧ 0x20010 ≤ a ∧ a < 0x20010 + 4096 * 32 ∧ (a - 0x20010) % 32 = 0 then
      some ((a - 0x20010) / 32) else none

/-- Whether a rule matches an access (R315). -/
def State.ruleMatches (s : State) (n : Nat) (k : LevKind) (ident space page : Nat) : Bool :=
  let m := s.fldn .root F.LEV_RULE_CTL_ID_MASK n
  s.fldn .root F.LEV_RULE_CTL_SPACE n == space && s.fldn .root F.LEV_RULE_CTL_KIND n == k.num
    && (ident &&& m) == (s.fldn .root F.LEV_RULE_CTL_ID n &&& m)
    && decide (s.fldn .root F.LEV_RULE_BASE_BASE_PG n ≤ page) && decide (page ≤ s.fldn .root F.LEV_RULE_LIMIT_LIMIT_PG n)

/-- The Levee's answer: denied, allowed, or allowed under a rule that logs (R316). -/
inductive Verdict where
  | deny | allow | log (rule : Nat)
  deriving DecidableEq, Repr

/-- The Levee's decision on an access: the lowest-numbered matching rule decides (R316). -/
def State.levee (s : State) (k : LevKind) (ident space addr : Nat) (p : Perm) : Verdict :=
  match s.rules.find? fun n => s.ruleMatches n k ident space (addr / 4096) with
  | none => .deny
  | some n =>
    let perm := match p with
      | .r => s.fldn .root F.LEV_RULE_CTL_R n
      | .w => s.fldn .root F.LEV_RULE_CTL_W n
      | .a => s.fldn .root F.LEV_RULE_CTL_A n
    if s.fldn .root F.LEV_RULE_CTL_ACTION n = 0 ∨ perm = 0 then .deny
    else if s.fldn .root F.LEV_RULE_CTL_ACTION n = 2 then .log n
    else .allow

/-- Pass an access through the Levee: a denial is counted and logged once per identity and millisecond, an allowed access under
ACTION 2 is counted and logged once per rule and millisecond (R316, R319). -/
def leveeCheck (k : LevKind) (ident space addr : Nat) (p : Perm) (u : UnitId) (denied allowed : Prog) : Prog := .look fun s =>
  match s.levee k ident space addr p with
  | .deny => Prog.all [Prog.add .root F.LEV_CNT_DENIED 1,
      raiseLim 124 u (124 * 2 ^ 32 + 2 ^ 31 + k.num * 2 ^ 16 + ident) (addr / 4096), denied]
  | .allow => allowed
  | .log n => Prog.all [Prog.add .root F.LEV_CNT_LOGGED 1, raiseLim 125 u (125 * 2 ^ 32 + 2 ^ 31 + n) n, allowed]

/-- The TYPE number of a packet (R220). -/
def mtypeNum : MType → Nat
  | .wdata => 1 | .rreq => 2 | .rdata => 3 | .atomic => 4 | .arsp => 5 | .ack => 6 | .trim => 7 | .abort => 8

/-- The content of a trim notice (R114, R219): the header of the trimmed packet, with the TYPE of a trim in byte 0 and the packet's own in byte 11. -/
def trimContent (m : MHdr) (v : BitVec 1024) : BitVec 1024 :=
  let h := v.toNat % 2 ^ 512
  BitVec.ofNat 1024 (h / 2 ^ 96 * 2 ^ 96 + mtypeNum m.type * 2 ^ 88 + h / 2 ^ 4 % 2 ^ 84 * 2 ^ 4 + mtypeNum .trim)

end Sys2Proof.Machine
end

