-- ==== Sys2Proof/Machine/RouteOps.lean ====
section
/-!
DEFINITION. Machine/RouteOps.lean: which egress a cell takes through the fabric (R248-R253), and the places and units that a
requester stands for.
-/
namespace Sys2Proof.Machine

/-- The groups of a mask in ascending order. -/
def maskGroups (m : Nat) : List (Fin 64) := (List.finRange 64).filter fun g => bitOf m g.val

/-- The members of the effective set of a destination (R248). -/
def State.members (s : State) (d : Fin 16) : List (Fin 64) := maskGroups (s.fldn .root F.DEV_FAB_EFF_MEMBERS d.val)

/-- The crossbar port of a fabric group. -/
def groupX (g : Fin 64) : XPort := (PortId.mk g 0).x

/-- The key of an egress class queue. -/
def qKey (x : XPort) (c : Cls) : Nat := x.key * 8 + c.num

/-- The cells a packet counts for: those held, and those of a bulk packet that are admitted and have not arrived (R109). -/
def Pkt.size (p : Pkt) : Nat := p.held.length + p.owed

/-- The cells an egress class queue holds. -/
def State.queueCells (s : State) (x : XPort) (c : Cls) : Nat :=
  ((Tab.getD s.dev.flood.queues (qKey x c) []).map Pkt.size).sum

/-- Of two groups the one whose queue of bulk cells is the shorter; the lower group on a tie (R253). -/
def State.shorter (s : State) (a b : Fin 64) : Fin 64 :=
  if s.queueCells (groupX b) .rmab < s.queueCells (groupX a) .rmab then b else a

/-- The member a cell of a class leaves on toward a destination switch: the fixed member of R249, or for sprayed bulk data the
one with the fewest bulk cells queued (R253). -/
def State.route (s : State) (c : Cls) (src d : Fin 16) : Option XPort :=
  let ms := s.members d
  match ms with
  | [] => none
  | g :: rest =>
    if c = .rmab ∧ s.flag .root F.DEV_FAB_CFG_SPRAY then some (groupX (rest.foldl s.shorter g))
    else (ms[(src.val + 5 * d.val + 3 * c.num) % ms.length]?).map groupX

/-- The requester's switch (R124). -/
def State.originSw (s : State) : Origin → Fin 16
  | .switch sw _ _ => sw
  | _ => s.swid

/-- The port of a logical module port number (R48). -/
def mportOf (m : Fin 128) : PortId := ⟨⟨m.val / 2, by omega⟩, ⟨m.val % 2, by omega⟩⟩

/-- Whether a module port is READY and takes accesses (R52, R290). -/
def State.moduleUp (s : State) (pt : PortId) : Bool :=
  s.portExists pt && s.mode pt.g == .m && s.fld (.port pt) F.PRT_MSTAT_STATE == 3 && !s.isContained pt

/-- The switch of a host (R176). -/
def State.hostSw (s : State) (h : Fin 64) : Fin 16 :=
  ⟨s.fldn .root F.DEV_COH_HOST_SW h.val % 16, Nat.mod_lt _ (by decide)⟩

/-! ### Messages of the device's own for another switch (R249, R251) -/

/-- The other switch a message of the device is for: an answer's requester, a notice's receiver, a snooped host's switch, a flow's peer. -/
def State.outSw (s : State) (o : Out) : Option (Fin 16) :=
  let away := fun d => if d = s.swid then none else some d
  match o with
  | .answer (.switch sw _ _) _ _ _ => some sw
  | .atomicResult (.switch sw _ _) _ _ => some sw
  | .bisnp h _ _ => away (s.hostSw h)
  | .containNotice _ sw => away sw
  | .poisonAdd _ _ sw => away sw
  | .noticeAck sw => away sw
  | .mill h _ _ => away h.dstSw
  | .millAck h _ _ _ _ _ _ => away h.dstSw
  | _ => none

/-- The class of a message for another switch (R101). -/
def Out.cls : Out → Cls
  | .atomicResult _ _ _ | .millAck _ _ _ _ _ _ _ => .rmac
  | .bisnp _ _ _ => .bisn
  | .containNotice _ _ | .poisonAdd _ _ _ | .noticeAck _ => .iotx
  | .mill h _ _ => h.type.cls
  | _ => .mrsp

/-- A message as it leaves: one for another switch on the member of that switch's effective set (R249, R253); none where the set is empty. -/
def State.outVia (s : State) (o : Out) : Option Out :=
  match s.outSw o with
  | none => some o
  | some d => (s.route o.cls s.swid d).map fun y => .leave y o

/-- Send a message; one for a switch whose effective set is empty is discarded, with EV100 and its count (R251, log entry 147). -/
def outGo (o : Out) : Prog := .look fun s =>
  match s.outVia o with
  | some p => Prog.send p
  | none => raise 100 .root ((s.outSw o).getD s.swid).val

end Sys2Proof.Machine
end

