-- ==== Sys2Proof/Machine/OrtOps.lean ====
section
/-!
DEFINITION. Machine/OrtOps.lean: opening, closing and losing entries of the outstanding-request tracker (R122-R130).
-/
namespace Sys2Proof.Machine

/-- Whether an ingress is taken to be down, so that what arrives from it is discarded (R134). -/
def State.xDown (s : State) (x : XPort) : Bool := s.dev.flood.downX.contains x.key

/-- Whether an answer can leave no more toward the port its requester stands behind (R133); one for another switch leaves on any member of that switch's
effective set (R249). -/
def State.originDown (s : State) : Origin → Bool
  | .switch _ _ _ => false
  | o => s.xDown o.xport

/-- The OPEN entries. -/
def State.ortOpenCount (s : State) : Nat := Tab.count s.dev.ort.entries fun _ e => e.isOpen

/-- The OPEN entries of a requester's crossbar port (R123). -/
def State.ortPortCount (s : State) (x : XPort) : Nat :=
  Tab.count s.dev.ort.entries fun _ e => e.isOpen && e.port.ix == x.ix

/-- Snoops sent and not ended, each of which holds a BIRS reserved cell (R118, R186). -/
def State.birsHeld (s : State) : Nat :=
  (s.dev.coh.busy.map fun e => (e.2.snoops.filter fun n => n.sent.isSome).length).sum

/-- The BIRS cells in the Floodplain that answer this device's snoops: those that leave at an internal port (R118). -/
def State.birsIn (s : State) : Nat :=
  ((s.dev.flood.queues.filter fun e => e.1 % 8 == Cls.birs.num && decide (1024 ≤ e.1)).map fun e => (e.2.map fun p => p.held.length).sum).sum

/-- The reserved cells of a class that are taken: those its cells hold, and those held for a response that has not taken its cell (R107, R110, R118). -/
def State.resTaken (s : State) (c : Cls) : Nat :=
  Tab.getD s.dev.flood.resUsed c.num 0
    + (match c with
      | .mrsp => Tab.count s.dev.ort.entries fun _ e => e.isOpen && !e.taken
      | .birs => s.birsHeld - s.birsIn
      | _ => 0)

/-- The reservation of a class (DEV_FP_CLSk_CFG.RES). -/
def State.clsRes (s : State) (c : Cls) : Nat := s.fldn .root F.DEV_FP_CLS_CFG_RES c.num

/-! ### Occupancy (R107-R111) -/

/-- The classes in the order of their numbers. -/
def allCls : List Cls := [.mreq, .mrsp, .bisn, .birs, .iotx, .rmac, .rmab]

/-- The shared limit of a class. -/
def State.shMax (s : State) (c : Cls) : Nat := s.fldn .root F.DEV_FP_CLS_SH_SHMAX c.num

/-- The cells of a class in the shared part, with the excess over a lowered reservation (R107, R111). -/
def State.shCount (s : State) (c : Cls) : Nat :=
  Tab.getD s.dev.flood.shUsed c.num 0 + (s.resTaken c - s.clsRes c)

/-- Total occupancy (R107). -/
def State.fpTotal (s : State) : Nat :=
  (allCls.map fun c => Tab.getD s.dev.flood.resUsed c.num 0 + Tab.getD s.dev.flood.shUsed c.num 0).sum

/-- The cells of the shared part (R107). -/
def State.fpShared (s : State) : Nat := 524288 - (allCls.map s.clsRes).sum

/-- The free cells of the shared part. -/
def State.shFree (s : State) : Nat := s.fpShared - (allCls.map s.shCount).sum

/-- Count cells of a class into or out of its parts. -/
def fpCount (c : Cls) (inRes : Bool) (add sub : Nat) : Prog := Prog.flood fun f =>
  if inRes then { f with resUsed := Tab.setD f.resUsed 0 c.num (Tab.getD f.resUsed c.num 0 + add - sub) }
  else { f with shUsed := Tab.setD f.shUsed 0 c.num (Tab.getD f.shUsed c.num 0 + add - sub) }

/-- The peak of total occupancy. -/
def fpPeak : Prog := .look fun s => Prog.peak .root F.DEV_FP_PEAK_PEAK (min (2 ^ 20 - 1) s.fpTotal)

/-- A part with room for a cell of a class: reserved first, then shared while the class is below SHMAX, or, for a trim notice, beyond it (R108, R109). -/
def State.clsRoom (s : State) (c : Cls) (notice : Bool) : Option Bool :=
  if s.resTaken c < s.clsRes c then some true
  else if (notice || s.shCount c < s.shMax c) && s.shFree > 0 then some false
  else none

/-- The tag indices a module port has outstanding (R125). -/
def State.modTags (s : State) (pt : PortId) : List Nat :=
  s.dev.ort.entries.filterMap fun e => if e.2.isOpen && e.2.egr == pt.x then some (e.2.egrTag % 4096) else none

/-- The least tag index a module port has free (R125; which free index is taken is the model's choice, log entry 13). -/
def State.freeTag (s : State) (pt : PortId) : Option Nat := (List.range 4096).find? fun k => !(s.modTags pt).contains k

/-- The generation of an entry that is FREE (R124). -/
def State.ortGen (s : State) (i : Nat) : Nat := Tab.getD s.dev.ort.gens i 0

/-- Whether the tracker takes one more entry of a requester's port (R110, R123). -/
def State.ortRoom (s : State) (x : XPort) : Bool :=
  decide (s.dev.ort.entries.length < 65536) && decide (s.ortPortCount x < s.fld .root F.DEV_ORT_CFG_PORT_MAX)
    && decide (s.resTaken .mrsp < s.clsRes .mrsp)

/-- Whether an access at its target would find a tracker entry and a tag (R123, R125). -/
def State.ortFits (s : State) (port egr : XPort) : Bool :=
  s.ortRoom port && (match egr.port? with
    | some pt => s.mode pt.g != .m || (s.freeTag pt).isSome
    | none => true)

/-- The crossbar port of a key. -/
def xOfKey (k : Nat) : XPort := ⟨⟨k / 2 % 72, Nat.mod_lt _ (by decide)⟩, k % 2 == 1⟩

/-- Whether nothing of a class waits at an ingress (R118). -/
def State.ingressFree (s : State) (x : XPort) (c : Cls) : Bool := (Tab.getD s.dev.flood.waiting (qKey x c) []).isEmpty

/-- Put a request or a cell at the end of an ingress's queue of its class (R117, R118). -/
def waitAt (x : XPort) (c : Cls) (w : Wait) : Prog := Prog.flood fun f =>
  { f with waiting := Tab.put f.waiting (qKey x c) (Tab.getD f.waiting (qKey x c) [] ++ [w]) }

/-- The unit behind an internal port sends a message of a class, behind what of that class waits there, once the Floodplain has room for the class (R108, R117,
R118). -/
def xSend (x : XPort) (c : Cls) (o : Out) : Prog := .look fun s =>
  if s.ingressFree x c && (s.clsRoom c false).isSome then outGo o else waitAt x c (.out o)

/-- The class of a tracked request (R101). -/
def ortCls : OrtOp → Cls
  | .atomic => .rmac
  | .ioRead | .ioWrite => .iotx
  | _ => .mreq

/-- Open an entry for a request (R122, R123): the least free index (log entry 13) with its generation; a request that finds others of its class waiting at its
ingress (R118), and after EV065 one that finds no entry, or no free tag at its module port, goes on as `full` says. -/
def ortOpen (port : XPort) (info : ReqInfo) (egr : XPort) (dstSw : Option (Fin 16)) (epar lost : Bool) (ctx : OrtCtx)
    (full : Prog) (ok : Nat → Nat → Nat → Prog) : Prog := .look fun s =>
  let tag := match egr.port? with
    | some pt => if s.mode pt.g = .m then s.freeTag pt else some 0
    | none => some 0
  if !s.ingressFree port (ortCls info.op) then full
  else match Tab.freeBelow s.dev.ort.entries 65536, tag, s.ortRoom port with
  | some i, some k, true =>
    let gen := s.ortGen i
    Prog.all [
      Prog.ort fun o => { o with
        entries := Tab.put o.entries i
          { isOpen := true, gen, port, info, egr, dstSw, epar, egrTag := gen * 4096 + k, tIssue := s.time, lost,
            taken := false, owed := none, tQuar := 0, ctx }
        gens := Tab.erase o.gens i },
      gauge port.unit 0x41 none 1,
      ok i gen (gen * 4096 + k)]
  | _, _, _ => Prog.seq (raise 65 port.evUnit 0) full

/-- Free an entry, its generation one higher (R130). -/
def ortFree (i : Nat) : Prog := Prog.ort fun o =>
  match Tab.get? o.entries i with
  | none => o
  | some e => { o with entries := Tab.erase o.entries i, gens := Tab.setD o.gens 0 i ((e.gen + 1) % 16) }

/-- Move an answered entry to QUAR, its generation one higher (R130), with the home switch a notice is owed to (R131). -/
def ortQuar (i : Nat) (owed : Option (Fin 16)) : Prog := .look fun s => Prog.ort fun o =>
  { o with entries := Tab.upd o.entries i fun e =>
      { e with isOpen := false, gen := (e.gen + 1) % 16, owed, tQuar := s.time } }

/-- Declare a path lost for the OPEN entries that a test picks (R127); engine e7 answers them in ORT_LOST_PATH_ANSWER. -/
def ortLose (p : OrtEntry → Bool) : Prog := Prog.ort fun o =>
  { o with entries := Tab.mapAll o.entries fun _ e => if e.isOpen && p e then { e with lost := true } else e }

/-- Declare an egress lost (R127): the paths through it are, and engine e7 logs it once (R129). -/
def ortLoseEgress (x : XPort) : Prog := Prog.seq (ortLose fun e => e.egr == x)
  (Prog.ort fun o => { o with lostX := if o.lostX.contains x then o.lostX else o.lostX ++ [x] })

end Sys2Proof.Machine
end

