-- ==== Sys2Proof/Machine/LineOps.lean ====
section
/-!
DEFINITION. Machine/LineOps.lean: the line code of fabric lanes: markers (R358, R359), striping and Gray levels (R356), the scrambler (R360), and frames with
run-limit stuffing (R357, R361).
-/
namespace Sys2Proof.Machine

/-! ### Lanes -/

/-- A lane that nothing has used. -/
def Lane.empty : Lane := {
  scr := 0, foff := 0, tail := 0, skip := 0, wraps := 0, broken := false, ofs := 0, ofsDue := false, satTold := true, missed := 0, good := 0, test := false,
  windows := [], ctle := 8, vl := 0, vm := 0, vh := 0, ph := 0, pre := 0, post := 0, eqDone := false, margining := false }

/-- A lane's state beside its registers. -/
def State.lane (s : State) (ln : LaneId) : Lane := Tab.getD s.dev.link.lanes (pathCode (.lane ln)) Lane.empty

/-- Change a lane's state. -/
def laneUpd (ln : LaneId) (f : Lane → Lane) : Prog := .look fun s =>
  Prog.link fun k => { k with lanes := Tab.put k.lanes (pathCode (.lane ln)) (f (s.lane ln)) }

/-- The eight lanes of a fabric group. -/
def fabLanes (g : Fin 64) : List LaneId := (List.finRange 8).map fun l => ⟨⟨g, 0⟩, l⟩

/-! ### Markers (R358, R359) -/

/-- The level of line symbol i of a marker, its polarity inverted or not. -/
def markLevel (w : BitVec 128) (inv : Bool) (i : Nat) : Nat :=
  let l := w.toNat / 4 ^ i % 4
  if inv then 3 - l else l

/-- The two bits of a level (R356). -/
def grayBits (l : Nat) : Nat := [0, 1, 3, 2].getD l 0

/-- The polarity the sync symbols show: none where they are neither 0, 3, 3, 0 nor 3, 0, 0, 3. -/
def markInv (w : BitVec 128) : Option Bool :=
  if w.toNat % 256 = 0 + 3 * 4 + 3 * 16 then some false else if w.toNat % 256 = 3 + 3 * 64 then some true else none

/-- The 80 marker bits (R358). -/
def markBits (w : BitVec 128) (inv : Bool) : Nat :=
  ((List.range 40).map fun j => grayBits (markLevel w inv (4 + 3 * (j / 2) + j % 2)) * 4 ^ j).sum

/-- Whether every guard symbol fits its group (R358). -/
def markGuards (w : BitVec 128) (inv : Bool) : Bool := (List.range 20).all fun k =>
  markLevel w inv (6 + 3 * k) == (markLevel w inv (5 + 3 * k) + 2) % 4

/-- CRC-16 over marker bits 63:0 from bit 0 upward (R358). -/
def markCrc (m : Nat) : Nat := (List.range 64).foldl (fun c i =>
  let fb := (m / 2 ^ i % 2) ^^^ (c / 2 ^ 15)
  if fb = 1 then (c * 2 % 2 ^ 16) ^^^ 0x1021 else c * 2 % 2 ^ 16) 0xFFFF

/-- The marker bits and polarity of an accepted marker (R358, R359). -/
def markAccept (w : BitVec 128) : Option (Nat × Bool) :=
  match markInv w with
  | none => none
  | some inv =>
    let m := markBits w inv
    if markGuards w inv ∧ markCrc (m % 2 ^ 64) = m / 2 ^ 64 ∧ m % 2 ^ 31 ≠ 0 then some (m, inv) else none

/-- One step of the scrambler (R360). -/
def scrStep (r : Nat) : Nat := r * 2 % 2 ^ 31 + ((r / 2 ^ 30 % 2) ^^^ (r / 2 ^ 27 % 2))

/-- The scrambler after n data symbols, two steps each. -/
def scrRun (n r : Nat) : Nat := (List.range (2 * n)).foldl (fun q _ => scrStep q) r

/-! ### The frame a lane has received (R361, R362, R370) -/

/-- What a receiver keeps as it reads a frame: the length and level of the run, the data symbols, the last first, and the stuff symbols at a wrong
level. -/
structure RxFrame where
  run : Nat
  level : Nat
  data : List Nat
  bad : Nat
  deriving DecidableEq, Repr

/-- A level whose polarity is inverted or not. -/
def polar (inv : Bool) (l : Nat) : Nat := if inv then 3 - l else l

/-- One line symbol is received (R362): the symbol after a run of 24 is removed, and starts a run. -/
def rxSymbol (x : RxFrame) (l : Nat) : RxFrame :=
  if x.run = 24 then { x with
    run := 1
    level := l
    bad := x.bad + if l = (x.level + 2) % 4 then 0 else 1 }
  else { x with
    run := if l = x.level then x.run + 1 else 1
    level := l
    data := l :: x.data }

/-- A frame's line symbols after a marker that ended at a level. -/
def rxFrame (inv : Bool) (tail : Nat) (frame : List (Fin 4)) : RxFrame :=
  frame.foldl (fun x l => rxSymbol x (polar inv l.val)) { run := 1, level := polar inv tail, data := [], bad := 0 }

/-- The wrong bits of the data symbols of a frame of zeros from a scrambler state (R370). -/
def zeroErrors (scr : Nat) (data : List Nat) : Nat :=
  (data.foldl (fun (x : Nat × Nat) l =>
    let s1 := scrStep x.1
    let s2 := scrStep s1
    (s2, x.2 + (grayBits l % 2 + s1 % 2) % 2 + (grayBits l / 2 + s2 % 2) % 2)) (scr, 0)).2

/-! ### The line a lane sends (R356, R357, R360, R361) -/

/-- The level of two bits b1 b0 (R356). -/
def grayLevel (v : Nat) : Fin 4 := if v % 4 = 2 then 3 else if v % 4 = 3 then 2 else if v % 4 = 1 then 1 else 0

/-- The level of a stuff symbol, and of a guard symbol, after level l (R358, R361). -/
def farLevel (l : Nat) : Fin 4 := if l % 4 = 0 then 2 else if l % 4 = 1 then 3 else if l % 4 = 2 then 0 else 1

/-- The 64 symbols of a marker that carries 64 bits (R358): the sync symbols, and 20 groups of two field symbols and their guard. -/
def markSymbols (m : Nat) : List (Fin 4) :=
  let w := m % 2 ^ 64 + markCrc (m % 2 ^ 64) * 2 ^ 64
  [0, 3, 3, 0] ++ (List.range 20).flatMap fun k =>
    let b := grayLevel (w / 4 ^ (2 * k + 1))
    [grayLevel (w / 4 ^ (2 * k)), b, farLevel b.val]

/-- The bits of a marker (R358): the scrambler at the frame's first data symbol, the lane, FOFF, the preset requested, and TEST. -/
def txMark (lane : Nat) (x : TxLane) : Nat := x.scr % 2 ^ 31 + lane % 8 * 2 ^ 31 + x.foff % 2 ^ 11 * 2 ^ 34
  + (match x.preq with | some p => p % 8 * 2 ^ 45 + 2 ^ 48 | none => 0) + (if x.test then 2 ^ 49 else 0)

/-- The next frame begins where the last has ended (R357): its marker is sent, and the run restarts at the marker's last symbol (R361). -/
def txFrame (lane : Nat) (x : TxLane) : TxLane :=
  if x.left = 0 then
    let m := markSymbols (txMark lane x)
    { x with
      left := 16320
      level := (m.getLast?.getD 0).val
      run := 1
      line := m.reverse }
  else x

/-- One line symbol goes out (R361): it continues the run at its level, or starts one. -/
def txSymbol (l : Fin 4) (x : TxLane) : TxLane := { x with
  left := x.left - 1
  level := l.val
  run := if l.val = x.level then x.run + 1 else 1
  line := l :: x.line }

/-- The stuff symbol that a run of 24 asks for (R361). -/
def txStuff (x : TxLane) : TxLane := if x.run ≥ 24 then txSymbol (farLevel x.level) x else x

/-- A data symbol of two bits is sent (R360, R361), the `per`-th part of a flit's portion on its lane: frames begin where they fall, a stuff symbol goes first
where it is due, and the scrambler steps twice. -/
def txData (lane per : Nat) (x : TxLane) (v : Nat) : TxLane :=
  let y := txFrame lane (txStuff (txFrame lane x))
  let s1 := scrStep y.scr
  let s2 := scrStep s1
  txSymbol (grayLevel ((v % 4) ^^^ (s1 % 2 + s2 % 2 * 2))) { y with
    scr := s2
    foff := (y.foff + 1) % per }

/-- The two-bit symbols of word k of a flit, low bits first (R356). -/
def wordSymbols (flit k : Nat) : List Nat := (List.range 16).map fun i => flit / 2 ^ (32 * k + 2 * i) % 4

/-- The data symbols of a flit on a lane (R356, R365): the words of its place in a block of w lanes, or zeros outside the block. -/
def laneSymbols (base w lane flit : Nat) : List Nat :=
  if base ≤ lane ∧ lane < base + w then
    (List.range (128 / w)).flatMap fun k => wordSymbols flit (k * w + (lane - base))
  else List.replicate (2048 / w) 0

/-- A flit goes out on the lanes of a link of width w (R356-R361). -/
def txFlit (w flit : Nat) (x : TxLine) : TxLine := { x with
  lanes := x.lanes.zipIdx.map fun e => (laneSymbols x.base w e.2 flit).foldl (txData e.2 (2048 / w)) e.1 }

/-- A zero is sent, or the stuff symbol that is due and ends the frame (R361). -/
def txZero (lane per : Nat) (x : TxLane) : TxLane :=
  let y := txStuff x
  if y.left = 0 then y else txData lane per y 0

/-- A frame of scrambled zeros (R364, R370), or the rest of the frame in progress. -/
def txZeros (lane per : Nat) (x : TxLane) : TxLane :=
  (List.range 16320).foldl (fun y _ => if y.left = 0 then y else txZero lane per y) (txFrame lane x)

/-- Zeros up to the next flit portion, which then begins (R358). -/
def txAlign (lane per : Nat) (x : TxLane) : TxLane :=
  { (List.range ((per - x.foff % per) % per)).foldl (fun y _ => txData lane per y 0) x with foff := 0 }

/-- The lanes of a group begin to send (R357, R358): all at the start of a frame, and of a flit portion. -/
def txBegin (g : Fin 64) (test : Bool) (time : Nat) : TxLine := {
  base := 0
  lanes := (List.range 8).map fun n =>
    { preq := none, test, scr := 1 + Config.trainSeed (g.val * 8 + n) time % (2 ^ 31 - 1), level := 0, run := 1, left := 0, foff := 0, line := [] } }

/-- Every lane sends a frame of scrambled zeros, in portions of x8 (R364 step 1, R370). -/
def TxLine.zeros (x : TxLine) : TxLine := { x with lanes := x.lanes.zipIdx.map fun e => txZeros e.2 256 e.1 }

/-- One lane sends its next frame of zeros. -/
def TxLine.zero (x : TxLine) (n : Nat) : TxLine := { x with lanes := x.lanes.zipIdx.map fun e => if e.2 = n then txZeros n 256 e.1 else e.1 }

/-- A lane's markers request a preset from now on (R366, R367). -/
def TxLine.ask (x : TxLine) (n p : Nat) : TxLine := { x with lanes := x.lanes.zipIdx.map fun e => if e.2 = n then { e.1 with preq := some p } else e.1 }

/-- The lanes of a link take a block of a width into use, a flit portion beginning (R356, R358). -/
def TxLine.block (x : TxLine) (w base : Nat) : TxLine := { x with
  base
  lanes := x.lanes.zipIdx.map fun e => txAlign e.2 (2048 / w) e.1 }

/-- TRAIN ends (R360): the lanes start from the rule's states and ask for no preset. -/
def TxLine.enter (x : TxLine) (w base : Nat) : TxLine :=
  let y := x.block w base
  { y with lanes := y.lanes.zipIdx.map fun e => { e.1 with
    scr := 1 + e.2 * 0x01111111
    preq := none } }

/-! ### The transmitter (R371) -/

/-- The transmitter's output for a symbol between the ones before and after it (R371), in parts of 3 FS of the swing: a level L stands for (2 L - 3) / 3. -/
def firOut (fs pre post : Nat) (prev now next : Fin 4) : Int :=
  let x := fun (l : Fin 4) => 2 * (l.val : Int) - 3
  ((fs : Int) - pre - post) * x now - pre * x next - post * x prev

end Sys2Proof.Machine
end

