-- ==== Sys2Proof/Machine/FlitOps.lean ====
section
/-!
DEFINITION. Machine/FlitOps.lean: the flits that a fabric link sends and the Eddy that stores them (R323-R326, R330, R336-R338), and the stomp of a packet in
transmission (R343).
-/
namespace Sys2Proof.Machine

/-- An egress class queue. -/
def State.queue (s : State) (x : XPort) (c : Cls) : List Pkt := Tab.getD s.dev.flood.queues (qKey x c) []

/-- The port that reports a fabric link (R258). -/
def fabPort (g : Fin 64) : UnitId := .port ⟨g, 0⟩

/-- A link that nothing has used. -/
def FLink.empty : FLink := {
  cred := [], charged := [], shared := [], rbMax := 0, buf := [], left := 0, counted := 0, ctrlQ := [], ctrlAnn := none, ctrlHeld := [], eddy := [],
  ackAt := 0, replay := none, nak := false, rxCt := 31, rxCur := none, rxPool := [], rxPaid := [], rxRes := [], rxShared := 0, ret := [],
  retCtrl := 0, crinit := false, ask := none, grant := none, retrain := none, nextToken := 0 }

/-- The link layer of a group's fabric port. -/
def State.flink (s : State) (g : Fin 64) : FLink := Tab.getD s.dev.link.fl g.val FLink.empty

/-- Change the link layer of a group's fabric port. -/
def flinkUpd (g : Fin 64) (f : FLink → FLink) : Prog := .look fun s =>
  Prog.link fun k => { k with fl := Tab.put k.fl g.val (f (s.flink g)) }

/-- PRT_FL_STAT.PHASE: 0 IDLE, 1 RUN, 2 PAUSE, 3 RETRAIN, 4 RESUME. -/
def State.flPhase (s : State) (g : Fin 64) : Nat := s.fld (fabPort g) F.PRT_FL_STAT_PHASE

/-- Whether the link sends sequenced flits: in RUN, and in PAUSE until the answer comes (R349). -/
def State.flSends (s : State) (g : Fin 64) : Bool := s.flPhase g == 1 || s.flPhase g == 2

/-- Whether a cell is queued for a crossbar port. -/
def State.anyQueued (s : State) (x : XPort) : Bool := allCls.any fun c => !(s.queue x c).isEmpty

/-- The pool with the most returns pending, the lower number on a tie (R336). -/
def retPick (r : Tab Nat) : Nat × Nat := r.foldl (fun b e => if e.2 > b.2 then e else b) (7, 0)

/-! ### CRC-64 (R325) -/

/-- One step of the CRC-64 register. -/
def crcStep (c : Nat) : Nat := if 2 ^ 63 ≤ c then (c * 2 % 2 ^ 64) ^^^ 0x42F0E1EBA9EA3693 else c * 2

/-- One byte into the register, most significant bit first. -/
def crcByte (c b : Nat) : Nat := (List.range 8).foldl (fun r _ => crcStep r) (c ^^^ (b * 2 ^ 56))

/-- The CRC-64 of the 504 bytes of a number, byte 0 the lowest and first: the remainder complemented. -/
def crc64 (n : Nat) : Nat := 2 ^ 64 - 1 - (List.range 504).foldl (fun c i => crcByte c (n / 2 ^ (8 * i) % 256)) (2 ^ 64 - 1)

/-- Bytes 0-503 of a flit (R323): its payload slots and its header. -/
def flitBody (header : BitVec 64) (slots : List TxSlot) : Nat :=
  slots.foldr (fun x n => x.word.toNat + n * 2 ^ 128) header.toNat

/-- The 512 bytes of a flit (R323), byte 0 the lowest. -/
def flitNum (header : BitVec 64) (slots : List TxSlot) : Nat := flitBody header slots + crc64 (flitBody header slots) * 2 ^ 4032

/-- A flit as it goes out on a link. -/
def sentFlit (g : Fin 64) (header : BitVec 64) (slots : List TxSlot) : Out := .flit g header slots (BitVec.ofNat 64 (crc64 (flitBody header slots)))

/-- Send a flit (R323, R356): on the link, and cut to its lanes. -/
def flitOut (g : Fin 64) (header : BitVec 64) (slots : List TxSlot) : Prog := .look fun s =>
  Prog.seq (Prog.link fun k => { k with
      tx := Tab.upd k.tx g.val (txFlit (s.fld (fabPort g) F.PRT_FL_STAT_WIDTH) (flitNum header slots)) })
    (Prog.send (sentFlit g header slots))

/-- The STOMP field: bit j for the (j + 1)-th packet end (R324). -/
def stompMask : List TxSlot → Nat → Nat
  | [], _ => 0
  | .data true st _ :: l, j => b2n st * 2 ^ j + stompMask l (j + 1)
  | _ :: l, j => stompMask l j

/-- Send the next sequenced flit (R326, R330, R336, R337): the announced CTRL message in slot 0, then stream slots, then idle slots; it
announces the next CTRL message where a credit is held, carries one return, and is stored in the Eddy. -/
def closeFlit (g : Fin 64) : Prog := .look fun s =>
  let p := fabPort g
  let l := s.flink g
  let first : List TxSlot := l.ctrlAnn.toList.map TxSlot.ctrl
  let room := 31 - first.length
  let idle := room - (l.buf.take room).length
  let slots := first ++ l.buf.take room ++ List.replicate idle TxSlot.idle
  let ann := if s.fld p F.PRT_FL_CRED_CTRL_CR > 0 then l.ctrlQ.head? else none
  let r := retPick l.ret
  let n := min 511 r.2
  let nxt := s.fld p F.PRT_FL_STAT_NXT_SEQ
  let f : TxFlit := {
    seq := nxt, ack := (s.fld p F.PRT_FL_STAT_EXP_SEQ + 4095) % 4096, nak := l.nak, null := false, crPool := r.1, crCnt := n,
    crCtrl := min 3 l.retCtrl, ctNext := if ann.isSome then 0 else 31, stomp := stompMask slots 0, slots }
  Prog.all [
    flinkUpd g fun l => { l with
      buf := l.buf.drop room
      ctrlAnn := ann
      ctrlQ := if ann.isSome then l.ctrlQ.drop 1 else l.ctrlQ
      ret := if n = 0 then l.ret else Tab.setD l.ret 0 r.1 (r.2 - n)
      retCtrl := l.retCtrl - 3
      ackAt := if l.eddy.isEmpty then s.time else l.ackAt
      eddy := l.eddy ++ [{ flit := f, retx := 0 }] },
    Prog.when ann.isSome (Prog.sub p F.PRT_FL_CRED_CTRL_CR 1),
    Prog.set p F.PRT_FL_STAT_NXT_SEQ ((nxt + 1) % 4096),
    Prog.peak p F.PRT_FL_PSTAT_EDDY_PEAK (l.eddy.length + 1),
    gauge p 0x05 none 1,
    slotAdd p 0 first.length,
    slotAdd p (if s.anyQueued (groupX g) then 3 else 2) idle,
    flitOut g f.header slots]

/-- Whether the link has a flit to send: 31 slots are ready, or between packets anything at all; the Eddy has room and the link is in
RUN. -/
def State.linkWants (s : State) (g : Fin 64) : Bool :=
  let l := s.flink g
  s.flSends g && decide (l.eddy.length < 256)
    && (decide (l.buf.length + b2n l.ctrlAnn.isSome ≥ 31)
      || (l.left == 0 && (!l.buf.isEmpty || l.ctrlAnn.isSome
        || (!l.ctrlQ.isEmpty && decide (s.fld (fabPort g) F.PRT_FL_CRED_CTRL_CR > 0)))))

/-- Whether a requested change moves the link to another rate (R348). -/
def rateMoves (req : Option Reshape) : Bool := req.any fun q => q.rate != 0

/-- Enter RETRAIN for a request, or to degrade (R349, R350): the lanes accept two markers anew, and with a new rate the clock distribution locks again (R369). -/
def retrainStart (g : Fin 64) (req : Option Reshape) : Prog := .look fun s => Prog.seq
  (Prog.set (fabPort g) F.PRT_FL_STAT_PHASE 3)
  (Prog.all [
    flinkUpd g fun l => { l with
      grant := none
      retrain := some { since := s.time, req, swept := !rateMoves req } },
    Prog.each (fabLanes g) fun ln => laneUpd ln fun v => { v with good := 0 },
    Prog.when (rateMoves req) (Prog.set (.group g) F.GRP_FC_STAT_LOCK 0)])

/-- Send what is ready; once the answer to a granted request has left, RETRAIN begins (R349 step 2). -/
def linkPump (g : Fin 64) : Prog := Prog.seq (Prog.loop 320 (fun s => s.linkWants g) (closeFlit g))
  (.look fun s => Prog.opt (s.flink g).grant fun r =>
    Prog.when (s.flSends g && (s.flink g).ctrlQ.isEmpty && (s.flink g).ctrlAnn.isNone) (retrainStart g (some r)))

/-- A NULL flit (R326): it carries the current ACK and NAK. -/
def nullFlit (g : Fin 64) : Prog := .look fun s =>
  let p := fabPort g
  let l := s.flink g
  let f : TxFlit := {
    seq := s.fld p F.PRT_FL_STAT_NXT_SEQ, ack := (s.fld p F.PRT_FL_STAT_EXP_SEQ + 4095) % 4096, nak := l.nak, null := true, crPool := 7,
    crCnt := 0, crCtrl := 0, ctNext := 31, stomp := 0, slots := List.replicate 31 TxSlot.idle }
  Prog.all [
    gauge p 0x05 none 1,
    slotAdd p (if !s.flSends g || decide (l.eddy.length ≥ 256) then 3 else 2) 31,
    flitOut g f.header f.slots]

/-! ### Stomping (R343) -/

/-- Stomp the packet in transmission at a fabric egress (R343): its content is completed with zero slots, its STOMP bit set, and its
delivered slots become wasted ones (R506). -/
def linkStomp (g : Fin 64) : Prog := .look fun s =>
  let n := (s.flink g).left
  Prog.when (decide (n > 0)) (Prog.all [
    slotWaste (fabPort g) (s.flink g).counted,
    slotAdd (fabPort g) 1 n,
    Prog.add (fabPort g) F.PRT_FL_STOMP_TX 1,
    flinkUpd g fun l => { l with
      buf := l.buf ++ (List.range n).map fun i => TxSlot.data (decide (i + 1 = n)) true 0
      left := 0 },
    linkPump g])

end Sys2Proof.Machine
end

