-- ==== Sys2Proof/Machine/HwOps.lean ====
section
/-!
DEFINITION. Machine/HwOps.lean: how an Asryn command is run and answered: status codes (R462), bus-master writes under Bus Master
Enable (R283, R284), replies by path (R467, R470, R546), scopes (R461), and the walk over a unit's descendants (R30-R32).
-/
namespace Sys2Proof.Machine

/-! ### Status codes (R462) -/

/-- success -/
def stOk : Nat := 0
/-- busy -/
def stBusy : Nat := 1
/-- limit exceeded -/
def stLimit : Nat := 2
/-- not found -/
def stNotFound : Nat := 3
/-- invalid parameter -/
def stInvalid : Nat := 4
/-- data poisoned -/
def stPoisoned : Nat := 5
/-- denied -/
def stDenied : Nat := 6
/-- unit unavailable -/
def stUnavailable : Nat := 7
/-- unsupported opcode -/
def stUnsupported : Nat := 8
/-- malformed -/
def stMalformed : Nat := 9
/-- firmware error -/
def stFirmware : Nat := 10
/-- device safe state -/
def stSafe : Nat := 11

/-! ### Bus-master writes -/

/-- The key of a function of a port. -/
def fnKey (pt : PortId) (fn : Nat) : Nat := pt.ix * 128 + fn

/-- The instance a VF is (R279). -/
def State.vfInst (s : State) (pt : PortId) (fn : Nat) : Option (Fin 1024) :=
  if fn = 0 ∨ fn > s.fld (.port pt) F.PRT_HCFG_NUM_VFS then none
  else fin? 1024 (s.fld (.port pt) F.PRT_HCFG_INST_BASE + fn - 1)

/-- The STATE of an instance: 0 DISABLED, 1 ACTIVE, 2 FROZEN, 3 RESETTING (R295). -/
def State.instState (s : State) (i : Fin 1024) : Nat := s.fld (.inst i) F.INS_STAT_STATE

/-- Whether requests of a function may be issued: function 0's Bus Master Enable is PRT_HSTAT.BME, and it governs the VFs beside
their own (R283); none is issued for an instance that is being reset (R313). -/
def State.bme (s : State) (pt : PortId) (fn : Nat) : Bool :=
  s.flag (.port pt) F.PRT_HSTAT_BME && (fn == 0 || s.dev.ports.vfBme.contains (fnKey pt fn)) && !((s.vfInst pt fn).any fun i => s.instState i == 3)

/-- A posted write that a function masters, from the internal port of the unit that makes it: issued while BME is 1 (R117), held in order while it is 0 (R284). -/
def busWrite (x : XPort) (pt : PortId) (fn : Nat) (o : Out) : Prog := .look fun s =>
  if s.bme pt fn then xSend x .iotx o
  else Prog.ports fun p => { p with held := Tab.put p.held (fnKey pt fn) (Tab.getD p.held (fnKey pt fn) [] ++ [o]) }

/-- The key of a word of a vector's MSI-X table entry: address low and high, data, control. -/
def msixKey (pt : PortId) (fn vec w : Nat) : Nat := (fnKey pt fn * 2048 + vec) * 4 + w

/-- A word of an MSI-X table entry; a vector that nothing has set up is masked (log entry 31). -/
def State.msixWord (s : State) (pt : PortId) (fn vec w : Nat) : Nat :=
  Tab.getD s.dev.ports.msix (msixKey pt fn vec w) (if w = 3 then 1 else 0)

/-- Raise an MSI-X vector: sent from the internal port of the unit that raises it (R117), behind its writes, or pending while the function may not master or the vector is
masked (R284). -/
def msixSend (x : XPort) (pt : PortId) (fn vec : Nat) : Prog := .look fun s =>
  if s.bme pt fn && s.msixWord pt fn vec 3 % 2 == 0 then
    xSend x .iotx (.msix pt fn vec (s.msixWord pt fn vec 0 + s.msixWord pt fn vec 1 * 2 ^ 32) (s.msixWord pt fn vec 2))
  else Prog.ports fun p => { p with
    msixPend := if p.msixPend.contains (msixKey pt fn vec 0) then p.msixPend else p.msixPend ++ [msixKey pt fn vec 0] }

/-- The least significant byte first. -/
def leBytes (n v : Nat) : List Byte := (List.range n).map fun i => BitVec.ofNat 8 (v / 2 ^ (8 * i))

/-- The number little-endian bytes stand for. -/
def leNum (l : List Byte) : Nat := l.foldr (fun b n => b.toNat + n * 256) 0

/-! ### Replies -/

/-- A ring that nothing has used. -/
def Ring.empty : Ring := { cNext := 0, cTail := 0, rTail := 0, rHead := 0, phase := true, waiting := [] }

/-- The rings of a management port. -/
def State.ringOf (s : State) (pt : PortId) : Ring := Tab.getD s.dev.hw.rings pt.ix Ring.empty

/-- The ring registers of a port take their reset values, and its rings are forgotten. -/
def ringClear (pt : PortId) : Prog := Prog.seq
  (.eff (.dropRegs fun k => decide (0x20000000 + pt.ix * 0x1000 ≤ k / 4096) && decide (k / 4096 < 0x20000000 + (pt.ix + 1) * 0x1000)))
  (Prog.hw fun h => { h with rings := Tab.erase h.rings pt.ix })

/-- The reply entries of a port's reply ring. -/
def State.replySlots (s : State) (pt : PortId) : Nat := 2 ^ s.ring pt F.HW_RING_CFG_RLOG2

/-- The widths in bytes of the reply data of an opcode: of its first fields, and of each one after them (R464, R486, R487; log entry 15). -/
def dataWidths (op : Nat) : List Nat × Nat :=
  if op = 0x0001 then ([4, 4, 2, 1], 1)
  else if op = 0x0501 ∨ op = 0x0600 ∨ op = 0x0602 then ([], 1)
  else if op = 0x0800 then ([4], 1)
  else if op = 0x0801 then ([4, 4, 48, 96], 1)
  else if op = 0x0206 then ([], 8)
  else ([], 4)

/-- Numbers as little-endian fields of given widths (R20). -/
def packBytes : List Nat → Nat → List Nat → List Byte
  | _, _, [] => []
  | w :: ws, d, v :: l => leBytes w v ++ packBytes ws d l
  | [], d, v :: l => leBytes d v ++ packBytes [] d l

/-- The reply data as bytes. -/
def Reply.bytes (r : Reply) : List Byte := packBytes (dataWidths r.hdr.opcode.toNat).1 (dataWidths r.hdr.opcode.toNat).2 r.data

/-- The 32-byte header of a reply (R459): VERSION 1, REPLY and PHASE, OPCODE, SEQ, STATUS, LEN, PATH, CTX, FIRST and NFAIL. -/
def Reply.head (r : Reply) (phase : Bool) : List Byte :=
  leBytes 1 1 ++ leBytes 1 (1 + b2n phase * 128) ++ leBytes 2 r.hdr.opcode.toNat ++ leBytes 2 r.hdr.seq.toNat ++ leBytes 2 r.status
    ++ leBytes 4 r.bytes.length ++ leBytes 4 r.hdr.target.toNat ++ leBytes 8 r.hdr.ctx.toNat ++ leBytes 4 r.first ++ leBytes 4 r.nfail

/-- What Headwater writes for a reply at the next slot of a reply ring (R470): of its data what fits into the reply buffer, then the entry. -/
def State.ringWrites (s : State) (pt : PortId) (r : Reply) : List Out :=
  let d := r.bytes.take r.hdr.blen.toNat
  (if d.isEmpty then [] else [.busWrite pt 0 r.hdr.buf.toNat d .ring])
    ++ [.busWrite pt 0 (s.ring pt F.HW_RING_RBASE_BASE * 4096 + (s.ringOf pt).rTail * 32) (r.head (s.ringOf pt).phase) .ring]

/-- Write a reply into a ring, its vector after it, or keep it until a slot is free (R470). -/
def ringReply (pt : PortId) (o : Reply) : Prog := .look fun s =>
  let r := s.ringOf pt
  let n := s.replySlots pt
  if (r.rTail + 1) % n = r.rHead % n ∨ !r.waiting.isEmpty then
    Prog.hw fun h => { h with rings := Tab.put h.rings pt.ix { r with waiting := r.waiting ++ [o] } }
  else Prog.seq (Prog.hw fun h => { h with rings := Tab.put h.rings pt.ix { r with
        rTail := (r.rTail + 1) % n
        phase := if r.rTail + 1 = n then !r.phase else r.phase } })
    (Prog.seq (Prog.each (s.ringWrites pt o) (busWrite (XPort.int 7) pt 0)) (msixSend (XPort.int 7) pt 0 (s.ring pt F.HW_RING_CFG_VEC)))

/-- Send a reply as one MCTP message (R469). -/
def sendReply (r : Reply) : Prog := Prog.send (.reply (r.head false ++ r.bytes))

/-- Answer a command on the path by which it came (R467): over MCTP, into the reply ring, or into the CMD_RES of its unit; QUIET
drops the reply of a success (R459). -/
def replyFull (h : Hdr) (status first nfail : Nat) (data : List Nat) : Prog :=
  match h.path with
  | .mctp => Prog.when (!(h.quiet && status == stOk)) (sendReply { hdr := h, status, first, nfail, data })
  | .ring pt => Prog.when (!(h.quiet && status == stOk)) (ringReply pt { hdr := h, status, first, nfail, data })
  | .unit u => Prog.all [Prog.set u F.CMD_RES_STATUS status, Prog.set u F.CMD_RES_FIRST first,
      Prog.set u F.CMD_NFAIL_NFAIL nfail, Prog.set u F.CMD_RES_BUSY 0]

/-- Answer a command that named one unit or the device. -/
def reply (h : Hdr) (status : Nat) (data : List Nat) : Prog :=
  replyFull h status 0 (if status = stOk then 0 else 1) data

/-! ### Scopes -/

/-- The opcodes that run in the device safe state (R426). -/
def safeOpcode (op : Nat) : Bool := [0x0001, 0x0002, 0x0011, 0x0800, 0x0801, 0x0005, 0x0006].contains op

/-- The opcodes that run while both firmware slots are invalid (R473). -/
def recoveryOpcode (op : Nat) : Bool := [0x0001, 0x0700, 0x0701].contains op

/-- Run a command: in recovery Headwater answers PING, FW_WRITE and FW_ACTIVATE over I3C alone (R473); it takes none in while it
is not ready (R465), and answers those that the safe state excludes (R426). -/
def runCmd (h : Hdr) (op : Nat) (p : Prog) : Prog := .look fun s =>
  if s.flag .root F.HW_STAT_RECOVERY then (if recoveryOpcode op && h.path == .mctp then p else .skip)
  else if !s.flag .root F.HW_STAT_READY then .skip
  else if s.dev.ws.safe && !safeOpcode op then reply h stSafe []
  else p

/-- A device command: it must carry the root's path code (R461). -/
def devCmd (h : Hdr) (op : Nat) (p : Prog) : Prog :=
  runCmd h op (match unitOfCode h.target.toNat with
    | some .root => p
    | _ => reply h stInvalid [])

/-- A single command: it acts on the named unit, of a class it accepts (R461, R544, R32). -/
def singleCmd (h : Hdr) (op : Nat) (accepts : UnitId → Bool) (p : UnitId → Prog) : Prog :=
  runCmd h op (match unitOfCode h.target.toNat with
    | none => reply h stInvalid []
    | some u => .look fun s =>
      if !accepts u then reply h stInvalid []
      else if s.unavailable u then reply h stUnavailable []
      else p u)

/-- The ports a group reports (R542). -/
def State.portsOf (s : State) (g : Fin 64) : List PortId :=
  if s.split g && (s.mode g == .h || s.mode g == .m) then [⟨g, 0⟩, ⟨g, 1⟩] else [⟨g, 0⟩]

/-- The lanes of a port (R6, R542). -/
def State.lanesOf (s : State) (pt : PortId) : List LaneId :=
  ((List.finRange 8).filter fun l => decide (l.val < 4) || !(s.split pt.g && (s.mode pt.g == .h || s.mode pt.g == .m))).map
    fun l => ⟨pt, l⟩

/-- The groups of a quadrant (R5). -/
def groupsOf (q : Fin 4) : List (Fin 64) := (List.finRange 64).filter fun g => g.val / 16 == q.val

/-- A unit and its descendants, depth-first, children in ascending index order (R29, R30). -/
def State.tree (s : State) (u : UnitId) : List UnitId :=
  let portT := fun pt => UnitId.port pt :: (s.lanesOf pt).map UnitId.lane
  let groupT := fun g => UnitId.group g :: (s.portsOf g).flatMap portT
  let quadT := fun q => UnitId.quadrant q :: (groupsOf q).flatMap groupT
  let stackT := fun st => UnitId.stack st :: (List.finRange 32).map (UnitId.pc st)
  match u with
  | .root => UnitId.root :: ((List.finRange 4).flatMap quadT ++ (List.finRange 4).flatMap stackT
      ++ (List.finRange 8).map UnitId.engine ++ (List.finRange 1024).map UnitId.inst ++ (List.finRange 64).map UnitId.slot)
  | .quadrant q => quadT q
  | .group g => groupT g
  | .port pt => portT pt
  | .stack st => stackT st
  | v => [v]

/-- One more unit's code. -/
def Tally.add (t : Tally) (u : UnitId) (st : Nat) : Tally :=
  { worst := max t.worst st,
    first := if st > t.worst then pathCode u else t.first,
    nfail := if st = stOk then t.nfail else t.nfail + 1 }

/-- Apply a command to units one after another, without rollback (R31): a unit that `out` picks is left as it is and returns "unit unavailable". -/
def unitLoop (out : State → UnitId → Bool) (act : UnitId → (Nat → Prog) → Prog) (fin : Tally → Prog) : List UnitId → Tally → Prog
  | [], t => fin t
  | u :: us, t => .look fun s =>
    if out s u then unitLoop out act fin us (t.add u stUnavailable)
    else act u fun st => unitLoop out act fin us (t.add u st)

/-- A unit command: it applies to its target and every descendant but those that `out` picks, and goes on with the codes of all (R30, R461). -/
def unitCmdOf (h : Hdr) (op : Nat) (out : State → UnitId → Bool) (act : UnitId → (Nat → Prog) → Prog) (fin : Tally → Prog) : Prog :=
  runCmd h op (match unitOfCode h.target.toNat with
    | none => reply h stInvalid []
    | some u => .look fun s => unitLoop out act fin (s.tree u) { worst := 0, first := pathCode u, nfail := 0 })

/-- The reply that carries the result of a unit command (R30). -/
def tallyReply (h : Hdr) (t : Tally) : Prog := replyFull h t.worst t.first t.nfail []

/-- A unit command whose one reply carries the result; units that are fenced or absent are left as they are (R30, R32). -/
def unitCmd (h : Hdr) (op : Nat) (act : UnitId → (Nat → Prog) → Prog) : Prog := unitCmdOf h op State.unavailable act (tallyReply h)

/-! ### Background commands (R466) -/

/-- Start a background command, for a unit or for the device, with the numbers its end needs. -/
def bgStart (h : Hdr) (op : Nat) (u : Option UnitId) (args : List Nat) : Prog :=
  .eff (.bgPut { hdr := h, opcode := op, unit := u, args })

/-- The running background command of an opcode and unit. -/
def State.bgOf (s : State) (op : Nat) (u : Option UnitId) : Option Bg := s.bg.find? fun b => b.opcode == op && b.unit == u

/-- End the running background command of an opcode and unit, where there is one, and go on with its record. -/
def bgFinish (op : Nat) (u : Option UnitId) (k : Bg → Prog) : Prog := .look fun s =>
  match s.bgOf op u with
  | none => .skip
  | some b => Prog.seq (.eff (.bgDrop fun c => c.opcode == op && c.unit == u)) (k b)

/-- End every running background command of an opcode and unit, in the order in which they started. -/
def bgFinishAll (op : Nat) (u : Option UnitId) (k : Bg → Prog) : Prog := .look fun s =>
  Prog.seq (.eff (.bgDrop fun c => c.opcode == op && c.unit == u)) (Prog.each (s.bg.filter fun b => b.opcode == op && b.unit == u) k)

end Sys2Proof.Machine
end

