-- ==== Sys2Proof/Machine/RsvOps.lean ====
section
/-!
DEFINITION. Machine/RsvOps.lean: the map as it stands, the poison list, write tracking, the cache's ways and the merge buffer
(spec 02, 03 and 05).
-/
namespace Sys2Proof.Machine

/-! ### The map and its targets -/

/-- The committed map entry of an extent. -/
def State.mapAt (s : State) (x : Nat) : MapEntry := Tab.getD s.dev.xlat.map x MapEntry.unmapped

/-- The entry new lookups take: the sealed buffer comes before the map while an advance runs (R68). -/
def State.entry (s : State) (x : Nat) : MapEntry :=
  match s.dev.xlat.adv with
  | some a => (Tab.get? a.sealed x).getD (s.mapAt x)
  | none => s.mapAt x

/-- Whether an extent is treated as UNMAPPED with poison (R62): its entry is uncorrectable, and no sealed entry stands before it. -/
def State.mapBadNow (s : State) (x : Nat) : Bool :=
  s.dev.xlat.bad.contains x && !(match s.dev.xlat.adv with | some a => Tab.has a.sealed x | none => false)

/-- Where an access of a target goes: a module and its address, a place of the cache region, or nowhere (R52, R55, R157). -/
inductive Place where
  | module (pt : PortId) (dpa : Nat)
  | pinned (set way : Nat)
  | lost
  deriving DecidableEq, Repr

/-- A module access, or a lost path where its port does not serve it or its module is too small for the address (R52, R57). -/
def State.modPlace (s : State) (m : Fin 128) (dpa : Nat) : Place :=
  if s.moduleUp (mportOf m) ∧ dpa < s.fld (.port (mportOf m)) F.PRT_MSTAT_CAP_X * 2 ^ 21 then .module (mportOf m) dpa else .lost

/-- The place of an access to a target. -/
def State.place (s : State) (t : Option Tgt) (gpa : Nat) : Place :=
  match t with
  | none => .lost
  | some (.module m d) => s.modPlace m (d * 2 ^ 21 + gpa % 2 ^ 21)
  | some (.stripe n o) => match Tab.get? s.dev.xlat.ssets n.val with
    | none => .lost
    | some t => match t.place o gpa with
      | none => .lost
      | some p => s.modPlace p.1 p.2
  | some (.pinned u) => .pinned (pinnedPlace u (gpa % 2 ^ 21 / 64)).1 (pinnedPlace u (gpa % 2 ^ 21 / 64)).2

/-- Where a place that is lost would have been sent: the module port named, for the tracker's entry (R52). -/
def State.placePort (s : State) (t : Option Tgt) (gpa : Nat) : XPort :=
  match t with
  | some (.module m _) => (mportOf m).x
  | some (.stripe n o) => match Tab.get? s.dev.xlat.ssets n.val with
    | some t => match t.place o gpa with
      | some p => (mportOf p.1).x
      | none => XPort.int 7
    | none => XPort.int 7
  | _ => XPort.int 7

/-- Whether the tracker takes a request of a port for a target now. -/
def State.targetFits (s : State) (port : XPort) (tgt : Option Tgt) (gpa : Nat) : Bool :=
  match s.place tgt gpa with
  | .pinned _ _ => true
  | .lost => s.ortFits port (s.placePort tgt gpa)
  | .module pt _ => s.ortFits port pt.x

/-! ### The poison list (R166-R169) -/

/-- PSN of an extent: the poison list holds a line of it (R53). -/
def State.psn (s : State) (x : Nat) : Bool := s.dev.rsv.poison.any fun e => e.2.x == x

/-- Whether a line reads as poison: its own entry or one for the whole extent (R168). -/
def State.linePoisoned (s : State) (la : Nat) : Bool :=
  s.dev.rsv.poison.any fun e => e.2.x == la / 32768 && (e.2.all || e.2.line == la % 32768)

/-- The line entries an extent holds. -/
def State.psnLines (s : State) (x : Nat) : Nat := Tab.count s.dev.rsv.poison fun _ e => e.x == x && !e.all

/-- Handle an extent whose place in the poison list is exhausted as one whose map entry is uncorrectable (R62, R168); EV075 is logged, and EV044 is not beside
it (log entry 129). -/
def psnOverflow (x : Nat) : Prog := Prog.all [
  Prog.xlat fun v => { v with bad := if v.bad.contains x then v.bad else v.bad ++ [x] },
  Prog.addSat .root F.DEV_PL_STAT_OVF 1,
  raise 75 (psnStack (psnBucket x)) x]

/-- Add a line to the poison list with a reason (R168). -/
def psnAdd (la reason : Nat) : Prog := .look fun s =>
  let x := la / 32768
  let t := s.dev.rsv.poison
  let free := (psnWindow x).find? fun k => !Tab.has t k
  if s.linePoisoned la then .skip
  else if s.psnLines x + 1 > s.fld .root F.DEV_PL_CTL_MAXL ∨ free = none then
    let kept := Tab.keep t fun _ e => e.x != x
    match (psnWindow x).find? fun k => !Tab.has kept k with
    | none => psnOverflow x
    | some k => Prog.rsv fun r => { r with poison := Tab.put kept k { x, line := 0, all := true, reason, time := s.time } }
  else match free with
    | none => .skip
    | some k => Prog.rsv fun r => { r with
        poison := Tab.put r.poison k { x, line := la % 32768, all := false, reason, time := s.time } }

/-- Add the lines of a range. -/
def psnAddLines (la n reason : Nat) : Prog := Prog.each (List.range n) fun i => psnAdd (la + i) reason

/-- Remove a line's own entry (R169). -/
def psnRemoveLine (la : Nat) : Prog := Prog.rsv fun r => { r with
  poison := Tab.keep r.poison fun _ e => !(e.x == la / 32768 && !e.all && e.line == la % 32768) }

/-- Remove every entry of an extent (R169). -/
def psnRemoveExtent (x : Nat) : Prog := Prog.rsv fun r => { r with poison := Tab.keep r.poison fun _ e => e.x != x }

/-! ### Write tracking (R81) -/

/-- Every line of an extent, as a mask (R80). -/
def allLines : Nat := 2 ^ 32768 - 1

/-- The lines of an extent that are on the poison list, as a mask (R92). -/
def State.poisonMask (s : State) (x : Nat) : Nat :=
  s.dev.rsv.poison.foldl (fun m e => if e.2.x = x then (if e.2.all then allLines else m ||| 2 ^ e.2.line) else m) 0

/-- A mask without the bits of another. -/
def maskDiff (a b : Nat) : Nat := a ^^^ (a &&& b)

/-- The lines of a mask in rising order. -/
def maskLines (m : Nat) : List Nat := if m = 0 then [] else (List.range 32768).filter fun b => bitOf m b

/-- The number of lines in a mask. -/
def maskCount (m : Nat) : Nat := (maskLines m).length

/-- The marked lines of a slot. -/
def State.marksOf (s : State) (t : Nat) : Nat := Tab.getD s.dev.mov.marks t 0

/-- Change a slot in use. -/
def slotUpd (t : Nat) (f : MovSlot → MovSlot) : Prog := Prog.mov fun m => { m with slots := Tab.upd m.slots t f }

/-- READY says that the marked lines are at or below HOLD_LINES (R85): an extent with more runs passes again (log entry 123). -/
def movUnready : Prog := .look fun s => Prog.mov fun m => { m with
  slots := Tab.mapAll m.slots fun t v =>
    if v.state = .ready ∧ s.fld .root F.DEV_MOV_CTL_HOLD_LINES < maskCount (s.marksOf t) then { v with state := .copy, word := 0, todo := 0 } else v }

/-- The bitmap slot of an extent that is moving at this home switch, from the seal of its entry on (R78, R81). -/
def State.trkSlot (s : State) (x : Nat) : Option Nat :=
  let e := s.entry x
  if e.type = .moving ∧ e.home = s.swid then some e.trk.val else none

/-- Set the bit of a line of an extent that is moving (R80, R81). -/
def track (la : Nat) : Prog := .look fun s =>
  Prog.opt (s.trkSlot (la / 32768)) fun t => Prog.seq (Prog.mov fun m =>
    { m with marks := Tab.put m.marks t (Tab.getD m.marks t 0 ||| 2 ^ (la % 32768)) }) movUnready

/-! ### Lost paths of a move (R95) -/

/-- Whether the mover copies for a slot in its state. -/
def MovSlot.copying (m : MovSlot) : Bool := !m.stopped && (m.state == .copy || m.state == .hot || m.state == .hold)

/-- The source path of a slot that is copied, or READY, is lost: copying stops (R95). -/
def movFailSrc (t : Nat) : Prog := .look fun s => Prog.opt (Tab.get? s.dev.mov.slots t) fun m =>
  Prog.when (m.copying || (m.state == .ready && !m.stopped)) (Prog.seq (slotUpd t fun v => { v with state := .failedSrc }) (raise 52 .root m.x))

/-- The module ports of a target (R48, R54). -/
def State.tgtPorts (s : State) : Option Tgt → List PortId
  | some (.module m _) => [mportOf m]
  | some (.stripe n _) => ((Tab.get? s.dev.xlat.ssets n.val).map fun t => t.members.map fun m => mportOf m.1).getD []
  | _ => []

/-- A module port goes down: the source path of every move from it is lost (R95). -/
def movPortLost (pt : PortId) : Prog := .look fun s => Prog.each s.dev.mov.slots fun e =>
  Prog.when ((s.tgtPorts (s.entry e.2.x).tgtA).contains pt) (movFailSrc e.1)

/-! ### Answers -/

/-- The bytes of a range of pool addresses, from the lines read; a line that came as poison without a value is a free value. -/
def poolBytes (c : PoolCmd) (f : Nat) : List Nat := (List.range c.len).map fun i =>
  let d := Tab.getD c.data ((c.gpa + i) / 64) (Config.freeLine (f + (c.gpa + i) / 64 - c.gpa / 64))
  (BitVec.extractLsb' ((c.gpa + i) % 64 * 8) 8 d).toNat

/-- A line of a pool access that runs is answered; with the last one the command is answered, with "data poisoned" where a line was poisoned or
failed, or the debug master has its data (R464, R489). -/
def poolAnswer (k la : Nat) (d : Option Line) (bad : Bool) : Prog := .look fun s => Prog.opt (Tab.get? s.dev.hw.pool k) fun c =>
  if !c.left.contains la then .skip
  else
    let c' := { c with
      left := c.left.filter fun l => l != la
      data := match d with | some v => Tab.put c.data la v | none => c.data
      bad := c.bad || bad }
    if !c'.left.isEmpty then Prog.hw fun h => { h with pool := Tab.put h.pool k c' }
    else Prog.all [
      Prog.hw fun h => { h with pool := Tab.erase h.pool k },
      Prog.each (List.range 65) fun _ => .eff .fresh,
      (match c'.hdr with
        | some h => reply h (if c'.bad then stPoisoned else stOk) (if c'.read then poolBytes c' s.fresh else [])
        | none => Prog.when c'.read (Prog.send (.debugData (poolBytes c' s.fresh))))]

/-- The read of an atomic operation has its line, or its write is accepted (R196 steps 3, 5). -/
def atomAnswer (id : Nat) (read : Bool) (d : Line) (poison : Bool) : Prog := Prog.coh fun c => { c with
  atoms := Tab.upd c.atoms id fun t => match t.step, read with
    | .reading, true => { t with step := .got d poison }
    | .writing old, false => { t with step := .wrote old }
    | _, _ => t }

/-- Send the answer of an access: data for a read, a completion otherwise. What the atomic unit reads and writes goes on there, Headwater's lines end
its accesses, and an answer to a port that is down is discarded (R133). -/
def answer (a : Acc) (d : Option Line) (poison : Bool) : Prog := match a.origin with
  | .atomic id => atomAnswer id a.op.isRead (d.getD 0) poison
  | .headwater k => poolAnswer k a.la (if a.op.isRead then d else none) (a.op.isRead && poison)
  | _ => .look fun s => Prog.when (!s.originDown a.origin)
      (outGo (.answer a.origin a.mv (if a.op.isRead then d else none) (a.op.isRead && poison)))

/-- The internal port of a line's stack. -/
def State.stackX (s : State) (la : Nat) : XPort :=
  XPort.int ⟨(setStack (s.cacheSet la)).val, by have := (setStack (s.cacheSet la)).isLt; omega⟩

/-- Whether a crossbar port is a stack controller's. -/
def isStackX (x : XPort) : Bool := decide (64 ≤ x.ix.val) && decide (x.ix.val < 68)

/-- The answer of a stack controller leaves its internal port as a response that no tracker entry holds a cell for, behind those that wait there (R117, R118). -/
def stackAnswer (a : Acc) (d : Option Line) (poison : Bool) : Prog := match a.origin with
  | .atomic _ | .headwater _ => answer a d poison
  | _ => .look fun s => Prog.when (!s.originDown a.origin)
      (xSend (s.stackX a.la) .mrsp (.answer a.origin a.mv (if a.op.isRead then d else none) (a.op.isRead && poison)))

/-- Answer an access that reaches no target: a read returns poison, a write is completed and dropped (R49, R62, R282). -/
def answerNone (a : Acc) : Prog := answer { a with mv := .i } none true

/-- Whether two accesses are the same read of the same requester. -/
def sameAcc (a b : Acc) : Bool := a.origin == b.origin && a.op == b.op && a.gpa == b.gpa

/-- A write of a line is accepted, or sent to its target: what a read of the line brings that was sent before is not installed, so that the cache holds no older
data than the write (R174). -/
def readsStale (la : Nat) : Prog := Prog.seq
  (Prog.ort fun o => { o with entries := Tab.mapAll o.entries fun _ e => match e.ctx with
    | .acc a d => if e.isOpen && a.op.isRead && a.la == la then { e with ctx := .acc { a with cmode := 0 } d } else e
    | _ => e })
  (Prog.rsv fun r => { r with reads := Tab.mapAll r.reads fun _ v =>
    if v.issued && v.acc.op.isRead && v.acc.la == la then { v with stale := true } else v })

/-- A write is accepted: its line is tracked, a full line leaves the poison list where DEV_PL_CTL.WCLR says so, and the requester has its completion (R81,
R169), as `done` sends it. -/
def acceptBy (done : Prog) (a : Acc) : Prog := .look fun s => Prog.all [
  track a.la,
  readsStale a.la,
  Prog.when (a.op == .memWr && s.flag .root F.DEV_PL_CTL_WCLR) (psnRemoveLine a.la),
  done]

/-- A write is accepted by a stack controller. -/
def acceptWrite (a : Acc) : Prog := acceptBy (stackAnswer a none false) a

/-! ### The memory-side cache -/

/-- The ways of a set, by number. -/
def State.way? (s : State) (set w : Nat) : Option Way := Tab.get? s.dev.rsv.ways (wayKey set w)

/-- The way of a set that holds a line. -/
def State.findWay (s : State) (set la : Nat) : Option Nat :=
  (List.range 16).find? fun w => match s.way? set w with
    | some y => !y.lost && y.la == la
    | none => false

/-- The pinned ways of a set (R153). -/
def State.pinCount (s : State) (set : Nat) : Nat :=
  ((List.range 16).filter fun w => match s.way? set w with
    | some y => y.pin
    | none => false).length

/-- Whether a set serves a Reservoir-pinned unit that a committed or sealed entry names (R157, R159). -/
def State.unitNamed (s : State) (u : Nat) : Bool :=
  let names := fun (e : MapEntry) => decide (e.tgtA = some (.pinned u)) || decide (e.tgtB = some (.pinned u))
  s.dev.xlat.map.any (fun e => e.2.home == s.swid && names e.2)
    || (match s.dev.xlat.adv with
      | some a => a.sealed.any (fun e => e.2.home == s.swid && names e.2) || a.units.contains u
      | none => false)

/-- Whether a cache set is suspect; one that serves a Reservoir-pinned unit never is (R161). -/
def State.setSuspect (s : State) (set : Nat) : Bool :=
  (s.dev.rsv.suspectAll || s.dev.rsv.suspect.contains set) && !s.unitNamed (set / 2048)

/-- The Reservoir-pinned units an entry names. -/
def MapEntry.units (e : MapEntry) : List Nat :=
  [e.tgtA, e.tgtB].filterMap fun t => match t with
    | some (.pinned u) => some u
    | _ => none

/-- The extent whose committed or sealed entry names a Reservoir-pinned unit. -/
def State.unitExtent (s : State) (u : Nat) : Option Nat :=
  let hit := fun (e : Nat × MapEntry) => e.2.home == s.swid && e.2.units.contains u
  ((s.dev.xlat.map.find? hit).orElse fun _ => s.dev.xlat.adv.bind fun a => a.sealed.find? hit).map Prod.fst

/-- What a way of the cache region holds: a place of a named unit that nothing has written since its withdrawal holds zeros, with V and PU set and the line's own
address (R158). -/
def State.placeWay (s : State) (set w : Nat) : Option Way :=
  match s.way? set w with
  | some y => some y
  | none =>
    if !s.unitNamed (set / 2048) then none
    else (s.unitExtent (set / 2048)).map fun x =>
      { la := x * 32768 + w * 2048 + set % 2048, dirty := false, pin := false, pu := true, lost := false, data := 0 }

/-- Whether the cache allocates (R146, DEV_RSV_CCTL.NOALLOC). -/
def State.mayAllocate (s : State) : Bool :=
  !s.flag .root F.DEV_RSV_CCTL_NOALLOC && s.fld .root F.DEV_RSV_RSZ_STATE == 0

/-- Whether a line may be installed: the cache allocates, and the line's set serves no Reservoir-pinned unit (R151). -/
def State.mayInstall (s : State) (la : Nat) : Bool := s.mayAllocate && !s.unitNamed (s.cacheSet la / 2048)

/-- The pseudo-channel offset of the cache region (R142). -/
def State.cacheBase (s : State) : Nat := (4 + s.fld .root F.DEV_RSV_PART_MAP_GIB) * 2 ^ 23

/-- The pseudo-channel offset of a cache set's ways (R147). -/
def State.setOffset (s : State) (set : Nat) : Nat := s.cacheBase + set / 8 * 64

/-- A write of a way overtakes a scrub read of its line that is outstanding (R164). -/
def scrubTouch (set w : Nat) : Prog := .look fun s =>
  let k := (setStack set).val * 32 + (set % 2 * 16 + w % 16)
  let line := s.setOffset set / 64
  Prog.when (Tab.has s.dev.rsv.scrub k) (Prog.rsv fun r => { r with
    scrub := Tab.upd r.scrub k fun l => l.map fun n => if n.line = line then { n with overtaken := true } else n })

/-- The cache set and way at a pseudo-channel offset of the cache region (R147). -/
def State.wayAt (s : State) (st : Fin 4) (c : Fin 32) (o : Nat) : Nat × Nat :=
  ((o - s.cacheBase) / 64 * 8 + st.val * 2 + c.val / 16, c.val % 16)

/-- The ways that a test picks change at once: each is a write of its line that overtakes an outstanding scrub read (R164). -/
def scrubTouchBy (p : Nat → Nat → Bool) : Prog := .look fun s => Prog.rsv fun r => { r with
  scrub := Tab.mapAll r.scrub fun k l => l.map fun n =>
    let at_ := s.wayAt ⟨k / 32 % 4, Nat.mod_lt _ (by decide)⟩ ⟨k % 32, Nat.mod_lt _ (by decide)⟩ (n.line * 64)
    if s.cacheBase ≤ n.line * 64 ∧ p at_.1 at_.2 = true then { n with overtaken := true } else n }

/-- Change every way that a test picks: it leaves, or takes the value given (R155, R158, R161). -/
def waysChange (p : Nat → Way → Bool) (f : Way → Option Way) : Prog := .look fun s => Prog.seq
  (Prog.rsv fun r => { r with
    ways := (Tab.keep r.ways fun k y => !p k y || (f y).isSome) |> fun t => Tab.mapAll t fun k y => if p k y then (f y).getD y else y })
  (scrubTouchBy fun set w => (s.way? set w).any fun y => p (wayKey set w) y && f y != some y)

/-- Store a way. -/
def putWay (set w : Nat) (y : Way) : Prog := Prog.seq
  (Prog.rsv fun r => { r with ways := Tab.put r.ways (wayKey set w) y }) (scrubTouch set w)

/-- Empty a way. -/
def dropWay (set w : Nat) : Prog := Prog.seq
  (Prog.rsv fun r => { r with ways := Tab.erase r.ways (wayKey set w) }) (scrubTouch set w)

end Sys2Proof.Machine
end

