-- ==== Sys2Proof/Machine/FloodOps.lean ====
section
/-!
DEFINITION. Machine/FloodOps.lean: the Floodplain: occupancy, admission, the Spillway, trim notices, the egress schedulers, the flush of a
port that goes down (R99-R121, R132-R136), and the choice of sampled packets (R507).
-/
namespace Sys2Proof.Machine

/-! ### Sampling (R507, R508) -/

/-- Whether an ingress is sampled; a fenced e6 samples nothing (R434). -/
def State.smpOn (s : State) (x : XPort) : Bool :=
  s.flag .root F.GAU_SMP_CFG_EN && !s.isFenced (.engine 6) &&
    (if x.ix.val < 64 then bitOf (s.fld .root F.GAU_SMP_PORTS_MASK) x.ix.val
     else bitOf (s.fld .root F.GAU_SMP_CFG_XMASK) (x.ix.val - 64))

/-- The next state of an LFSR with polynomial x^8 + x^6 + x^5 + x^4 + 1 (R507); its form is the model's (log entry 21). -/
def lfsrNext (v : Nat) : Nat :=
  (v * 2 + (v / 128 + v / 32 + v / 16 + v / 8) % 2) % 256

/-- The seed of an ingress's LFSR (R507). -/
def smpSeed (seed ix : Nat) : Nat := if seed ^^^ ix = 0 then 1 else (seed ^^^ ix) % 256

/-- A gap counter just loaded from an LFSR state. -/
def smpLoad (log2n l : Nat) : SmpGen := { lfsr := lfsrNext l, count := 0, gap := 2 ^ log2n - 128 + lfsrNext l }

/-- Count a packet whose first cell arrives: the packet at which the counter reaches the gap is sampled, beside at most 255 others
that are followed, and the gap is loaded anew (R507, R508). -/
def smpArrive (c : Cell) (egr : Option XPort) : Prog := .look fun s =>
  let ix := c.ing.ix.val
  let n := s.fld .root F.GAU_SMP_CFG_LOG2N
  let mask := s.fld .root F.GAU_SMP_CFG_CLSMASK
  if !s.smpOn c.ing || !(mask == 0 || bitOf mask c.cls.num) || !c.sop then .skip
  else
    let g := Tab.getD s.dev.gau.gens ix (smpLoad n (smpSeed (s.fld .root F.GAU_SMP_CFG_SEED) ix))
    if g.count + 1 < g.gap then Prog.gau fun v => { v with gens := Tab.put v.gens ix { g with count := g.count + 1 } }
    else Prog.seq (Prog.gau fun v => { v with gens := Tab.put v.gens ix (smpLoad n g.lfsr) })
      (match Tab.freeBelow s.dev.gau.samples 256 with
      | none => Prog.add .root F.GAU_SMP_LOST_BUSY 1
      | some k => Prog.gau fun v => { v with samples := Tab.put v.samples k { cell := c, egr, tIn := s.time } })

/-! ### Queues -/

/-- Set the class queue at a key; an empty one is not listed. -/
def setQueueAt (k : Nat) (l : List Pkt) : Prog := Prog.flood fun f =>
  { f with queues := if l.isEmpty then Tab.erase f.queues k else Tab.put f.queues k l }

/-- Set an egress class queue. -/
def setQueue (x : XPort) (c : Cls) (l : List Pkt) : Prog := setQueueAt (qKey x c) l

/-- Give back the Floodplain space of cells. -/
def fpRelease (l : List HeldCell) : Prog := Prog.each l fun h => fpCount h.cell.cls h.inRes 0 1

/-- Give back what a packet counts for. -/
def pktRelease (p : Pkt) : Prog := Prog.seq (fpRelease p.held) (Prog.when (p.owed != 0) (fpCount p.first.cls false 0 p.owed))

/-- A trim notice made of the first cell of an RMAB packet (R114, R219). -/
def trimCell (c : Cell) : Cell :=
  { c with cls := .rmac, sop := true, eop := true, bytes := 64, cells := 1, opc := 7,
           answers := false, ort := none, data := false,
           mill := c.mill.map fun m => { m with type := .trim, orig := some m.type },
           content := match c.mill with | some m => trimContent m c.content | none => c.content }

/-- Discard the later cells of a packet as they arrive at its ingress. -/
def dropLater (c : Cell) : Prog := Prog.flood fun f =>
  { f with dropRest := if f.dropRest.contains (qKey c.ing c.cls) then f.dropRest else f.dropRest ++ [qKey c.ing c.cls] }

/-- Evict the packet at a place of an egress's RMAB queue and trim it (R113, R114, R116). -/
def evict (x : XPort) (i : Nat) : Prog := .look fun s =>
  let q := s.queue x .rmab
  match q[i]? with
  | none => .skip
  | some p =>
    let note : Pkt := { first := trimCell p.first, held := [{ cell := trimCell p.first, inRes := false }], complete := true,
                        started := false, cut := false, sent := 0, at_ := s.time, owed := 0 }
    Prog.all [
      setQueue x .rmab (q.eraseIdx i),
      pktRelease p,
      fpCount .rmac false 1 0,
      setQueue x .rmac (s.queue x .rmac ++ [note]),
      Prog.when (!p.complete) (dropLater p.first),
      gauge x.unit 0x48 none 1,
      raise 56 x.evUnit 0]

/-- The youngest packet of a queue whose first cell has not begun transmission: its place. -/
def youngestIdle : List Pkt → Nat → Option (Nat × Nat) → Option Nat
  | [], _, best => best.map Prod.fst
  | p :: r, i, best =>
    if p.started then youngestIdle r (i + 1) best
    else match best with
      | none => youngestIdle r (i + 1) (some (i, p.at_))
      | some (j, t) => youngestIdle r (i + 1) (if p.at_ ≥ t then some (i, p.at_) else some (j, t))

/-- The egress the Spillway takes from: the longest RMAB queue in cells with a packet not yet begun, the lowest port on a tie,
p0 before p1 (R113). -/
def State.spillFrom (s : State) : Option XPort :=
  let cands := s.dev.flood.queues.filter fun e => e.1 % 8 == Cls.rmab.num && e.2.any fun p => !p.started
  let len := fun (e : Nat × List Pkt) => (e.2.map Pkt.size).sum
  match cands with
  | [] => none
  | e :: r => some (xOfKey ((r.foldl (fun b c => if len c > len b then c else b) e).1 / 8))

/-- One push-out by the Spillway, where anything is evictable (R112, R113). -/
def spill : Prog := .look fun s => Prog.opt s.spillFrom fun x =>
  Prog.opt (youngestIdle (s.queue x .rmab) 0 none) fun i => evict x i

/-- How many evictions are possible at most. -/
def State.spillable (s : State) : Nat :=
  ((s.dev.flood.queues.filter fun e => e.1 % 8 == Cls.rmab.num).map fun e => (e.2.filter fun p => !p.started).length).sum

/-! ### Admission -/

/-- Whether an answer names an OPEN tracker entry of its generation that no other answer has reached (R126). -/
def State.ortAwaits (s : State) (o : Nat × Nat) : Bool := (Tab.get? s.dev.ort.entries o.1).any fun e => e.isOpen && e.gen == o.2 && !e.taken

/-- Whether a cell is held for an arriving one: it answers a tracked request, or a snoop of this device (R110, R118). -/
def State.hasRoom (s : State) (c : Cell) : Bool := c.answers && (c.ort.any s.ortAwaits || (c.cls == .birs && match c.dst with
  | .here x => x.port?.isNone
  | .switch _ => false))

/-- Whether a cell is a late answer: the tracker entry it names is not OPEN, or of another generation (R126). -/
def State.isLate (s : State) (c : Cell) : Bool := c.answers && c.sop && c.ort.any fun o => !s.ortAwaits o

/-- A response takes the cell that is held for it (R110). -/
def takeHeld (c : Cell) : Prog := Prog.opt c.ort fun o => Prog.ort fun t => { t with
    entries := Tab.upd t.entries o.1 fun e => if e.isOpen && e.gen == o.2 then { e with taken := true } else e }

/-- A part with room for a cell of a lossless class: reserved first, then shared (R108); a response takes the cell that is held
for it (R110, R118), a trim notice takes shared space beyond SHMAX (R109). -/
def State.fpRoom (s : State) (c : Cell) (notice : Bool) : Option Bool :=
  if s.hasRoom c then some true else s.clsRoom c.cls notice

/-- Take the first cell of a class and pool out of a receive pool. -/
def poolTake : List (Nat × Bool) → Nat → Option Bool × List (Nat × Bool)
  | [], _ => (none, [])
  | (k, r) :: l, c => if k = c then (some r, l) else
    match poolTake l c with
    | (o, l') => (o, (k, r) :: l')

/-- A cell that came over a fabric link leaves its receive pool, and its credit is due for return, once for each cell (R335). -/
def poolLeave (x : XPort) (c : Cls) : Prog := Prog.link fun k => { k with
  fl := Tab.upd k.fl x.ix.val fun l =>
    let paid := Tab.getD l.rxPaid c.num 0
    if 0 < paid then { l with rxPaid := Tab.setD l.rxPaid 0 c.num (paid - 1) }
    else match poolTake l.rxPool c.num with
    | (some r, p) =>
      let pool := if r then c.num else 7
      { l with rxPool := p, ret := Tab.put l.ret pool (Tab.getD l.ret pool 0 + 1) }
    | (none, _) => l }

/-- Whether a crossbar port is a fabric port. -/
def State.isFab (s : State) (x : XPort) : Bool := match x.port? with | some pt => s.mode pt.g == .f | none => false

/-- Whether a packet takes the Col path: its class queue is empty, the egress idle, and the next hop and the rates allow it (R103); one that comes over a fabric link
only toward a fabric port (R342). -/
def State.colPath (s : State) (x : XPort) (c : Cell) (fast : Bool) : Bool :=
  fast && (s.queue x c.cls).isEmpty && ((Tab.get? s.dev.flood.egress x.key).bind fun e => e.sending).isNone && (!s.isFab c.ing || s.isFab x)

/-- Put an admitted cell at its egress (R100, R103): the first cell of a packet makes a new packet in its class queue, a later
cell joins the packet of its ingress that is not complete. -/
def enqueue (x : XPort) (c : Cell) (inRes fast notice : Bool) : Prog := .look fun s =>
  let q := s.queue x c.cls
  let h : HeldCell := { cell := c, inRes }
  let q' := if c.sop then
      q ++ [{ first := c, held := [h], complete := c.eop, started := false, cut := s.colPath x c fast, sent := 0,
              at_ := s.time, owed := 0 }]
    else q.map fun p => if p.first.ing == c.ing && !p.complete then { p with held := p.held ++ [h], complete := c.eop } else p
  Prog.all [
    fpCount c.cls inRes 1 0,
    setQueue x c.cls q',
    Prog.when (s.hasRoom c) (takeHeld c),
    Prog.when (!notice) (poolLeave c.ing c.cls),
    gauge c.ing.unit 0x01 (some c.cls) c.bytes,
    gauge c.ing.unit 0x03 (some c.cls) 1,
    fpPeak]

/-- Admit a cell where there is room, spilling as long as that helps (R108, R112); otherwise go on with `full`. -/
def admitTry (x : XPort) (c : Cell) (notice fast : Bool) (full : Prog) : Nat → Prog
  | 0 => .look fun s => match s.fpRoom c notice with
    | some r => enqueue x c r fast notice
    | none => full
  | n + 1 => .look fun s => match s.fpRoom c notice with
    | some r => enqueue x c r fast notice
    | none => if s.spillFrom.isNone then full else Prog.seq spill (admitTry x c notice fast full n)

/-- The admission of a lossless cell with an egress (R108, R112): at the push-out threshold one packet is evicted first. -/
def floodAdmit (x : XPort) (c : Cell) (notice fast : Bool) (full : Prog) : Prog := .look fun s =>
  Prog.seq (Prog.when (s.fpTotal ≥ s.fld .root F.DEV_FP_PO_PO_THR) spill)
    (.look fun t => admitTry x c notice fast full t.spillable)

/-- Declare the path of one tracker entry lost, where its generation fits (R127, R136). -/
def loseEntry (o : Nat × Nat) : Prog := Prog.ort fun t => { t with
  entries := Tab.upd t.entries o.1 fun e => if e.gen = o.2 ∧ e.isOpen = true then { e with lost := true } else e }

/-- Whose answer a routed request waits for: a host's, or that of the switch it came from, with the tag its tracker gave (R125). -/
def State.cellOrigin (s : State) (c : Cell) (r : ReqInfo) : Origin :=
  match c.ing.port? with
  | some pt => if s.mode pt.g = .h then .host pt r.tag else .switch c.srcSw c.ing (c.ort.getD (0, 0))
  | none => .switch c.srcSw c.ing (c.ort.getD (0, 0))

/-- A request cell that e7 is to answer takes an entry whose path is lost (R128, R136, R251), or waits for one; `pool` says that it stands in a receive pool. -/
def lostOpen (c : Cell) (pool : Bool) : Prog := .look fun s => Prog.opt c.req fun r =>
  ortOpen c.ing r c.ing (match c.dst with | .switch d => some d | .here _ => none) c.epar true (.fwd (s.cellOrigin c r)) (waitAt c.ing c.cls (.lost c pool))
    fun _ _ _ => Prog.when pool (poolLeave c.ing c.cls)

/-- A cell with nowhere to go (R251): a request that must be answered is tracked as a lost path at once, any other cell is
discarded; EV100. -/
def noRoute (c : Cell) (d : Fin 16) : Prog := Prog.seq (raise 100 c.ing.evUnit d.val)
  (match c.req, c.ort with
  | some _, _ => lostOpen c true
  | none, some o => Prog.seq (poolLeave c.ing c.cls) (Prog.when (!c.answers) (loseEntry o))
  | none, none => poolLeave c.ing c.cls)

/-- The egress of a cell and the cell as it leaves: a cell from the fabric that goes on into the fabric has its HOPS taken down,
and one that would leave with none left has no egress (R249, R252, R253). -/
def State.cellEgress (s : State) (c : Cell) : Option (XPort × Cell) :=
  match c.dst with
  | .here x => some (x, c)
  | .switch d =>
    let fromFab : Bool := match c.ing.port? with | some pt => s.mode pt.g == .f | none => false
    let hops : Nat := if fromFab then c.hops.val - 1 else s.fld .root F.DEV_FAB_ID_MAXHOP
    if hops = 0 then none
    else (s.route c.cls c.srcSw d).map fun x => (x, { c with hops := ⟨hops % 16, Nat.mod_lt _ (by decide)⟩ })

/-- The switch a cell is for. -/
def cellDstSw (c : Cell) (own : Fin 16) : Fin 16 := match c.dst with | .switch d => d | .here _ => own

/-! ### Packets that do not come whole (R120, R121, R134, R343, R344) -/

/-- A request cell that goes no further takes back the tracker entry it opened here (R121). -/
def ortUndo (c : Cell) : Prog := Prog.opt c.ort fun o => Prog.when (!c.answers) (Prog.ort fun t =>
  if (Tab.get? t.entries o.1).any fun e => e.isOpen && e.gen == o.2 && e.port == c.ing then
    { t with entries := Tab.erase t.entries o.1, gens := Tab.setD t.gens 0 o.1 o.2 }
  else t)

/-- A packet that an egress has begun ends there: a fabric egress stomps it, counts the stomp and logs EV061 (R120, R343). -/
def cutShort (x : XPort) : Prog := .look fun s => Prog.seq
  (Prog.flood fun f => { f with egress := Tab.upd f.egress x.key fun w => { w with sending := none } })
  (Prog.opt x.port? fun pt => Prog.when (s.mode pt.g == .f) (Prog.seq (linkStomp pt.g) (raise 61 (fabPort pt.g) 0)))

/-- The packets of an ingress and class whose last cell is not admitted leave their queues: their space and the tracker entries they opened return, and what an egress
has begun is cut short. -/
def dropIncomplete (ing : XPort) (k : Nat) : Prog := .look fun s =>
  let own := fun (p : Pkt) => p.first.ing == ing && !p.complete
  Prog.each (s.dev.flood.queues.filter fun e => e.1 % 8 == k) fun e =>
    let gone := e.2.filter own
    Prog.when (!gone.isEmpty) (Prog.all [
      Prog.each gone fun p => Prog.seq (pktRelease p) (ortUndo p.first),
      setQueueAt e.1 (e.2.filter fun p => !own p),
      Prog.when (gone.any fun p => p.started) (cutShort (xOfKey (e.1 / 8)))])

/-- Whether what waits is the last cell of a packet, or any cell of one. -/
def Wait.ends (w : Wait) : Bool := match w with | .cell c => c.eop | _ => false
def Wait.isCell (w : Wait) : Bool := match w with | .cell _ => true | _ => false

/-- The cells of a queue that waits behind the last cell that ends a packet: the packet they are of has not come whole. -/
def waitTail (l : List Wait) : List Wait := (l.reverse.takeWhile fun w => !w.ends).filter Wait.isCell

/-- What waits of whole packets, and what is no cell. -/
def waitWhole (l : List Wait) : List Wait :=
  let n := (l.reverse.takeWhile fun w => !w.ends).length
  l.take (l.length - n) ++ (l.drop (l.length - n)).filter fun w => !w.isCell

/-- The packet of an ingress and class whose last cell has not come goes; a packet whose last cell waits is whole. `own` says that what the queues hold of an incomplete
packet is of this one, and `leave` what its cells that waited do. -/
def dropLast (ing : XPort) (c : Cls) (own : Bool) (leave : Prog) : Prog := .look fun s =>
  let l := Tab.getD s.dev.flood.waiting (qKey ing c) []
  Prog.all [
    Prog.flood fun f => { f with waiting := Tab.upd f.waiting (qKey ing c) waitWhole },
    Prog.each (waitTail l) fun w => Prog.seq leave (match w with | .cell d => ortUndo d | _ => .skip),
    Prog.when (own && !l.any Wait.ends) (dropIncomplete ing c.num)]

/-- Drop the packet of an ingress and class whose last cell has not come: a cell of it was stomped (R120). Cells of it that waited leave the receive pool (R335). -/
def dropPartial (ing : XPort) (c : Cls) : Prog := dropLast ing c true (poolLeave ing c)

/-- Whether requests that leave at an egress are tracked: it is a port in mode M or F (R122). -/
def State.tracksAt (s : State) (x : XPort) : Bool :=
  match x.port? with
  | some pt => s.mode pt.g == .m || s.mode pt.g == .f
  | none => false

/-- A cell goes toward its egress (R108, R122): a non-posted request that no entry of this switch tracks takes one before it enters the crossbar; what finds no entry
or no space waits. -/
def cellAdmit (x : XPort) (c : Cell) (fast : Bool) : Prog := .look fun s =>
  let go := fun (d : Cell) => floodAdmit x d false fast (waitAt c.ing c.cls (.cell d))
  match c.req with
  | none => go c
  | some r =>
    if !s.tracksAt x then go c
    else ortOpen c.ing r x (match c.dst with | .switch d => some d | .here _ => none) c.epar false (.fwd (s.cellOrigin c r))
      (waitAt c.ing c.cls (.cell c)) fun i g _ => go { c with ort := some (i, g), req := none }

/-- Whether a fabric link carries no cell of a kind (R258): UP carries every class, AUTH the IOTX packets of SPDM for X7, any other state none. -/
def State.linkShut (s : State) (c : Cell) : Bool := match c.ing.port? with
  | some pt =>
    let st := s.fld (.port ⟨pt.g, 0⟩) F.PRT_FAB_STAT_STATE
    s.mode pt.g == .f && st != 4 && !(st == 2 && c.cls == .iotx && c.dst == .here (XPort.int 7))
  | none => false

/-- A lossless cell arrives at its ingress (R108, R112, R117, R121, R126, R134, R251). `fast` says that the next hop has credit and the egress
is no faster than the ingress (R103). -/
def losslessArrive (c : Cell) (fast : Bool) : Prog := .look fun s =>
  let k := qKey c.ing c.cls
  if s.xDown c.ing || c.cls == .rmab then .skip
  else if s.linkShut c then poolLeave c.ing c.cls
  else if !c.sop && s.dev.flood.dropRest.contains k then
    Prog.seq (poolLeave c.ing c.cls) (Prog.when c.eop (Prog.flood fun f => { f with dropRest := f.dropRest.filter fun j => j != k }))
  else if c.bad then Prog.seq (poolLeave c.ing c.cls) (dropPartial c.ing c.cls)
  else if s.isLate c then Prog.all [
    poolLeave c.ing c.cls, Prog.add .root F.DEV_ORT_LATE_COUNT 1, raise 60 c.ing.evUnit 0, Prog.when (!c.eop) (dropLater c)]
  else match s.cellEgress c with
    | none => Prog.all [smpArrive c none, noRoute c (cellDstSw c s.swid), Prog.when (!c.eop) (dropLater c)]
    | some (x, c') =>
      if s.xDown x then Prog.all [poolLeave c.ing c.cls, smpArrive c (some x), Prog.when (!c.eop) (dropLater c)]
      else if !s.ingressFree c.ing c.cls && !s.hasRoom c then Prog.seq (smpArrive c (some x)) (waitAt c.ing c.cls (.cell c'))
      else Prog.seq (smpArrive c (some x)) (cellAdmit x c' fast)

/-- A bulk packet's cells, from its first and the content of the others (R99, R100): the payload that the header counts follows it, 128 bytes to a cell. -/
def bulkCells (c : Cell) (rest : List (BitVec 1024)) : List Cell := (List.range c.cells).map fun i => { c with
  sop := i == 0
  eop := i + 1 == c.cells
  content := if i = 0 then c.content else rest.getD (i - 1) 0
  bytes := if i = 0 then c.bytes else match c.mill with
    | some m => max 1 (min 128 (m.len - 128 * (i - 1)))
    | none => 128 }

/-- A later cell of a bulk packet arrives: it joins its packet, or is discarded with it (R109, R113, R120). -/
def bulkNext (c : Cell) : Prog := .look fun s =>
  let k := qKey c.ing .rmab
  let own := fun (p : Pkt) => p.first.ing == c.ing && !p.complete
  Prog.seq (poolLeave c.ing .rmab)
    (if s.dev.flood.dropRest.contains k then
      Prog.when c.eop (Prog.flood fun f => { f with dropRest := f.dropRest.filter fun j => j != k })
    else if c.bad then dropPartial c.ing .rmab
    else Prog.opt (Tab.find s.dev.flood.queues fun j q => j % 8 == Cls.rmab.num && q.any own) fun e => Prog.all [
      setQueueAt e.1 (e.2.map fun p => if own p then
        { p with held := p.held ++ [{ cell := { c with dst := p.first.dst, hops := p.first.hops }, inRes := false }], complete := c.eop, owed := p.owed - 1 }
        else p),
      gauge c.ing.unit 0x01 (some .rmab) c.bytes,
      gauge c.ing.unit 0x03 (some .rmab) 1])

/-- An RMAB packet arrives, whole or with its first cell (R109): all its cells are admitted together, or it is trimmed. -/
def bulkArrive (b : BulkIn) : Prog := .look fun s =>
  let c := b.cell
  if s.xDown c.ing || c.cls != .rmab then .skip
  else if s.linkShut c then Prog.each (List.range (if b.whole then c.cells else 1)) fun _ => poolLeave c.ing .rmab
  else if !c.sop then bulkNext c
  else
    let n := c.cells
    let here := if b.whole then n else min 1 n
    let leave := Prog.each (List.range here) fun _ => poolLeave c.ing .rmab
    let rest := Prog.when (!b.whole) (dropLater c)
    if c.bad then Prog.seq leave rest
    else match s.cellEgress c with
    | none => Prog.all [leave, smpArrive c none, raise 100 c.ing.evUnit (cellDstSw c s.swid).val, rest]
    | some (x, c') =>
      let ok := decide (s.shCount .rmab + n ≤ s.shMax .rmab) && decide (s.queueCells x .rmab + n ≤ s.fld .root F.DEV_FP_RB_QMAX)
        && decide (s.fpTotal < s.fld .root F.DEV_FP_PO_PO_THR) && decide (n ≤ s.shFree)
      let held := (bulkCells c' b.rest).take here
      if s.xDown x then Prog.all [leave, smpArrive c (some x), rest]
      else if ok then Prog.all [
        leave,
        smpArrive c (some x),
        fpCount .rmab false n 0,
        setQueue x .rmab (s.queue x .rmab ++ [{
          first := c', held := held.map fun d => { cell := d, inRes := false }, complete := here == n, started := false,
          cut := s.colPath x c' b.fast, sent := 0, at_ := s.time, owed := n - here }]),
        gauge c.ing.unit 0x01 (some .rmab) (held.map Cell.bytes).sum,
        gauge c.ing.unit 0x03 (some .rmab) here,
        fpPeak]
      else
        let t := trimCell c'
        let tx := match c.dst with | .here y => some y | .switch d => s.route .rmac c.srcSw d
        Prog.all [
          leave,
          rest,
          smpArrive c (some x),
          gauge x.unit 0x48 none 1,
          raise 57 c.ing.evUnit 0,
          Prog.opt tx fun y => admitTry y t true false (waitAt c.ing .rmac (.notice t)) s.spillable]

/-! ### Egress (R102, R116) -/

/-- The tier 2 classes in the order of their round (R102). -/
def tier2 : List Cls := [.bisn, .rmac, .mreq, .iotx]

/-- An egress scheduler that nothing has used. -/
def Egress.idle : Egress := { sending := none, deficit := [], turn := 0 }

/-- Deficit round robin (R102): the class whose turn it is sends while its deficit covers the cells it would send now and it has something to send; the turn
then passes on, and the next class gains its quantum. -/
def drr (elig : Cls → Bool) (quantum cost : Cls → Nat) : Nat → Egress → Option Cls × Egress
  | 0, e => (none, e)
  | n + 1, e =>
    let c := tier2.getD (e.turn % 4) .bisn
    let d := Tab.getD e.deficit c.num 0
    if elig c && decide (cost c ≤ d) then (some c, { e with deficit := Tab.setD e.deficit 0 c.num (d - cost c) })
    else
      let c' := tier2.getD ((e.turn + 1) % 4) .bisn
      let left := Tab.setD e.deficit 0 c.num (if elig c then d else 0)
      drr elig quantum cost n { e with turn := (e.turn + 1) % 4, deficit := Tab.setD left 0 c'.num (Tab.getD left c'.num 0 + quantum c') }

/-- Whether the packet at the head of a class queue has a cell to send: the whole packet is there, or it takes the Col path or
has begun (R103). -/
def State.headReady (s : State) (x : XPort) (c : Cls) : Bool :=
  match s.queue x c with
  | p :: _ => !p.held.isEmpty && (p.complete || p.cut || p.started)
  | [] => false

/-- The cells that a choice lets a class send: one, or at a fabric port those of the packet at its head (R102, log entry 131). -/
def State.sendCost (s : State) (x : XPort) (fab : Bool) (c : Cls) : Nat :=
  match s.queue x c with
  | p :: _ => if fab then max 1 p.first.cells else 1
  | [] => 1

/-- Whether an engine behind an internal port quiesces: e0 behind X4, e1 behind X5, e2 and e3 behind X6. It takes no work then, and arrivals wait (R117, R479). -/
def State.engineHolds (s : State) (x : XPort) : Bool :=
  let quiet := fun (e : Fin 8) => s.fld (.engine e) F.ENG_STAT_STATE == 1
  (x == XPort.int 4 && quiet 0) || (x == XPort.int 5 && quiet 1) || (x == XPort.int 6 && (quiet 2 || quiet 3))

/-- Choose the class that sends next (R102): at a fabric port a packet in transmission goes on to its end; to an engine that quiesces nothing goes (R479). -/
def State.choose (s : State) (x : XPort) (credit : Cls → Bool) : Option Cls × Egress :=
  let e := Tab.getD s.dev.flood.egress x.key Egress.idle
  let elig := fun c => credit c && s.headReady x c && !s.engineHolds x
  let fab : Bool := match x.port? with | some pt => s.mode pt.g == .f | none => false
  match fab, e.sending with
  | true, some c => (if elig c then some c else none, e)
  | _, _ =>
    if elig .birs then (some .birs, e)
    else if elig .mrsp then (some .mrsp, e)
    else match drr elig (fun c => s.fldn .root F.DEV_FP_CLS_CFG_WEIGHT c.num * 8) (s.sendCost x fab) 24 e with
      | (some c, e') => (some c, e')
      | (none, e') => (if elig .rmab then some .rmab else none, e')

/-- Drop the packet at the head of a class queue. -/
def dropHead (x : XPort) (c : Cls) : Prog := .look fun s =>
  match s.queue x c with
  | [] => .skip
  | p :: r => Prog.all [pktRelease p, setQueue x c r, Prog.when (!p.complete) (dropLater p.first)]

/-- A cell as it leaves: an answer to a request of another switch names that switch's entry (R125). -/
def State.leaving (s : State) (c : Cell) : Cell :=
  match (if c.answers then c.ort else none).bind fun o => (Tab.get? s.dev.ort.entries o.1).filter fun e => e.isOpen && e.gen == o.2 with
  | some e => { c with ort := match e.ctx with | .fwd (.switch _ _ t) => some t | _ => none }
  | none => c

/-- The entry that an answer names is FREE once the last cell of the answer has left (R130). -/
def ortLeft (c : Cell) : Prog := .look fun s => Prog.opt c.ort fun o =>
  Prog.when (c.answers && c.eop && (Tab.get? s.dev.ort.entries o.1).any fun e => e.isOpen && e.gen == o.2) (ortFree o.1)

/-- Whether a cell that the Floodplain's code cannot correct is still sent, as poison: it carries the data of a response (R136). -/
def poisonable (c : Cell) : Bool := c.answers && c.data

/-- The egress sends its next cell; `ecc` is what the Floodplain's code says of it (R102, R136). A request cell that reads uncorrectable is answered by e7: its entry's
path is lost, or it takes an entry whose path is. -/
def cellSend (x : XPort) (credit : Cls → Bool) (ecc : Ecc) : Prog := .look fun s =>
  match s.choose x credit with
  | (none, e) => Prog.flood fun f => { f with egress := Tab.put f.egress x.key e }
  | (some c, e) =>
    match s.queue x c with
    | [] => .skip
    | p :: r => match p.held with
      | [] => .skip
      | h :: hs =>
        let lastOne := hs.isEmpty && p.complete
        let cell := s.leaving (if ecc = .uncorrectable then { h.cell with psn := true } else h.cell)
        let flag := match ecc with
          | .ok => Prog.skip
          | .corrected => raise 63 x.evUnit 0
          | .uncorrectable => raise 64 x.evUnit 0
        if ecc = .uncorrectable ∧ !poisonable h.cell then
          Prog.all [
            dropHead x c,
            Prog.when (!h.cell.answers) (if h.cell.req.isSome then lostOpen h.cell false else Prog.opt h.cell.ort loseEntry),
            Prog.flood fun f => { f with egress := Tab.put f.egress x.key { e with sending := none } },
            flag]
        else Prog.all [
          fpCount h.cell.cls h.inRes 0 1,
          setQueue x c (if lastOne then r else { p with held := hs, started := true, sent := p.sent + 1 } :: r),
          Prog.flood fun f => { f with
            egress := Tab.put f.egress x.key { e with sending := if lastOne then none else some c } },
          Prog.when (!p.started && !p.cut) (gauge x.unit 0x46 (some c) 1),
          gauge x.unit 0x02 (some c) h.cell.bytes,
          gauge x.unit 0x04 (some c) 1,
          Prog.when (x.ix.val ≥ 64) (slotAdd x.unit (b2n h.cell.isTrim) 1),
          ortLeft h.cell,
          Prog.send (.cell cell x),
          flag]

/-- RMAB packets that have waited too long at an egress are evicted and trimmed (R116). -/
def ageEvict (x : XPort) : Prog := .look fun s =>
  let lim := s.fld .root F.DEV_FP_RB_AGE_US * 1000
  match (s.queue x .rmab).findIdx? fun p => !p.started && decide (s.time > p.at_ + lim) with
  | none => .skip
  | some i => evict x i

/-! ### Waiting at an ingress (R108, R117, R123) -/

/-- What waited behind the first stands behind what it has left there. -/
def backWaiting (k : Nat) (rest : List Wait) : Prog := Prog.when (!rest.isEmpty) (Prog.flood fun f =>
  { f with waiting := Tab.put f.waiting k (Tab.getD f.waiting k [] ++ rest) })

/-- The turn passes to an ingress of a class, and its queue is taken. -/
def popWaiting (k : Nat) (c : Cls) : Prog := Prog.flood fun f =>
  { f with
    waiting := Tab.erase f.waiting k
    rr := Tab.put f.rr c.num k }

/-! ### A port that goes down (R127, R133-R135) -/

/-- Flush the egress queues of a port: the space returns, tracker entries that flushed responses were answering are freed
(R133). -/
def flushEgress (x : XPort) : Prog := .look fun s =>
  let pkts := allCls.flatMap fun c => s.queue x c
  let n := (pkts.map fun p => p.held.length).sum
  let sent := (pkts.map fun p => p.sent).sum
  Prog.all [
    Prog.each pkts fun p => Prog.seq (pktRelease p) (Prog.when (!p.complete) (dropLater p.first)),
    Prog.each (pkts.filter fun p => p.first.answers) fun p => Prog.opt p.first.ort fun o => .look fun t =>
      Prog.when ((Tab.get? t.dev.ort.entries o.1).any fun e => e.isOpen && e.gen == o.2) (ortFree o.1),
    Prog.flood fun f => { f with
      queues := (Tab.keep f.queues fun k _ => k / 8 != x.key)
      egress := Tab.erase f.egress x.key },
    Prog.when (x.ix.val ≥ 64) (slotWaste x.unit sent),
    raise 66 x.evUnit n]

/-- Discard the packets from an ingress whose last cell has not arrived, and what still waits there (R134); the receive pool of a fabric port keeps what waits of whole
packets (R347). -/
def dropIngress (x : XPort) : Prog := .look fun s =>
  let at_ := fun (k : Nat) => Tab.getD s.dev.flood.waiting (x.key * 8 + k) []
  let gone := fun (k : Nat) => if s.isFab x then waitTail (at_ k) else (at_ k).filter Wait.isCell
  Prog.all [
    Prog.each (List.range 8) fun k => Prog.when (!(s.isFab x && (at_ k).any Wait.ends)) (dropIncomplete x k),
    Prog.each ((List.range 8).flatMap gone) fun w => match w with | .cell c => ortUndo c | _ => .skip,
    Prog.flood fun f => { f with
      waiting := if s.isFab x then (f.waiting.map fun e => if e.1 / 8 = x.key then (e.1, waitWhole e.2) else e).filter fun e => !e.2.isEmpty
        else Tab.keep f.waiting fun k _ => k / 8 != x.key
      dropRest := f.dropRest.filter fun k => k / 8 != x.key
      downX := if f.downX.contains x.key then f.downX else f.downX ++ [x.key] }]

/-- A crossbar port goes down: lost paths for the entries toward it, its egress queues flushed, its ingress discarded (R127,
R133, R134). A port that is down already stays so. -/
def floodDown (x : XPort) : Prog := .look fun s =>
  if s.xDown x then .skip else Prog.all [ortLoseEgress x, flushEgress x, dropIngress x]

/-- The safe action of an internal port X0-X7 (R424): lost paths for the entries toward it and its egress queues flushed. What arrives for it meanwhile is discarded;
it returns to service with empty queues, and what the unit behind it waits to send stays. -/
def internalStall (x : XPort) : Prog := Prog.seq (ortLoseEgress x) (flushEgress x)

/-- A crossbar port comes back up, with empty queues (R135). -/
def floodUp (x : XPort) : Prog := Prog.flood fun f => { f with downX := f.downX.filter fun k => k != x.key }

/-! ### Thresholds (R111) -/

/-- Whether the reservations and limits would be legal (R111). -/
def fpLegal (res : Cls → Nat) (sh : Nat) : Bool :=
  let total := (allCls.map res).sum
  decide (total ≤ 262144) && decide (res .rmab = 0) && decide (res .mrsp ≥ 4096)
    && (allCls.all fun c => c == .rmab || decide (res c ≥ 72)) && decide (sh ≤ 524288 - total)

/-- A write of DEV_FP_CLSk_CFG (R111, R551): refused with EV062, or RES and, for a tier 2 class, WEIGHT set. -/
def fpCfgWrite (k v : Nat) : Prog := .look fun s =>
  let r := F.DEV_FP_CLS_CFG_RES.part v
  let w := max 1 (min 15 (F.DEV_FP_CLS_CFG_WEIGHT.part v))
  if !fpLegal (fun c => if c.num = k then r else s.clsRes c) (s.shMax .rmab) then raise 62 .root k
  else Prog.seq (Prog.setn .root F.DEV_FP_CLS_CFG_RES k r)
    (Prog.when (!([1, 3, 6].contains k)) (Prog.setn .root F.DEV_FP_CLS_CFG_WEIGHT k w))

/-- A write of DEV_FP_CLSk_SH (R111). -/
def fpShWrite (k v : Nat) : Prog := .look fun s =>
  let m := F.DEV_FP_CLS_SH_SHMAX.part v
  if !fpLegal s.clsRes (if k = 6 then m else s.shMax .rmab) then raise 62 .root k
  else Prog.setn .root F.DEV_FP_CLS_SH_SHMAX k m

end Sys2Proof.Machine
end

