-- ==== Sys2Proof/Machine/LinkTx.lean ====
section
/-!
DEFINITION. Machine/LinkTx.lean: the sending side of a fabric link: CTRL messages, credits charged by packets, and packets into the slot stream
(R327-R334).
-/
namespace Sys2Proof.Machine

/-! ### CTRL messages (R331) -/

/-- Put a CTRL message at the end of what waits, and send it where a credit is held. -/
def ctrlPut (g : Fin 64) (m : Nat) : Prog := Prog.seq
  (flinkUpd g fun l => { l with ctrlQ := l.ctrlQ ++ [BitVec.ofNat 128 m] }) (linkPump g)

/-- A CTRL message of a type that is held is taken up (R331): it leaves its place, and its credit is due for return. -/
def ctrlDone (g : Fin 64) (ty : Nat) : Prog := .look fun s =>
  let held := (s.flink g).ctrlHeld
  Prog.opt (held.findIdx? fun m => m.toNat % 256 == ty) fun i => flinkUpd g fun l => { l with
    ctrlHeld := held.eraseIdx i
    retCtrl := l.retCtrl + 1 }

/-- What a CTRL message of a type does as it is processed (R331). -/
def ctrlProc (g : Fin 64) (ty : Nat) (k : Prog) : Prog := Prog.seq (ctrlDone g ty) k

/-- The identity message (R261). -/
def identityMsg (fabId swid g mapGib : Nat) : Nat := 0x20 + fabId * 2 ^ 16 + swid * 2 ^ 32 + g * 2 ^ 40 + mapGib * 2 ^ 48

/-- A reach advertisement (R255). -/
def reachMsg (fabId swid mask seq : Nat) : Nat := 0x21 + fabId * 2 ^ 16 + swid * 2 ^ 32 + mask * 2 ^ 48 + seq % 2 ^ 32 * 2 ^ 64

/-- The receive pool reserves that PRT_FL_RXCFG holds, by class (R332). -/
def State.rxReserves (s : State) (g : Fin 64) : List Nat := [
  s.fld (fabPort g) F.PRT_FL_RXCFG_RSV0, s.fld (fabPort g) F.PRT_FL_RXCFG_RSV1, s.fld (fabPort g) F.PRT_FL_RXCFG_RSV2,
  s.fld (fabPort g) F.PRT_FL_RXCFG_RSV3, s.fld (fabPort g) F.PRT_FL_RXCFG_RSV4, s.fld (fabPort g) F.PRT_FL_RXCFG_RSV5,
  s.fld (fabPort g) F.PRT_FL_RXCFG_RSV6]

/-- CRINIT (R332). -/
def crinitMsg (shared rbMax : Nat) (res : List Nat) : Nat :=
  0x22 + shared * 2 ^ 16 + (res.zipIdx.map fun e => e.1 * 2 ^ (8 * (4 + e.2))).sum + rbMax * 2 ^ 88

/-- Send CRINIT (R332): what it advertises is in effect from now on. -/
def crinitSend (g : Fin 64) : Prog := .look fun s =>
  let res := s.rxReserves g
  let sh := 768 - res.sum
  Prog.seq (flinkUpd g fun l => { l with rxRes := res.zipIdx.map (fun e => (e.2, e.1)), rxShared := sh })
    (ctrlPut g (crinitMsg sh (s.fld (fabPort g) F.PRT_FL_RXLIM_RBMAX) res))

/-! ### Packets into the slot stream (R327-R329, R334) -/

/-- The pool that a packet of n cells of a class is charged to: its reserve, or the shared pool; none where neither has room (R334). -/
def FLink.charge (l : FLink) (shared : Nat) (c : Cls) (n : Nat) : Option Bool :=
  if n ≤ Tab.getD l.cred c.num 0 then some true
  else if n ≤ shared ∧ (c ≠ .rmab ∨ ((l.shared.filter fun e => e.1).map fun e => e.2).sum + n ≤ l.rbMax) then some false
  else none

/-- The content slots of a packet and the valid bytes of its last slot minus one (R328, R329): from its cells where all are held, else from its own header's
count. -/
def pktSlots (p : Pkt) : Nat × Nat :=
  let total := if p.complete then (p.held.map fun h => h.cell.bytes).sum else p.first.size
  if !p.complete && total == 0 then (p.first.cells * 8, 15) else (max 1 ((total + 15) / 16), (total - 1) % 16)

/-- The fabric header of a packet (R328); a cell for a port of the peer itself is link-local. -/
def fabHeader (c : Cell) (res : Bool) (nslot lastv : Nat) : BitVec 128 :=
  let dst : Nat := match c.dst with | .switch d => d.val | .here _ => 0
  let lcl : Bool := match c.dst with | .switch _ => false | .here _ => true
  let ortx : Nat := match c.ort with | some o => o.1 % 65536 + o.2 % 16 * 65536 | none => 0
  BitVec.ofNat 128 (1 + c.cls.num * 2 + b2n lcl * 2 ^ 4 + b2n res * 2 ^ 5 + b2n c.epar * 2 ^ 6 + b2n c.psn * 2 ^ 7
    + (if lcl then 0 else c.srcSw.val * 2 ^ 8 + dst * 2 ^ 12 + c.hops.val * 2 ^ 16) + nslot % 512 * 2 ^ 20 + lastv % 16 * 2 ^ 29
    + ortx * 2 ^ 33)

/-- Whether the packet at the head of a class queue of a fabric port may send its next cell: the link runs, its Eddy has room, and a
packet not yet begun can be charged (R333, R334, R337); UP carries every class, AUTH the link-local packets of SPDM, any other state none (R258). -/
def State.linkMay (s : State) (g : Fin 64) (c : Cls) : Bool :=
  let l := s.flink g
  let st := s.fld (fabPort g) F.PRT_FAB_STAT_STATE
  s.flSends g && decide (l.eddy.length < 256) && decide (l.buf.length < 31)
    && match s.queue (groupX g) c with
      | [] => false
      | p :: _ => p.started || ((st == 4 || (st == 2 && c == .iotx && (match p.first.dst with | .here _ => true | .switch _ => false)))
          && (l.charge (s.fld (fabPort g) F.PRT_FL_CRED_SH_CR) c p.first.cells).isSome)

/-- Charge a packet as its header is sent (R334). -/
def chargePkt (g : Fin 64) (c : Cls) (n : Nat) (res : Bool) : Prog :=
  if res then flinkUpd g fun l => { l with
    cred := Tab.put l.cred c.num (Tab.getD l.cred c.num 0 - n), charged := Tab.put l.charged c.num (Tab.getD l.charged c.num 0 + n) }
  else Prog.seq (Prog.sub (fabPort g) F.PRT_FL_CRED_SH_CR n)
    (flinkUpd g fun l => { l with shared := l.shared ++ [(c == .rmab, n)] })

/-- A cell of a packet goes into the slot stream, after the packet's header where it is the first (R327-R329). -/
def linkCell (g : Fin 64) (p : Pkt) (c : Cell) : Prog := .look fun s =>
  let acct := b2n c.isTrim
  let content : Prog := .look fun t =>
    let l := t.flink g
    let k := if c.eop then l.left else min 8 l.left
    Prog.all [
      flinkUpd g fun l => { l with
        buf := l.buf ++ (List.range k).map fun i => TxSlot.data (decide (i + 1 = l.left)) false (c.content.extractLsb' (128 * i) 128)
        left := l.left - k
        counted := l.counted + k },
      slotAdd (fabPort g) acct k,
      linkPump g]
  if p.started then content
  else match (s.flink g).charge (s.fld (fabPort g) F.PRT_FL_CRED_SH_CR) c.cls c.cells with
    | none => .skip
    | some res =>
      let ns := pktSlots p
      Prog.all [
        chargePkt g c.cls c.cells res,
        flinkUpd g fun l => { l with
          buf := l.buf ++ [TxSlot.head (fabHeader c res ns.1 ns.2)]
          left := ns.1
          counted := 1 },
        slotAdd (fabPort g) acct 1,
        content]

end Sys2Proof.Machine
end

