-- ==== Sys2Proof/Machine/EccOps.lean ====
section
/-!
DEFINITION. Machine/EccOps.lean: the line code of the Reservoir's bursts (R138-R140), the metadata of a cached line and its check (R148), the tag-hint cache
(R149), the correction counters (R163), and lines that are uncorrectable (R161).
-/
namespace Sys2Proof.Machine

/-! ### The line code (R139)

A codeword is the polynomial whose coefficients are the symbols, symbol 0 at x^39 and the last check symbol at x^0 (log entry 125). -/

/-- A symbol times α in GF(2^16). -/
def gfDouble (v : Nat) : Nat := if v * 2 < 65536 then v * 2 else (v * 2) ^^^ 0x1100B

/-- A symbol times α^n. -/
def gfRaise : Nat → Nat → Nat
  | 0, v => v
  | n + 1, v => gfRaise n (gfDouble v)

/-- The product of two symbols. -/
def gfMul (a b : Nat) : Nat := (List.range 16).foldl (fun acc i => if bitOf b i then acc ^^^ gfRaise i a else acc) 0

/-- Symbol j of a burst: what pin j carries (R140). -/
def burstSym (b : Burst) (j : Nat) : Nat := b.toNat / 2 ^ (16 * j) % 65536

/-- A burst from its data symbols (0-31), metadata symbols (32-35) and check symbols (36-39) (R140). -/
def burstParts (data : BitVec 512) (words check : BitVec 64) : Burst := check ++ words ++ data

/-- The data bytes of a burst: bit j mod 8 of byte 4 t + j div 8 is beat t of pin j (R140). -/
def burstData (b : Burst) : Line :=
  if b = 0 then 0
  else BitVec.ofNat 512 ((List.range 512).foldl (fun acc i => if bitOf b.toNat (16 * (i % 32) + i / 32) then acc + 2 ^ i else acc) 0)

/-- The metadata word of a burst (R140). -/
def burstMeta (b : Burst) : Nat := b.toNat / 2 ^ 512 % 2 ^ 64

/-- A burst with the data, the metadata word and the four check symbols in their places (R140). -/
def burstOf (d : Line) (m : Nat) (c : List Nat) : Burst :=
  let data := (List.range 512).foldl (fun acc i => if d.getLsbD i then acc + 2 ^ (16 * (i % 32) + i / 32) else acc) 0
  BitVec.ofNat 640 (data + m % 2 ^ 64 * 2 ^ 512 + c.foldr (fun s acc => s + acc * 65536) 0 * 2 ^ 576)

/-- The coefficients of the generator polynomial below its leading one, from x^3 to x^0: its roots are α^0 to α^3. -/
def rsGen : List Nat :=
  ((List.range 4).foldl (fun (g : List Nat) k => (g ++ [0]).zipWith (fun a b => a ^^^ b) (0 :: g.map (gfMul (gfRaise k 1)))) [1]).tail

/-- The check symbols of 36 message symbols: the remainder by the generator polynomial. -/
def rsCheck (l : List Nat) : List Nat :=
  l.foldl (fun (r : List Nat) m => (r.tail ++ [0]).zipWith (fun a b => a ^^^ b) (rsGen.map (gfMul (m ^^^ r.headD 0)))) [0, 0, 0, 0]

/-- A line with its metadata word as the stack holds it. -/
def lineBurst (d : Line) (m : Nat) : Burst :=
  burstOf d m (rsCheck ((List.range 36).map (burstSym (burstOf d m []))))

/-- The value of a burst's polynomial at α^k. -/
def burstSyn (b : Burst) (k : Nat) : Nat := (List.range 40).foldl (fun a j => gfRaise k a ^^^ burstSym b j) 0

/-- What the decoder finds in a burst. -/
inductive CodeVerdict where
  | ok | corrected (sym : Fin 40) | uncorrectable
  deriving DecidableEq, Repr

/-- The decoder: a codeword, an error in one symbol, or neither (R139). -/
def burstVerdict (b : Burst) : CodeVerdict :=
  if b = 0 then .ok
  else
    let s0 := burstSyn b 0
    let s1 := burstSyn b 1
    let s2 := burstSyn b 2
    let s3 := burstSyn b 3
    if s0 = 0 ∧ s1 = 0 ∧ s2 = 0 ∧ s3 = 0 then .ok
    else match (List.finRange 40).find? fun j =>
        s0 != 0 && gfRaise (39 - j.val) s0 == s1 && gfRaise (39 - j.val) s1 == s2 && gfRaise (39 - j.val) s2 == s3 with
      | some j => .corrected j
      | none => .uncorrectable

/-- Whether a burst is uncorrectable. -/
def burstBad (b : Burst) : Bool := burstVerdict b == .uncorrectable

/-- The flipped bits that the decoder leaves in the data: none with errors in at most one symbol; with four or more symbols in error it may take the burst for
a correct one, and the code gives no guarantee (R139, log entry 125). -/
def burstSlip (b : Burst) : Line :=
  match burstVerdict b with
  | .ok => burstData b
  | .corrected j => burstData (b ^^^ (BitVec.ofNat 640 (burstSyn b 0) <<< (16 * j.val)))
  | .uncorrectable => 0

/-- The flipped bits of a read of way or line k. -/
def flipsOf {n : Nat} (l : List (Fin n × Burst)) (k : Nat) : Burst := ((l.find? fun e => e.1.val == k).map Prod.snd).getD 0

/-! ### The metadata of a cached line (R148) -/

/-- One bit more into the CRC-16 with the polynomial x^16 + x^12 + x^5 + 1. -/
def crc16Step (c : Nat) (b : Bool) : Nat := (if (c / 2 ^ 15 % 2 == 1) != b then (c * 2 % 65536) ^^^ 0x1021 else c * 2 % 65536)

/-- MCRC over bits 47:0 of a metadata word, bit 47 first (log entry 125). -/
def mcrc (m : Nat) : Nat := (List.range 48).foldl (fun c i => crc16Step c (bitOf m (47 - i))) 0xFFFF

/-- A metadata word with its MCRC. -/
def metaWord (m : Nat) : Nat := m % 2 ^ 48 + mcrc m * 2 ^ 48

/-- The metadata word of a way (R148, R161): LOST is V = 0 with LA all ones. -/
def Way.meta (y : Way) : Nat :=
  if y.lost then metaWord (2 ^ 44 - 1)
  else metaWord (y.la % 2 ^ 44 + 2 ^ 44 + b2n y.dirty * 2 ^ 45 + b2n y.pin * 2 ^ 46 + b2n y.pu * 2 ^ 47)

/-- The metadata word of a way of a set; an invalid one has V = 0. -/
def State.wayMeta (s : State) (set w : Nat) : Nat := ((s.placeWay set w).map Way.meta).getD (metaWord 0)

/-- Whether a metadata word read is trusted: its MCRC matches (R161). -/
def metaTrusted (m : Nat) : Bool := mcrc m == m / 2 ^ 48 % 65536

/-! ### The tag-hint cache (R149) -/

/-- The partial tag of a line address. -/
def laTag (la : Nat) : Nat := 1 + la % 2 ^ 14 % 127

/-- PT of a way: 0 where it is invalid. The controller keeps an entry's tags in step with the ways of its set, so they are not held beside them. -/
def State.wayTag (s : State) (set w : Nat) : Nat :=
  match s.way? set w with
  | some y => if y.lost then 0 else laTag y.la
  | none => 0

/-- The hint entry of a cache set as its 16 bytes: HTAG, V, and the partial tags of its ways. -/
def State.hintNum (s : State) (set : Nat) : Nat :=
  set / 2 ^ 14 % 2 ^ 13 + 2 ^ 13 + ((List.range 16).map fun w => s.wayTag set w * 2 ^ (16 + 7 * w)).sum

/-- The ways of a set whose partial tag matches a line's (R150). -/
def State.tagWays (s : State) (set la : Nat) : List Nat := (List.range 16).filter fun w => s.wayTag set w == laTag la

/-- Whether the tag-hint cache holds an entry for a set (R149). -/
def State.hinted (s : State) (set : Nat) : Bool := (Tab.getD s.dev.rsv.hint (hintSet set) []).contains set

/-- A parity error in a hint entry invalidates it (R149). -/
def hintDrop (set : Nat) : Prog := Prog.rsv fun r => { r with
  hint := Tab.put r.hint (hintSet set) ((Tab.getD r.hint (hintSet set) []).filter fun k => k != set)
  hintHurt := r.hintHurt.filter fun k => k != set }

/-- A lookup reads the hint entry of a set: one that fails its parity is invalid (R149, log entry 144). -/
def hintCheck (set : Nat) : Prog := .look fun s => Prog.when (s.dev.rsv.hintHurt.contains set) (hintDrop set)

/-! ### Correction counters (R163) -/

/-- The stack a pseudo-channel lies in. -/
def pcStack : UnitId → UnitId
  | .pc s _ => .stack s
  | u => u

/-- The entry with the lowest COUNT, the lowest entry number first (log entry 13). -/
def State.ceLowest (s : State) (pc : UnitId) : Nat :=
  (List.range 64).foldl (fun b n => if s.fldn pc F.RSV_CE_ROW_COUNT n < s.fldn pc F.RSV_CE_ROW_COUNT b then n else b) 0

/-- The key of a row entry whose count was logged. -/
def ceKey (pc : UnitId) (n : Nat) : Nat := pathCode pc * 64 + n

/-- One more corrected read in entry n; EV069 once when COUNT reaches THR (R163). -/
def ceCount (pc : UnitId) (n sym : Nat) : Prog := .look fun s =>
  let c := min 65535 (s.fldn pc F.RSV_CE_ROW_COUNT n + 1)
  Prog.all [
    Prog.setn pc F.RSV_CE_ROW_COUNT n c,
    Prog.setn pc F.RSV_CE_ROW_SYM n sym,
    Prog.when (decide (c ≥ s.fld (pcStack pc) F.RSV_CE_CTL_THR) && !s.dev.rsv.rowLogged.contains (ceKey pc n))
      (Prog.seq (Prog.rsv fun r => { r with rowLogged := r.rowLogged ++ [ceKey pc n] })
        (raise 69 pc (s.fldn pc F.RSV_CE_ROW_ROW n)))]

/-- Give entry n to a row. -/
def ceTake (pc : UnitId) (n row : Nat) : Prog := Prog.all [
  Prog.setn pc F.RSV_CE_ROW_V n 1,
  Prog.setn pc F.RSV_CE_ROW_ROW n row,
  Prog.setn pc F.RSV_CE_ROW_COUNT n 0,
  Prog.rsv fun r => { r with rowLogged := r.rowLogged.filter fun k => k != ceKey pc n }]

/-- A corrected read: counted, logged as EV068, and entered in the row table (R163). -/
def ceRead (pc : UnitId) (row sym : Nat) : Prog := .look fun s =>
  let low := s.ceLowest pc
  Prog.all [
    Prog.add pc F.RSV_ECC_CNT_CE 1,
    raise 68 pc row,
    (match (List.range 64).find? (fun n => s.fldn pc F.RSV_CE_ROW_V n == 1 && s.fldn pc F.RSV_CE_ROW_ROW n == row),
        (List.range 64).find? (fun n => s.fldn pc F.RSV_CE_ROW_V n == 0) with
      | some n, _ => ceCount pc n sym
      | none, some n => Prog.seq (ceTake pc n row) (ceCount pc n sym)
      | none, none =>
        if s.fldn pc F.RSV_CE_ROW_COUNT low < s.fld (pcStack pc) F.RSV_CE_CTL_KEEP then
          Prog.seq (ceTake pc low row) (ceCount pc low sym)
        else Prog.add pc F.RSV_CE_LOST_COUNT 1)]

/-- The row {bank, row} of a pseudo-channel byte offset (R138). -/
def rowOf (o : Nat) : Nat := bits o 13 10 * 65536 + bits o 29 14

/-- A read of a line at a pseudo-channel offset returns with flipped bits: a corrected symbol is counted (R141, R163), and an uncorrectable line is what `lost`
says. -/
def burstRead (pc : UnitId) (o : Nat) (b : Burst) (lost : Prog) : Prog :=
  match burstVerdict b with
  | .ok => .skip
  | .corrected j => ceRead pc (rowOf o) j.val
  | .uncorrectable => lost

/-- The key of a line of a pseudo-channel. -/
def lineKey (pc : UnitId) (line : Nat) : Nat := match pc with
  | .pc st c => (st.val * 32 + c.val) * 2 ^ 24 + line
  | _ => line

/-- A read of the device's own at a pseudo-channel offset: the bits it brings turned over (log entry 144). -/
def struckTake (pc : UnitId) (o : Nat) (k : Burst → Prog) : Prog := .look fun s =>
  match Tab.get? s.dev.rsv.struck (lineKey pc (o / 64)) with
  | none => k 0
  | some b => Prog.seq (Prog.rsv fun r => { r with struck := Tab.erase r.struck (lineKey pc (o / 64)) }) (k b)

/-- A read of byte o of the map or the directory region returns, the region's share beginning at `base` in every pseudo-channel (R142, R143). -/
def regionRead (base o : Nat) (b : Burst) (lost : Prog) : Prog :=
  burstRead (regionPc o) (base + o / 32768 * 256 + o % 256) b (Prog.seq (Prog.add (regionPc o) F.RSV_ECC_CNT_UE 1) lost)

/-- A read of the line at byte o of the state region, which goes on with whether it is uncorrectable (R143, R163). -/
def areaTake (o : Nat) (k : Bool → Prog) : Prog :=
  struckTake (regionPc o) (o / 32768 * 256 + o % 256) fun b => Prog.seq (regionRead 0 o b .skip) (k (burstBad b))

/-- A read of the line at byte o of the state region; `lost` is what an uncorrectable one does. -/
def areaRead (o : Nat) (lost : Prog) : Prog := areaTake o fun bad => Prog.when bad lost

/-! ### Uncorrectable lines of the state region (R162) -/

/-- A line of a slot's bitmap is uncorrectable: its words are all ones (R162). -/
def bitmapLost (t line : Nat) : Prog := Prog.seq
  (Prog.mov fun m => { m with marks := Tab.put m.marks t (Tab.getD m.marks t 0 ||| ((2 ^ 512 - 1) * 2 ^ (line * 512))) }) movUnready

/-- Both copies of a poison-list bucket are uncorrectable: the extents whose probe window holds it, as far as the map names them,
are taken under R62 (R162). -/
def bucketLost (b : Nat) (pc : UnitId) : Prog := .look fun s =>
  let hit := s.dev.xlat.map.filter fun e => (b + 2097152 - psnBucket e.1) % 2097152 < 16
  Prog.all [
    Prog.rsv fun r => { r with poison := Tab.keep r.poison fun k _ => k / 4 != b },
    Prog.each hit fun e => Prog.xlat fun v => { v with bad := if v.bad.contains e.1 then v.bad else v.bad ++ [e.1] },
    raise 75 pc b]

/-- The byte of the state region at which a copy of a poison-list bucket lies (R166). -/
def psnByte (copyA : Bool) (b : Nat) : Nat := if copyA then 0x90000000 + b * 64 else 0x98000000 + (b + 8) % 2097152 * 64

/-- The device reads the probe window of an extent that has PSN: copy A of each bucket, and copy B where that is uncorrectable (R162, R166). -/
def psnProbe (x : Nat) : Prog := .look fun s => Prog.when (s.psn x) (Prog.each (List.range 16) fun i =>
  let b := (psnBucket x + i) % 2097152
  areaRead (psnByte true b) (areaRead (psnByte false b) (bucketLost b (regionPc (psnByte true b)))))

/-! ### Uncorrectable lines of the cache region (R161) -/

/-- Make a cache set suspect, or the whole cache where the table is full (R161, log entry 145). -/
def makeSuspect (set : Nat) (pc : UnitId) : Prog := .look fun s =>
  if s.dev.rsv.suspect.contains set then raise 72 pc set
  else if s.dev.rsv.suspect.length < 256 then
    Prog.seq (Prog.rsv fun r => { r with suspect := r.suspect ++ [set] }) (raise 72 pc set)
  else Prog.all [raise 72 pc set, Prog.rsv fun r => { r with suspectAll := true }, raise 73 pc set]

/-- A way of the cache region is uncorrectable, its metadata trusted or not; a LOST way stays LOST (R161, log entry 145). -/
def wayUncorrectable (set w : Nat) (trusted : Bool) : Prog := .look fun s =>
  let pc := wayPc set w
  let u := set / 2048
  let lost := fun (y : Way) => Prog.all [psnAdd y.la 3, raise 71 pc y.la]
  Prog.seq (Prog.add pc F.RSV_ECC_CNT_UE 1)
    (if s.unitNamed u && !trusted then
      Prog.opt (s.unitExtent u) fun x =>
        let la := x * 32768 + w * 2048 + set % 2048
        Prog.all [psnAdd la 3, putWay set w { la, dirty := false, pin := false, pu := true, lost := false, data := 0 }, raise 71 pc la]
    else if !trusted then
      Prog.seq (putWay set w { la := 2 ^ 44 - 1, dirty := false, pin := false, pu := false, lost := true, data := 0 })
        (makeSuspect set pc)
    else match s.placeWay set w with
      | none => raise 70 pc set
      | some y =>
        if y.lost then raise 70 pc set
        else if y.dirty || y.pu then lost y
        else Prog.seq (dropWay set w) (raise 70 pc y.la))

/-- A read of a way returns (R161, R163). -/
def wayRead (set w : Nat) (b : Burst) : Prog := .look fun s =>
  burstRead (wayPc set w) (s.setOffset set) b (wayUncorrectable set w (metaTrusted (s.wayMeta set w ^^^ burstMeta b)))

/-- A dirty way is read to be written back; one that is uncorrectable is handled as any read of it (R141, R161). -/
def wayOut (set w : Nat) (k : Line → Prog) : Prog := .look fun s => Prog.opt (s.way? set w) fun y =>
  struckTake (wayPc set w) (s.setOffset set) fun b => Prog.seq (wayRead set w b) (Prog.when (!burstBad b) (k (y.data ^^^ burstSlip b)))

end Sys2Proof.Machine
end

