-- ==== Sys2Proof/Machine/CacheOps.lean ====
section
/-!
DEFINITION. Machine/CacheOps.lean: write-backs, flushes and installs of the memory-side cache, its hint entries, and the merge buffer (spec 05).
-/
namespace Sys2Proof.Machine

/-! ### Write-backs (R154) -/

/-- The tracker's information on a cache write-back or fill (R124, R154). -/
def cacheReq (op : OrtOp) (la : Nat) (sw : Fin 16) : ReqInfo :=
  { kind := .cacheFill, op, tag := 0, addr := la * 64, len := 64, inst := none, srcSw := sw }

/-- Write a line back to its target under the current epoch (R154): dropped where its extent is treated under R62, dropped with EV042 when it is UNMAPPED
or at home elsewhere, written to a pinned unit in place, sent to the module otherwise, or lost where the module does not serve it. -/
def writeBack (la : Nat) (d : Line) : Prog := .look fun s =>
  let e := s.entry (la / 32768)
  if s.mapBadNow (la / 32768) then .skip
  else if e.type = .unmapped ∨ e.home ≠ s.swid then raise 42 .root (la / 32768)
  else
    let x := s.stackX la
    let go := fun (egr : XPort) (lost : Bool) (ok : Nat → Nat → Nat → Prog) =>
      ortOpen x (cacheReq .fullWrite la s.swid) egr none (bitOf (s.fld .root F.DEV_EPOCH_CUR) 0) lost (.wb la d)
        (waitAt x .mreq (.wb la d)) ok
    match s.place e.tgtA (la * 64) with
    | .lost => go (s.placePort e.tgtA (la * 64)) true fun _ _ _ => .skip
    | .pinned set w => Prog.seq (track la) (putWay set w
        { la, dirty := false, pin := false, pu := true, lost := false, data := d })
    | .module pt dpa => go pt.x false fun i g t => Prog.send (.toModule pt (i, g) t .memWr dpa d (BitVec.allOnes 64) false)

/-- Whether a write-back of a line waits for the tracker: its target does not hold the line's data yet (R123, R174). -/
def State.wbWaits (s : State) (la : Nat) : Bool :=
  (Tab.getD s.dev.flood.waiting (qKey (s.stackX la) .mreq) []).any fun w => match w with
    | .wb l _ => l == la
    | _ => false

/-- Whether a line could be written back now. -/
def State.wbFits (s : State) (la : Nat) : Bool :=
  let e := s.entry (la / 32768)
  s.ingressFree (s.stackX la) .mreq
    && (s.mapBadNow (la / 32768) || e.type == .unmapped || e.home != s.swid || s.targetFits (s.stackX la) e.tgtA (la * 64))

/-- Flush a line from its way (R146, R155): a dirty one is written back, and until the tracker takes the write-back it stays in its way; with `inval` the line leaves. -/
def flushWay (la set w : Nat) (inval : Bool) : Prog := .look fun s => Prog.opt (s.way? set w) fun y =>
  Prog.when (!y.lost && !y.pu && y.la == la)
    (if !y.dirty then Prog.when inval (dropWay set w)
    else if !s.wbFits la then waitAt (s.stackX la) .mreq (.flush la set w inval)
    else Prog.seq (wayOut set w fun d => Prog.seq (writeBack la d) (putWay set w { y with dirty := false }))
      (.look fun t => Prog.when (inval && (t.way? set w).any fun v => !v.lost) (dropWay set w)))

/-- Flush the lines of the ways that a test picks, each by itself (R155). -/
def flushWays (p : Way → Bool) (inval : Bool) : Prog := .look fun s =>
  Prog.each (s.dev.rsv.ways.filter fun e => p e.2) fun e => flushWay e.2.la (e.1 / 16) (e.1 % 16) inval

/-- Install a line in a set: an invalid way first (the least, log entry 13), else a way that is not pinned, taken as the
pseudo-LRU state has it, which the spec leaves open (log entry 14); a dirty victim is written back (R153, R154). PIN is set
only while the set holds fewer than PIN_MAX pinned ways. A victim whose read leaves its way LOST makes no room (R161). A drain takes no dirty victim where the set has a
clean one (R170, log entry 130). -/
def installIn (drain : Bool) (la : Nat) (d : Line) (dirty wantPin : Bool) : Prog := .look fun s =>
  let set := s.cacheSet la
  let pin := wantPin && decide (s.pinCount set < s.fld .root F.DEV_RSV_CCTL_PIN_MAX)
  let y : Way := { la, dirty, pin, pu := false, lost := false, data := d }
  let free := (List.range 16).find? fun w => (s.way? set w).isNone
  let cands := (List.range 16).filter fun w => match s.way? set w with
    | some v => !v.pin && !v.lost && !v.pu
    | none => false
  let clean := cands.filter fun w => (s.way? set w).any fun v => !v.dirty
  match free, (if drain && !clean.isEmpty then clean else cands) with
  | some w, _ => putWay set w y
  | none, [] => Prog.when dirty (writeBack la d)
  | none, c :: cs => Prog.free fun f =>
    let w := (c :: cs).getD ((Config.freeValue f).toNat % (c :: cs).length) c
    Prog.seq (Prog.opt (s.way? set w) fun v => Prog.when v.dirty (wayOut set w (writeBack v.la)))
      (.look fun t => if (t.way? set w).any Way.lost then Prog.when dirty (writeBack la d) else putWay set w y)

/-- Install a line as an access does. -/
def installLine (la : Nat) (d : Line) (dirty wantPin : Bool) : Prog := installIn false la d dirty wantPin

/-- A hint entry for a set, beside at most seven others of its hint set; the one that leaves is open (R149, log entry 14). -/
def hintInstall (set : Nat) : Prog := .look fun s =>
  let l := Tab.getD s.dev.rsv.hint (hintSet set) []
  if l.contains set then .skip
  else if l.length < 8 then Prog.rsv fun r => { r with hint := Tab.put r.hint (hintSet set) (l ++ [set]) }
  else Prog.free fun f => Prog.rsv fun r =>
    { r with hint := Tab.put r.hint (hintSet set) (l.eraseIdx ((Config.freeValue f).toNat % 8) ++ [set]) }

/-! ### The merge buffer (R160) -/

/-- The byte enables spread over the bits of a line. -/
def spread (m : Mask) : Line :=
  (List.range 64).foldl (fun acc b => if m.getLsbD b then acc ||| (BitVec.ofNat 512 255 <<< (8 * b)) else acc) 0

/-- New bytes over an old line. -/
def mergeBytes (old new : Line) (m : Mask) : Line := (new &&& spread m) ||| (old &&& ~~~(spread m))

/-- The merge entries of a stack. -/
def State.mergeCount (s : State) (st : Fin 4) : Nat := Tab.count s.dev.rsv.merge fun _ m => m.stack == st

/-- The stack that holds a line: by its pinned place or its cache set. -/
def State.lineStack (s : State) (a : Acc) : Fin 4 :=
  match a.tgt with
  | some (.pinned u) => setStack (pinnedPlace u (a.gpa % 2 ^ 21 / 64)).1
  | _ => setStack (s.cacheSet a.la)

/-- Whether the read of an entry's old line is out (R160 rule 2). -/
def State.mergeOut (s : State) (la : Nat) (m : MergeEntry) : Bool := s.dev.ort.entries.any fun e => e.2.isOpen && e.2.ctx == .merge la m.ord

/-- Read the old line of a merge entry from its target, where it is still wanted (R160 rules 2, 3, R122). -/
def mergeFetch (a : Acc) : Prog := .look fun s => Prog.opt (Tab.get? s.dev.rsv.merge a.la) fun m =>
  let x := s.stackX a.la
  let ep := bitOf a.epoch 0
  let wait := waitAt x .mreq (.target a)
  Prog.when (m.fromTarget && !m.ready && !m.writing && !s.mergeOut a.la m) (match s.place a.tgt a.gpa with
  | .pinned _ _ => .skip
  | .lost => ortOpen x (cacheReq .read a.la s.swid) (s.placePort a.tgt a.gpa) none ep true (.merge a.la m.ord) wait fun _ _ _ => .skip
  | .module pt dpa => ortOpen x (cacheReq .read a.la s.swid) pt.x none ep false (.merge a.la m.ord) wait fun i g t =>
      Prog.send (.toModule pt (i, g) t .memRd dpa 0 0 false))

/-- A write of Reservoir-held data through the merge buffer (R160 rules 1-4, 6, 7): it merges into the line's entry, waits while
that entry's DRAM write is in flight, takes a new entry and starts the read of the old line, or waits for an entry. -/
def mergeWrite (a : Acc) (fromTarget : Bool) : Prog := .look fun s =>
  let full := a.op == .memWr
  match Tab.get? s.dev.rsv.merge a.la with
  | some m =>
    if m.writing then Prog.rsv fun r => { r with merge := Tab.put r.merge a.la { m with late := m.late ++ [a] } }
    else
      let mask := if full then BitVec.allOnes 64 else m.mask ||| a.mask
      let data := if full then a.data else mergeBytes m.data a.data a.mask
      let done := m.ready || mask == BitVec.allOnes 64
      Prog.all [
        Prog.rsv fun r => { r with
          merge := Tab.put r.merge a.la { m with
            data, mask, ready := done, writing := mask == BitVec.allOnes 64, pin := m.pin || a.cmode == 3,
            reads := if done then [] else m.reads } },
        acceptWrite a,
        Prog.when done (Prog.each m.reads fun q => stackAnswer q (some data) (s.linePoisoned q.la))]
  | none =>
    let st := s.lineStack a
    if s.mergeCount st ≥ 64 then Prog.rsv fun r => { r with mergeWait := r.mergeWait ++ [a] }
    else Prog.all [
      Prog.rsv fun r => { r with
        merge := Tab.put r.merge a.la {
          stack := st, ord := r.nextRead, data := mergeBytes 0 a.data a.mask, mask := a.mask, fromTarget, ready := false,
          writing := false, pin := a.cmode == 3, reads := [], late := [] }
        nextRead := r.nextRead + 1 },
      Prog.peak (.stack st) F.RSV_MB_STAT_PEAK (s.mergeCount st + 1),
      acceptWrite a,
      Prog.when fromTarget (mergeFetch a)]

/-- The old line of a merge entry has arrived, poisoned or not (R160 rules 4, 5, 8): the new bytes lie over it, the waiting
reads are answered, and the write of the merged line is issued. -/
def mergeOld (la : Nat) (old : Line) (poison : Bool) : Prog := .look fun s =>
  match Tab.get? s.dev.rsv.merge la with
  | none => .skip
  | some m =>
    if m.ready || m.writing then .skip
    else
      let data := mergeBytes old m.data m.mask
      Prog.all [
        Prog.when poison (psnAdd la 7),
        Prog.rsv fun r => { r with
          merge := Tab.put r.merge la { m with data, ready := true, writing := true, reads := [] } },
        .look fun t => Prog.each m.reads fun q => stackAnswer q (some data) (t.linePoisoned la)]

/-- The read of an old line that an entry sent out returns: one of an entry that has ended since is not used (R160 rule 3). -/
def mergeRead (la ord : Nat) (old : Line) (poison : Bool) : Prog := .look fun s =>
  Prog.when ((Tab.get? s.dev.rsv.merge la).any fun m => m.ord == ord) (mergeOld la old poison)

end Sys2Proof.Machine
end

