-- ==== Sys2Proof/Machine/MemOps.lean ====
section
/-!
DEFINITION. Machine/MemOps.lean: the way of an access to pool memory through the device: extent lookup, forwarding to the home switch,
the directory, the memory-side cache, and the target (spec 02, 05, 06).
-/
namespace Sys2Proof.Machine

/-! ### The target -/

/-- The operation the tracker records for an access (R124). -/
def accOrtOp (a : Acc) : OrtOp :=
  match a.op with
  | .memWr => .fullWrite
  | .memWrPtl => .partialWrite
  | _ => .read

/-- What an access brings to the tracker (R124); the atomic unit's is an atomic operation on 8 bytes. -/
def State.accReq (s : State) (a : Acc) : ReqInfo :=
  { kind := a.origin.kind, op := if a.isAtomic then .atomic else accOrtOp a, tag := a.origin.tag, addr := a.gpa,
    len := if a.isAtomic then 8 else 64, inst := a.inst, srcSw := s.originSw a.origin }

/-- Send an access to its target under a tracker entry (R51, R122): an access whose module does not serve it is a lost path
(R52), and one of a line whose write-back waits for the tracker goes behind it (R174). -/
def sendTarget (a : Acc) (full : Prog) : Prog := .look fun s =>
  let x := a.origin.xport
  let ep := bitOf a.epoch 0
  if s.wbWaits a.la then full
  else match s.place a.tgt a.gpa with
  | .pinned _ _ => .skip
  | .lost => ortOpen x (s.accReq a) (s.placePort a.tgt a.gpa) none ep true (.acc a false) full fun _ _ _ => .skip
  | .module pt dpa => ortOpen x (s.accReq a) pt.x none ep false (.acc a false) full fun i g t =>
      Prog.seq (Prog.when a.op.isWrite (readsStale a.la)) (Prog.send (.toModule pt (i, g) t a.op (dpa / 64 * 64) a.data a.mask false))

/-- Send an access to its target; where the tracker has no room it waits at its ingress (R123). -/
def toTarget (a : Acc) : Prog := sendTarget a (waitAt a.origin.xport .mreq (.target a))

/-- The data of a target read has arrived: poisoned data is returned with poison and not installed; other data is installed
where the cache mode allocates (R152). -/
def finishRead (a : Acc) (d : Line) (poison : Bool) : Prog := .look fun s =>
  Prog.all [
    Prog.when (!poison && a.cmode.val ≥ 1 && s.mayInstall a.la && (s.findWay (s.cacheSet a.la) a.la).isNone)
      (installLine a.la d false (a.cmode == 3)),
    answer a (some d) (poison || s.linePoisoned a.la)]

/-! ### The memory-side cache -/

/-- A hit (R152, R153): a read is answered from the line, a full-line write updates it, a partial write goes to the merge buffer;
a mode 3 access pins it while the set may hold one more pinned way. `b` is what the read of the way brought flipped: an uncorrectable line reads as
poison (R161). -/
def cacheHit (a : Acc) (set w : Nat) (b : Burst) : Prog := .look fun s =>
  match s.way? set w with
  | none => .skip
  | some y =>
    let y' := { y with pin := y.pin || (a.cmode == 3 && decide (s.pinCount set < s.fld .root F.DEV_RSV_CCTL_PIN_MAX)) }
    Prog.seq (gauge (.stack (setStack set)) 0x44 none 1)
      (match a.op with
      | .memWr => Prog.seq (putWay set w { y' with data := a.data, dirty := true }) (acceptWrite a)
      | .memWrPtl => Prog.seq (Prog.when (y' != y) (putWay set w y')) (mergeWrite a false)
      | .memInv | .memClnEvct => stackAnswer a none false
      | _ => Prog.seq (Prog.when (y' != y) (putWay set w y')) (stackAnswer a (some (y.data ^^^ burstSlip b)) (burstBad b || s.linePoisoned a.la)))

/-- A miss (R151, R152, R161): what the cache mode says; in a suspect set a read returns poison, and a partial write that would need a
target read merges with poisoned data. -/
def cacheMiss (a : Acc) : Prog := .look fun s =>
  let alloc := decide (a.cmode.val ≥ 2) && s.mayInstall a.la
  let sus := s.setSuspect (s.cacheSet a.la)
  match a.op with
  | .memWr => if alloc then Prog.seq (installLine a.la a.data true (a.cmode == 3)) (acceptWrite a) else toTarget a
  | .memWrPtl =>
    if alloc then
      if sus then Prog.seq (mergeWrite a false) (mergeOld a.la 0 true) else mergeWrite a true
    else toTarget a
  | .memInv | .memClnEvct => stackAnswer a none false
  | _ => if sus then stackAnswer a none true else toTarget a

/-- An access waits for a read of the cache region. -/
def rsvStart (a : Acc) (scope : SetScope) (issued : Bool) : Prog := Prog.rsv fun r => { r with
  reads := Tab.put r.reads r.nextRead { acc := a, scope, issued, arrived := none, stale := false, behind := [] }
  nextRead := r.nextRead + 1 }

/-- A hint miss (R150): all 16 ways are read, and for a read the target read is issued at the same time. -/
def hintMiss (a : Acc) : Prog :=
  if a.op.isRead then Prog.seq (rsvStart a .all true) (sendTarget a (Prog.rsv fun r => { r with
      reads := Tab.upd r.reads (r.nextRead - 1) fun v => { v with issued := false } }))
  else rsvStart a .all false

/-- An access of a line of a Reservoir-pinned unit reaches its place directly (R151, R157): a full-line write stands there, a partial write goes to the merge
buffer, and a read reads the place. -/
def pinnedAccess (a : Acc) (set w : Nat) : Prog :=
  match a.op with
  | .memWr => Prog.seq (putWay set w { la := a.la, dirty := false, pin := false, pu := true, lost := false, data := a.data })
      (acceptWrite a)
  | .memWrPtl => mergeWrite a false
  | .memInv | .memClnEvct => stackAnswer a none false
  | _ => rsvStart a (.place set w) false

/-- An access of a line with a merge-buffer entry (R160 rules 2-5): a write merges; a read is answered from the entry, or waits until it has the old line; one in
mode 3 pins the line (R152), and an atomic read waits behind the writes that wait for the entry (R197). -/
def mergeAccess (a : Acc) (e : MergeEntry) : Prog := .look fun s =>
  if a.op.isRead then
    if a.isAtomic && !e.late.isEmpty then Prog.rsv fun r => { r with merge := Tab.put r.merge a.la { e with late := e.late ++ [a] } }
    else
      let e' := { e with pin := e.pin || a.cmode == 3 }
      if e.ready then Prog.seq (Prog.rsv fun r => { r with merge := Tab.put r.merge a.la e' }) (stackAnswer a (some e.data) (s.linePoisoned a.la))
      else Prog.rsv fun r => { r with merge := Tab.put r.merge a.la { e' with reads := e.reads ++ [a] } }
  else if a.op.isWrite then mergeWrite a e.fromTarget
  else stackAnswer a none false

/-- The lookup of an access that finds no merge-buffer entry (R150, R151, R157): a pinned unit's line is reached directly, a line whose set serves a pinned unit is
not looked up, a hint entry says the ways to read or that the line is absent, and without one the whole set is read. -/
def setLookup (a : Acc) : Prog := .look fun s =>
  let set := s.cacheSet a.la
  match s.place a.tgt a.gpa with
  | .pinned ps w => pinnedAccess a ps w
  | _ =>
    if s.unitNamed (set / 2048) then (if a.op.isRead || a.op.isWrite then toTarget a else stackAnswer a none false)
    else Prog.all [gauge (.stack (setStack set)) 0x45 none 1, hintCheck set, .look fun t =>
      if t.hinted set then
        match t.tagWays set a.la with
        | [] => cacheMiss a
        | l => rsvStart a (.ways l) false
      else hintMiss a]

/-- The write of a line that waits for a set read or for a merge-buffer entry, ahead of an atomic operation that comes after it (R197). -/
def State.writeAhead (s : State) (la : Nat) : Option Nat :=
  (Tab.find s.dev.rsv.reads fun _ r => r.acc.op.isWrite && r.acc.la == la).map Prod.fst

/-- Whether a write of a line waits for the tracker on its way to its target: it came before what arrives now (R123, R197). -/
def State.writeWaits (s : State) (la : Nat) : Bool := s.dev.flood.waiting.any fun e => e.2.any fun w => match w with
  | .target a => !isStackX (xOfKey (e.1 / 8)) && a.op.isWrite && a.la == la
  | _ => false

/-- The operation of the atomic unit that an access is for. -/
def atomOf (a : Acc) : Option Nat := match a.origin with
  | .atomic id => some id
  | _ => none

/-- The lookup of an access at its home switch (R150, R151, R157, R160 rule 5). The read of an atomic operation is held while a write that came before it waits on its way to
the target (R197). -/
def accLookup (a : Acc) : Prog := .look fun s =>
  match Tab.get? s.dev.rsv.merge a.la, (if a.op.isRead && s.writeWaits a.la then atomOf a else none) with
  | some e, _ => mergeAccess a e
  | none, some id => Prog.coh fun c => { c with atoms := Tab.upd c.atoms id fun t => { t with step := .held } }
  | none, none =>
    if a.isAtomic && a.op.isRead && s.dev.rsv.mergeWait.any (fun b => b.la == a.la) then Prog.rsv fun r => { r with mergeWait := r.mergeWait ++ [a] }
    else match (if a.isAtomic && a.op.isRead then s.writeAhead a.la else none) with
      | some k => Prog.rsv fun r => { r with reads := Tab.upd r.reads k fun v => { v with behind := v.behind ++ [a] } }
      | none => setLookup a

/-! ### The directory (R173-R193) -/

/-- The directory entry of a line. -/
def State.dirFind (s : State) (la : Nat) : Option (Nat × DirEntry) :=
  Tab.find s.dev.coh.dir fun _ e => e.la == la

/-- The hosts treated as lost (R191). -/
def State.lostMask (s : State) : BitVec 64 := BitVec.ofNat 64 (s.fld .root F.DEV_COH_LOST_LOST)

/-- The hosts of a vector in rising order. -/
def vecHosts (v : BitVec 64) : List (Fin 64) := (List.finRange 64).filter fun h => v.getLsbD h.val

/-- The bit of a host. -/
def hostBit (h : Fin 64) : BitVec 64 := BitVec.ofNat 64 (2 ^ h.val)

/-- Whether a host-table entry is valid (R176). -/
def State.hostValid (s : State) (h : Fin 64) : Bool := s.fldn .root F.DEV_COH_HOST_V h.val == 1

/-- The port of a host (R176). -/
def State.hostPort (s : State) (h : Fin 64) : PortId :=
  ⟨⟨s.fldn .root F.DEV_COH_HOST_PORT h.val % 64, Nat.mod_lt _ (by decide)⟩,
    ⟨s.fldn .root F.DEV_COH_HOST_SUB h.val % 2, Nat.mod_lt _ (by decide)⟩⟩

/-- The host-table entry that names a port of a switch (R176). -/
def State.hostOf (s : State) (sw : Fin 16) (pt : PortId) : Option (Fin 64) :=
  (List.finRange 64).find? fun h => s.hostValid h && s.hostSw h == sw && s.hostPort h == pt

/-- The unit that a fault about a host is filed at: its port where it is here, else the root (R421). -/
def State.hostUnit (s : State) (h : Fin 64) : UnitId := if s.hostSw h = s.swid then .port (s.hostPort h) else .root

/-- Whether a directory set is suspect (R193). -/
def State.dirSuspect (s : State) (set : Nat) : Bool := s.dev.coh.suspectAll || s.dev.coh.suspect.contains set

/-- Lost hosts are treated as absent from an entry that e4 reads; a line one of them owned is poisoned (R191). -/
def lostOwner (la : Nat) : Prog := .look fun s =>
  match s.dirFind la with
  | none => .skip
  | some (k, e) =>
    let v := e.shv &&& ~~~s.lostMask
    if e.excl && s.lostMask.getLsbD e.owner.val then
      Prog.all [psnAdd la 1, raise 85 (s.hostUnit e.owner) la, Prog.coh fun c => { c with dir := Tab.erase c.dir k }]
    else if v = 0 then Prog.coh fun c => { c with dir := Tab.erase c.dir k }
    else Prog.when (v != e.shv) (Prog.coh fun c => { c with dir := Tab.put c.dir k { e with shv := v } })

/-- The host of an access that comes through a SHARED_HW window (R172, R176). -/
def hwHost (a : Acc) : Option (Fin 64) := if a.wtype = .sharedHw then a.host else none

/-- The snoops an access sends for the entry found (R183, R184): the host, and whether it is BISnpInv. -/
def cohSnoops (a : Acc) (e : DirEntry) : List (Fin 64 × Bool) :=
  let all := (vecHosts e.shv).map fun h => (h, true)
  match hwHost a with
  | some h =>
    let others := all.filter fun p => p.1 != h
    let data := if e.excl && e.owner != h then [(e.owner, false)] else []
    match a.op, a.mv with
    | .memRd, .a | .memInv, .a | .memInv, .i => others
    | .memRd, _ | .memRdData, _ | .memInv, .s => data
    | .memWr, _ | .memWrPtl, _ => if e.excl && e.owner == h then [] else others
    | _, _ => []
  | none =>
    match a.op with
    | .memRd | .memRdData => if e.excl then [(e.owner, false)] else []
    | .memWr | .memWrPtl | .memInv => all
    | _ => []

/-- A shared entry of a line. -/
def sEntry (la : Nat) (v : BitVec 64) : Option DirEntry :=
  if v = 0 then none else some { shv := v, la, excl := false, owner := 0, age := 0 }

/-- The entry an access leaves and the grant it gives, once its snoops have ended (R183-R185). `ok` says that a copy may be
granted; where it may not the answer is I, and ownership that the host holds stays. -/
def cohResult (a : Acc) (ok : Bool) (e : Option DirEntry) : Option DirEntry × MetaV :=
  let shv := match e with | some d => d.shv | none => 0
  let own := fun (h : Fin 64) => match e with | some d => d.excl && d.owner == h | none => false
  match hwHost a with
  | some h =>
    match a.op, a.mv with
    | .memRd, .i => (if own h then (e, .i) else (sEntry a.la shv, .i))
    | .memRd, .s | .memRdData, _ | .memInv, .s =>
      if ok then (sEntry a.la (if own h then hostBit h else shv ||| hostBit h), .s)
      else if own h then (e, .i) else (sEntry a.la shv, .i)
    | .memRd, .a | .memInv, .a =>
      if ok then (some { shv := hostBit h, la := a.la, excl := true, owner := h, age := 0 }, .a)
      else if own h then (e, .i) else (sEntry a.la (shv &&& hostBit h), .i)
    | .memInv, .i => (none, .i)
    | .memWr, m | .memWrPtl, m =>
      if own h then
        match m with
        | .i => (none, .i)
        | .s => if ok then (sEntry a.la (hostBit h), .s) else (e, .i)
        | .a => (e, if ok then .a else .i)
      else (none, .i)
    | .memClnEvct, _ => (if own h then (none, .i) else
        match e with
        | some d => if d.excl then (e, .i) else (sEntry a.la (shv &&& ~~~hostBit h), .i)
        | none => (none, .i))
    | _, _ => (e, .i)
  | none =>
    match a.op with
    | .memRd | .memRdData => (sEntry a.la shv, .i)
    | .memWr | .memWrPtl | .memInv => (none, .i)
    | _ => (e, .i)

/-- Whether a copy may be granted (R185); a host treated as lost gets none (log entry 23). -/
def State.grantOk (s : State) (a : Acc) : Bool :=
  !s.linePoisoned a.la && (match a.host with | some h => !s.lostMask.getLsbD h.val | none => false) && s.dirSets != 0 && s.fld .root F.DEV_RSV_RSZ_STATE == 0
    && !s.dirSuspect (s.dirSet a.la)

/-- Make an entry the most recent of its set (R179, AGE). -/
def touchAge (c : Coh) (k : Nat) (old : Nat) : Coh :=
  { c with dir := Tab.mapAll c.dir fun j e =>
      if j / 4 = k / 4 then
        if j = k then { e with age := 0 }
        else if e.age.val < old then { e with age := ⟨(e.age.val + 1) % 4, Nat.mod_lt _ (by decide)⟩ } else e
      else e }

/-- The least AGE that no other entry of a set has: the place a new entry takes in the order, before it becomes the most recent (R179). -/
def Coh.ageGap (c : Coh) (k : Nat) : Nat :=
  ((List.range 4).find? fun n => !(c.dir.any fun e => e.1 / 4 == k / 4 && e.1 != k && e.2.age.val == n)).getD 3

/-- Where a new entry of a line goes: an invalid entry of its set, an entry to evict, or nowhere while every line of the set is
busy (R181). -/
inductive DirRoom where
  | free (k : Nat)
  | evict (k : Nat)
  | wait
  deriving DecidableEq, Repr

/-- Whether the first entry is to be evicted before the second (R181). -/
def evictBefore (a b : Nat × DirEntry) : Bool :=
  if a.2.excl != b.2.excl then !a.2.excl
  else if a.2.excl then decide (a.2.age.val > b.2.age.val)
  else
    let ca := (vecHosts a.2.shv).length
    let cb := (vecHosts b.2.shv).length
    if ca ≠ cb then decide (ca < cb)
    else if a.2.age ≠ b.2.age then decide (a.2.age.val > b.2.age.val)
    else decide (a.1 < b.1)

/-- Whether a directory entry is kept for the transaction of another line, which had it evicted (R181). -/
def State.dirKept (s : State) (la k : Nat) : Bool := s.dev.coh.busy.any fun e => e.1 != la && e.2.room == some k

/-- The place of a new directory entry (R181): the one evicted for the line, else an invalid one, else one to evict, E entries only when all four are E. -/
def State.dirRoom (s : State) (la : Nat) : DirRoom :=
  let set := s.dirSet la
  match (Tab.get? s.dev.coh.busy la).bind fun b => b.room with
  | some k => if Tab.has s.dev.coh.dir k then .wait else .free k
  | none =>
    match (List.range 4).find? fun n => !Tab.has s.dev.coh.dir (set * 4 + n) && !s.dirKept la (set * 4 + n) with
    | some n => .free (set * 4 + n)
    | none =>
      let es := Tab.keep s.dev.coh.dir fun k _ => k / 4 == set
      let allE := es.all fun e => e.2.excl
      match es.filter fun e => !Tab.has s.dev.coh.busy e.2.la && !s.dirKept la e.1 && (allE || !e.2.excl) with
      | [] => .wait
      | e :: r => .evict (r.foldl (fun b x => if evictBefore x b then x else b) e).1

/-- Store, replace or free the entry of a line. -/
def dirSetEntry (la : Nat) (e : Option DirEntry) : Prog := .look fun s =>
  match s.dirFind la, e with
  | some (k, _), none => Prog.coh fun c => { c with dir := Tab.erase c.dir k }
  | some (k, old), some d => Prog.coh fun c => touchAge { c with dir := Tab.put c.dir k d } k old.age.val
  | none, some d => match s.dirRoom la with
    | .free k => Prog.coh fun c => touchAge { c with dir := Tab.put c.dir k d } k (c.ageGap k)
    | _ => .skip
  | none, none => .skip

/-- The snoops outstanding to a host (R186). -/
def State.hostSnoops (s : State) (h : Fin 64) : Nat :=
  (s.dev.coh.busy.map fun e => (e.2.snoops.filter fun n => n.host == h && n.sent.isSome).length).sum

/-- Send one waiting snoop of a line where a BIRS cell and the host's limit allow it (R118, R186). -/
def snoopSend (la : Nat) (h : Fin 64) : Prog := .look fun s =>
  match Tab.get? s.dev.coh.busy la with
  | none => .skip
  | some b =>
    match b.snoops.find? fun n => n.host == h && n.sent.isNone with
    | none => .skip
    | some n =>
      if s.hostSnoops h < s.fld .root F.DEV_COH_CFG_BI_MAX ∧ s.resTaken .birs < s.clsRes .birs then
        Prog.all [
          Prog.coh fun c => { c with busy := Tab.put c.busy la { b with
            snoops := b.snoops.map fun m => if m.host == h && m.sent.isNone then { m with sent := some s.time } else m } },
          Prog.add .root F.DEV_COH_SNP_COUNT 1,
          outGo (.bisnp h la n.inv)]
      else .skip

/-- Send what waiting snoops may be sent (R186). -/
def snoopPump : Prog := .look fun s =>
  Prog.each s.dev.coh.busy fun e => Prog.each e.2.snoops fun n => snoopSend e.1 n.host

/-- Put the snoops of a line's transaction out. -/
def snoopStart (la : Nat) (l : List (Fin 64 × Bool)) : Prog := Prog.all [
  Prog.coh fun c => { c with busy := Tab.upd c.busy la fun b =>
    { b with served := true, snoops := l.map fun p => { host := p.1, inv := p.2, sent := none } } },
  Prog.each l fun p => snoopSend la p.1]

/-- A busy-line entry for a transaction that is to be served. -/
def Busy.of (b : BusyFor) (queue : List BusyFor) : Busy := { cur := b, served := false, snoops := [], queue, room := none }

/-- Start a recall of a line's copies: an eviction (R181) or a resize (R194). It takes a busy-line entry, and waits while all 4,096 are in use (R182); hosts treated
as lost are not asked (R191). -/
def recallStart (la : Nat) : Prog := Prog.seq (lostOwner la) (.look fun s =>
  match s.dirFind la with
  | none => .skip
  | some (_, e) => Prog.when (decide (s.dev.coh.busy.length < 4096) && !Tab.has s.dev.coh.busy la) (Prog.seq
      (Prog.coh fun c => { c with busy := Tab.put c.busy la (Busy.of .recall []) })
      (snoopStart la ((vecHosts e.shv).map fun h => (h, true)))))

/-- A directory set is the most recently used of the entry cache (R180). -/
def cohTouch (set : Nat) : Prog := Prog.coh fun c =>
  if c.cached.contains set then { c with cached := (c.cached.filter fun k => k != set) ++ [set] } else c

/-- A transaction asks for its line: it joins the line's queue, waits for the directory set's read, waits for a busy-line
entry, or takes one (R180, R182). -/
def cohArrive (la : Nat) (b : BusyFor) : Prog := .look fun s =>
  match Tab.get? s.dev.coh.busy la with
  | some l => Prog.coh fun c => { c with busy := Tab.put c.busy la { l with queue := l.queue ++ [b] } }
  | none =>
    let set := s.dirSet la
    if s.dirSets ≠ 0 ∧ !s.dev.coh.cached.contains set then
      Prog.coh fun c => { c with setWait := Tab.put c.setWait set (Tab.getD c.setWait set [] ++ [b]) }
    else if s.dev.coh.busy.length ≥ 4096 then Prog.coh fun c => { c with noBusy := c.noBusy ++ [b] }
    else Prog.seq (cohTouch set) (Prog.coh fun c => { c with busy := Tab.put c.busy la (Busy.of b []) })

/-- The line a transaction is for. -/
def State.busyLa (s : State) : BusyFor → Nat
  | .access a => a.la
  | .atomic i => match Tab.get? s.dev.coh.atoms i with
    | some t => t.gpa / 64
    | none => 0
  | .recall | .again _ => 0

/-- Release a line: the next of its queue is at the head, or the entry frees and one that waited for an entry takes its place
(R182). -/
def cohRelease (la : Nat) : Prog := .look fun s =>
  match Tab.get? s.dev.coh.busy la with
  | none => .skip
  | some b => match b.queue with
    | q :: qs => Prog.coh fun c => { c with busy := Tab.put c.busy la (Busy.of q qs) }
    | [] => Prog.seq (Prog.coh fun c => { c with busy := Tab.erase c.busy la })
      (match s.dev.coh.noBusy with
      | [] => .skip
      | n :: ns => Prog.seq (Prog.coh fun c => { c with noBusy := ns }) (cohArrive (s.busyLa n) n))

/-- An access whose snoops have ended: the entry and the grant are made, the line is released, and the access goes on to the
cache (R183-R185). -/
def cohFinishAcc (a : Acc) : Prog := .look fun s =>
  let r := cohResult a (s.grantOk a) ((s.dirFind a.la).map Prod.snd)
  Prog.all [dirSetEntry a.la r.1, cohRelease a.la, accLookup { a with mv := r.2 }]

/-- Read the value of an atomic operation: an access of the atomic unit, which looks up the cache and allocates nothing (R150, R196 step 3). -/
def atomRead (id : Nat) : Prog := .look fun s => Prog.opt (Tab.get? s.dev.coh.atoms id) fun t => Prog.seq
  (Prog.coh fun c => { c with atoms := Tab.put c.atoms id { t with step := .reading } })
  (accLookup { origin := .atomic id, op := .memRd, mv := .i, gpa := t.gpa, data := 0, mask := 0, wtype := .priv, cmode := 0,
               epoch := t.epoch, tgt := t.tgt, host := none, inst := none })

/-- Whether an access needs an entry for its line that its set has no place for: the one it found is gone, and another line has taken its place (R181). -/
def State.noEntry (s : State) (a : Acc) : Bool :=
  (s.dirFind a.la).isNone && (cohResult a (s.grantOk a) none).1.isSome && (match s.dirRoom a.la with
    | .free _ => false
    | _ => true)

/-- The snoops of a line's transaction have ended (R183, R184, R187, R194); a host that is lost by now is absent from the entry read (R191). An access that finds no
place for its entry is to be served again, which evicts one or waits (R181). -/
def cohFinish (la : Nat) : Prog := Prog.seq (lostOwner la) (.look fun s =>
  match Tab.get? s.dev.coh.busy la with
  | none => .skip
  | some b => match b.cur with
    | .access a => if s.noEntry a then Prog.coh fun c => { c with busy := Tab.put c.busy la { b with served := false, snoops := [] } } else cohFinishAcc a
    | .recall => Prog.seq (dirSetEntry la none) (cohRelease la)
    | .again inv => Prog.seq
        (Prog.opt (s.dirFind la) fun e => dirSetEntry la
          (if e.2.shv &&& ~~~inv = 0 then none else some { e.2 with shv := e.2.shv &&& ~~~inv, excl := false }))
        (cohRelease la)
    | .atomic id => Prog.seq (dirSetEntry la none) (atomRead id))

/-- A snoop of a line ends (R187, R190). -/
def snoopEnd (la : Nat) (h : Fin 64) : Prog := .look fun s =>
  match Tab.get? s.dev.coh.busy la with
  | none => .skip
  | some b =>
    let rest := b.snoops.filter fun n => n.host != h
    Prog.all [
      Prog.coh fun c => { c with busy := Tab.put c.busy la { b with snoops := rest } },
      Prog.when (rest.isEmpty && b.served && !b.snoops.isEmpty) (cohFinish la)]

/-- Every snoop outstanding to a host ends as if answered (R187, R190). -/
def snoopsEndFor (p : Fin 64 → Bool) : Prog := .look fun s =>
  Prog.seq (Prog.each s.dev.coh.busy fun e => Prog.each (e.2.snoops.filter fun n => p n.host) fun n => snoopEnd e.1 n.host)
    snoopPump

/-- Every host of the host table that may have a SHARED_HW window: those elsewhere, whose windows are not seen here, and those
here with such a window enabled (R193). -/
def State.sharedHosts (s : State) : List (Fin 64) := (List.finRange 64).filter fun h =>
  s.hostValid h && (s.hostSw h != s.swid || (List.range 16).any fun n =>
    s.fldn (.port (s.hostPort h)) F.PRT_WIN_CTL_EN n == 1 && s.fldn (.port (s.hostPort h)) F.PRT_WIN_CTL_WTYPE n == 2)

/-- Whether e4 can read the entry of a line: there is no directory, or the entry cache holds the line's set (R180). -/
def State.dirRead (s : State) (la : Nat) : Bool := s.dirSets == 0 || s.dev.coh.cached.contains (s.dirSet la)

/-- e4 reads the directory set of a line: hosts treated as lost are absent from its entries (R191). -/
def lostSet (la : Nat) : Prog := .look fun s => Prog.each (Tab.keep s.dev.coh.dir fun k _ => k / 4 == s.dirSet la) fun e => lostOwner e.2.la

/-- Serve the transaction at the head of a line (R181-R185, R193). The first access to a line of a suspect set goes on as for a line with no entry. -/
def cohServe (la : Nat) : Prog := Prog.seq (lostSet la) (.look fun s =>
  match Tab.get? s.dev.coh.busy la with
  | none => .skip
  | some b =>
    let e := s.dirFind la
    let first := s.dirSets != 0 && s.dirSuspect (s.dirSet la) && !s.dev.coh.touched.contains la
    let snoops : List (Fin 64 × Bool) :=
      if first then s.sharedHosts.map fun h => (h, true)
      else match e, b.cur with
        | some (_, d), .access a => cohSnoops a d
        | some (_, d), .atomic _ => (vecHosts d.shv).map fun h => (h, true)
        | _, _ => []
    let needs := match b.cur with
      | .access a => e.isNone && (cohResult a (s.grantOk a) none).1.isSome
      | _ => false
    if b.served || !s.dirRead la then .skip
    else
      match needs, s.dirRoom la with
      | true, .wait => .skip
      | true, .evict k => Prog.opt (Tab.get? s.dev.coh.dir k) fun d => Prog.when (decide (s.dev.coh.busy.length < 4096)) (Prog.all [
          Prog.add .root F.DEV_COH_EVICT_COUNT 1,
          Prog.coh fun c => { c with busy := Tab.put c.busy la { b with room := some k } },
          recallStart d.la])
      | _, _ => Prog.seq
          (Prog.when first (Prog.seq (dirSetEntry la none) (Prog.coh fun c => { c with touched := c.touched ++ [la] })))
          (if snoops.isEmpty then cohFinish la else snoopStart la snoops))

/-- The read of an atomic operation that was held is tried again (R196, R197). -/
def atomWake (la : Nat) : Prog := .look fun s => Prog.each (Tab.keep s.dev.coh.atoms fun _ t => t.step == .held && t.gpa / 64 == la) fun e => atomRead e.1

/-! ### At home, and on the way there -/

/-- An access at its home switch: it consults the directory (R173). A write-back or clean evict of a host that the line's
transaction is snooping goes ahead of the queue (R182); an access that finds neither an entry nor a busy line and comes
through no SHARED_HW window goes straight to the cache. -/
def accHome (a : Acc) : Prog := .look fun s =>
  let bypass := match Tab.get? s.dev.coh.busy a.la, hwHost a with
    | some b, some h => (a.op.isWrite || a.op == M2S.memClnEvct) && b.snoops.any fun n => n.host == h
    | _, _ => false
  if s.dirSets = 0 then
    if Tab.has s.dev.coh.busy a.la then cohArrive a.la (.access a) else accLookup { a with mv := .i }
  else if bypass then
    let r := cohResult a (s.grantOk a) ((s.dirFind a.la).map Prod.snd)
    Prog.seq (dirSetEntry a.la r.1) (accLookup { a with mv := r.2 })
  else if Tab.has s.dev.coh.busy a.la || !s.dev.coh.cached.contains (s.dirSet a.la) || a.wtype == WType.sharedHw
      || (s.dirFind a.la).isSome || s.dirSuspect (s.dirSet a.la) then cohArrive a.la (.access a)
  else Prog.seq (cohTouch (s.dirSet a.la)) (accLookup { a with mv := .i })

/-- Forward an access to its home switch under a tracker entry (R36, R122); with no route it is a lost path (R251). -/
def accForward (a : Acc) (home : Fin 16) : Prog := .look fun s =>
  let x := a.origin.xport
  let ep := bitOf a.epoch 0
  let wait := waitAt x .mreq (.forward a home)
  match s.route .mreq s.swid home with
  | none => Prog.seq (raise 100 a.origin.unit home.val)
      (ortOpen x (s.accReq a) x (some home) ep true (.fwd a.origin) wait fun _ _ _ => .skip)
  | some egr => ortOpen x (s.accReq a) egr (some home) ep false (.fwd a.origin) wait fun i g _ =>
      Prog.send (.toSwitch home egr (i, g) a)

/-- Whether an extent is in the final hold, so that new writes to it are parked (R87). -/
def State.inHold (s : State) (x : Nat) : Bool :=
  match s.dev.mov.hold with
  | none => false
  | some h => h.slots.any fun t => match Tab.get? s.dev.mov.slots t with
    | some m => m.x == x
    | none => false

/-- Park a write to an extent of the hold (R87): it takes an MREQ cell of the Floodplain, or waits at its ingress for one. -/
def park (a : Acc) : Prog := .look fun s =>
  match s.clsRoom .mreq false with
  | some r => Prog.all [
      fpCount .mreq r 1 0,
      Prog.mov fun m => { m with hold := m.hold.map fun h => { h with parked := h.parked ++ [(a, r)] } },
      fpPeak]
  | none => waitAt a.origin.xport .mreq (.park a)

/-- The unit being withdrawn that an extent names, as its TGT_A or its TGT_B (R158). -/
def State.withdrawing (s : State) (x : Nat) (t : Option Tgt) : Option Nat :=
  ((s.entry x).units ++ (match t with | some (.pinned u) => [u] | _ => [])).find? fun u => Tab.has s.dev.rsv.withdraw u

/-- An access whose target here is known: the poison list of an extent with PSN is read (R162), and an access waits while a unit of its extent is withdrawn (R158), a write to an extent of the hold is parked (R87), and
anything else is served. -/
def accLocal (a : Acc) : Prog := Prog.seq (psnProbe a.x) (.look fun s =>
  if s.mapBadNow a.x then answerNone a
  else match s.withdrawing a.x a.tgt with
  | some u => Prog.rsv fun r => { r with withdraw := Tab.upd r.withdraw u fun l => l ++ [a] }
  | none => if a.op.isWrite && s.inHold a.x then park a else accHome a)

/-- An access whose map entry is known (R49, R51, R87). -/
def accEntry (a : Acc) (e : MapEntry) : Prog := .look fun s =>
  let a := { a with tgt := e.tgtA }
  match e.type with
  | .unmapped => Prog.seq (raise 42 a.origin.unit a.x) (answerNone a)
  | _ =>
    if e.home ≠ s.swid then accForward a e.home else accLocal a

/-- A lookup reads an extent's line from the extent cache: a single-bit error is corrected and the line stands; a double-bit error drops the line, so that the
lookup misses and refetches it (R61). -/
def xcRead (x : Nat) (hit miss : Prog) : Prog := .look fun s =>
  let l := Tab.getD s.dev.xlat.cached (xcSet x) []
  if !l.contains x then miss
  else match Tab.get? s.dev.xlat.hurt x with
    | none => hit
    | some e => Prog.all [
        Prog.xlat fun v => { v with
          hurt := Tab.erase v.hurt x
          cached := if e = .uncorrectable then Tab.put v.cached (xcSet x) (l.filter fun y => y != x) else v.cached },
        raise 47 .root x,
        if e = .uncorrectable then miss else hit]

/-- The extent lookup of an access under the current epoch (R46, R59, R62, R67, R68); `count` says that a miss is counted, which a request that the ingress
held and looks up again was already. An extent treated under R62 answers with poison and logs no EV042 (log entry 122). -/
def accLook (count : Bool) (a0 : Acc) : Prog := .look fun s =>
  let a := { a0 with epoch := s.fld .root F.DEV_EPOCH_CUR }
  let x := a.x
  let v := s.dev.xlat
  let sealed := match v.adv with
    | some d => Tab.get? d.sealed x
    | none => none
  if x ≥ s.fld .root F.DEV_MAP_SIZE_NEXT then Prog.seq (raise 43 a.origin.unit x) (answerNone a)
  else match sealed with
    | some e => accEntry a e
    | none =>
      if v.bad.contains x then answerNone a
      else xcRead x (accEntry a (s.mapAt x)) (Prog.seq (Prog.when count (gauge a.origin.xport.unit 0x43 none 1)) (match Tab.get? v.misses x with
        | some m => Prog.xlat fun y => { y with misses := Tab.put y.misses x { m with waiters := m.waiters ++ [a] } }
        | none =>
            if v.misses.length < 256 then
              Prog.xlat fun y => { y with misses := Tab.put y.misses x { entry := s.mapAt x, waiters := [a] } }
            else Prog.xlat fun y => { y with heldMiss := y.heldMiss ++ [a] }))

/-- The extent lookup of an access that has just come. -/
def accTranslate (a : Acc) : Prog := accLook true a

/-- The requests that the ingress holds for a miss entry look up again, in order (R59); that is when the lookup begins that gives them their epoch (R67, log
entry 142). -/
def heldMissPump : Prog := .look fun s => Prog.seq (Prog.xlat fun v => { v with heldMiss := [] }) (Prog.each s.dev.xlat.heldMiss (accLook false))

end Sys2Proof.Machine
end

