-- ==== Sys2Proof/Machine/AtomOps.lean ====
section
/-!
DEFINITION. Machine/AtomOps.lean: the operations of the atomic unit (R195-R198) and what a host that does not answer brings about (R187,
R190-R192).
-/
namespace Sys2Proof.Machine

/-! ### Atomic operations -/

/-- Return an operation's result from X6 (R117): its code and the old value; every code but success is logged (R198). -/
def atomReply (o : Origin) (code : Nat) (old : BitVec 64) : Prog := Prog.seq
  (xSend (XPort.int 6) .rmac (.atomicResult o code old)) (Prog.when (code != 0) (raise 84 o.unit code))

/-- The value an operation leaves, where it changes it (R195). -/
def atomNew (op : AtomOp) (old : BitVec 64) : BitVec 64 :=
  match op with
  | .fadd64 n => old + n
  | .cas64 c w => if old = c then w else old

/-- Whether an operation may start now: the unit holds at most 256, and none starts on an extent in its final hold or with a unit being withdrawn (R87, R158,
R197). -/
def State.atomRoom (s : State) (gpa : Nat) : Bool :=
  decide (s.dev.coh.atoms.length < 256) && !s.inHold (gpa / 2 ^ 21) && (s.withdrawing (gpa / 2 ^ 21) none).isNone

/-- Whether the lookup of an extent goes to the extent cache: the map reaches it, its entry was read well, and the sealed buffer does not hold it (R46, R62, R68). -/
def State.looksUp (s : State) (x : Nat) : Bool :=
  decide (x < s.fld .root F.DEV_MAP_SIZE_NEXT) && !s.dev.xlat.bad.contains x
    && !(match s.dev.xlat.adv with | some a => Tab.has a.sealed x | none => false)

/-- An operation reaches the atomic unit (R195, R196 step 1, R198). -/
def atomStart (o : Origin) (op : AtomOp) (gpa : Nat) : Prog := .look fun s =>
  let x := gpa / 2 ^ 21
  let e := s.entry x
  let id := s.dev.coh.nextAtom
  if s.isFenced (.engine 2) then atomReply o 5 0
  else if gpa ≥ 2 ^ 50 then atomReply o 1 0
  else if gpa % 8 ≠ 0 then atomReply o 2 0
  else Prog.seq (Prog.when (s.looksUp x) (xcRead x .skip .skip)) (if x ≥ s.fld .root F.DEV_MAP_SIZE_NEXT ∨ e.type = .unmapped ∨ s.mapBadNow x then atomReply o 3 0
  else if e.home ≠ s.swid then
    let info : ReqInfo := { kind := o.kind, op := .atomic, tag := o.tag, addr := gpa, len := 8, inst := none,
                            srcSw := s.originSw o }
    let ep := bitOf (s.fld .root F.DEV_EPOCH_CUR) 0
    let wait := waitAt o.xport .rmac (.atomic { op, gpa, origin := o })
    match s.route .rmac s.swid e.home with
    | none => Prog.seq (raise 100 o.unit e.home.val) (ortOpen o.xport info o.xport (some e.home) ep true (.fwd o) wait fun _ _ _ => .skip)
    | some egr => ortOpen o.xport info egr (some e.home) ep false (.fwd o) wait fun i g _ => Prog.send (.atomicFwd e.home egr (i, g) op gpa)
  else if !s.atomRoom gpa then Prog.coh fun c => { c with atomWait := c.atomWait ++ [{ op, gpa, origin := o }] }
  else Prog.seq
    (Prog.coh fun c => { c with
      atoms := Tab.put c.atoms id { op, gpa, origin := o, epoch := s.fld .root F.DEV_EPOCH_CUR, tgt := e.tgtA, step := .waiting }
      nextAtom := id + 1 })
    (cohArrive (gpa / 64) (.atomic id)))

/-- Start the operations that waited for a place, or for the end of a hold or of a withdrawal, in order of arrival. -/
def atomPump : Prog := .look fun s => Prog.seq (Prog.coh fun c => { c with atomWait := [] })
  (Prog.each s.dev.coh.atomWait fun r => atomStart r.origin r.op r.gpa)

/-- An operation ends: its result is returned and its line's entry released (R196 step 6). -/
def atomFinish (id code : Nat) (old : BitVec 64) : Prog := .look fun s =>
  match Tab.get? s.dev.coh.atoms id with
  | none => .skip
  | some t => Prog.all [
      Prog.coh fun c => { c with atoms := Tab.erase c.atoms id },
      atomReply t.origin code old,
      cohRelease (t.gpa / 64),
      atomPump]

/-- The 8 bytes of a line at an address. -/
def lineWord (d : Line) (gpa : Nat) : BitVec 64 := BitVec.extractLsb' (gpa % 64 * 8) 64 d

/-- The operations whose write has been accepted end (R196 steps 5, 6). -/
def atomSettle : Prog := .look fun s => Prog.each s.dev.coh.atoms fun e => match e.2.step with
  | .wrote old => atomFinish e.1 0 old
  | _ => .skip

/-- The result of an operation that has its line is computed (R196 steps 4, 5, R198): a value that changes is written as an access of the atomic unit,
through the merge buffer where the line is held in the Reservoir, else to the module; the operation ends once that write is accepted. -/
def atomGot (id : Nat) : Prog := .look fun s =>
  match Tab.get? s.dev.coh.atoms id with
  | none => .skip
  | some t => match t.step with
    | .got d bad =>
      let la := t.gpa / 64
      let old := lineWord d t.gpa
      let new := atomNew t.op old
      if bad || s.linePoisoned la then atomFinish id 4 0
      else if new = old then Prog.seq (track la) (atomFinish id 0 old)
      else Prog.all [
        Prog.coh fun c => { c with atoms := Tab.put c.atoms id { t with step := .writing old } },
        accLookup {
          origin := .atomic id, op := .memWrPtl, mv := .i, gpa := t.gpa, data := (new.setWidth 512) <<< (t.gpa % 64 * 8),
          mask := BitVec.ofNat 64 (255 * 2 ^ (t.gpa % 64)), wtype := .priv, cmode := 0, epoch := t.epoch, tgt := t.tgt, host := none, inst := none },
        atomSettle]
    | _ => .skip

/-- The write of an operation is acknowledged by its module, or its path is lost (R196, R198). -/
def atomWrote (id : Nat) (ok : Bool) : Prog := .look fun s =>
  match Tab.get? s.dev.coh.atoms id with
  | none => .skip
  | some t => match t.step with
    | .writing old => if ok then Prog.seq (track (t.gpa / 64)) (atomFinish id 0 old)
        else Prog.all [track (t.gpa / 64), psnAdd (t.gpa / 64) 1, atomFinish id 6 0]
    | _ => .skip

/-! ### Hosts that do not answer -/

/-- A host is taken to be lost (R187, R190): EV078 at its port, or a contain notice to its switch, its LOST bit, and the end of every
snoop to it. -/
def hostLost (h : Fin 64) (arg : Nat) : Prog := .look fun s => Prog.all [
  raise 78 (s.hostUnit h) arg,
  Prog.when (s.hostSw h != s.swid) (Prog.seq
    (Prog.coh fun c => { c with notes := c.notes ++ [{ host := h, sw := s.hostSw h }] })
    (outGo (.containNotice h (s.hostSw h)))),
  Prog.set .root F.DEV_COH_LOST_LOST (s.fld .root F.DEV_COH_LOST_LOST ||| 2 ^ h.val),
  snoopsEndFor fun k => k == h]

/-- A host's answer to a snoop (R187, R189); the cell that it took when it came (R118) is its own. -/
def biRsp (h : Fin 64) (la : Nat) (r : BiRsp) : Prog := .look fun s =>
  match (Tab.get? s.dev.coh.busy la).bind fun b => b.snoops.find? fun n => n.host == h && n.sent.isSome with
  | none => raise 86 (s.hostUnit h) la
  | some n => if n.inv && r == .e then hostLost h 1 else Prog.seq (snoopEnd la h) snoopPump

/-- A snoop has gone unanswered (R190). -/
def snoopTimeout (h : Fin 64) (la : Nat) : Prog := .look fun s =>
  Prog.when ((Tab.get? s.dev.coh.busy la).any fun b => b.snoops.any fun n => n.host == h && n.sent.isSome) (hostLost h 0)

/-- A write of DEV_COH_HOSTn (R176, R177): an entry that is valid takes only V = 0, which retires its host, one that is treated as lost already among them. -/
def cohHostWrite (n v : Nat) : Prog := .look fun s =>
  let lost := bitOf (s.fld .root F.DEV_COH_LOST_LOST) n
  let h : Fin 64 := ⟨n % 64, Nat.mod_lt _ (by decide)⟩
  if s.fldn .root F.DEV_COH_HOST_V n = 0 ∧ !lost then regStore .root .DEV_COH_HOST n v
  else if bitOf v 31 then raise 40 .root n
  else if s.fldn .root F.DEV_COH_HOST_V n = 0 ∨ s.dev.coh.retiring.contains h then .skip
  else Prog.seq (Prog.set .root F.DEV_COH_LOST_LOST (s.fld .root F.DEV_COH_LOST_LOST ||| 2 ^ n))
    (Prog.coh fun c => { c with retiring := c.retiring ++ [h] })

/-- The walk for lost hosts ends (R177, R191, R192): their bits leave every entry, lines they owned are poisoned, their LOST bits clear
and retired entries become writable. -/
def hostWalkDone : Prog := .look fun s =>
  if s.fld .root F.DEV_COH_LOST_LOST = 0 then .skip
  else Prog.all [
    Prog.each s.dev.coh.dir fun e => lostOwner e.2.la,
    Prog.each s.dev.coh.retiring fun h => Prog.setn .root F.DEV_COH_HOST_V h.val 0,
    Prog.coh fun c => { c with retiring := [] },
    Prog.set .root F.DEV_COH_LOST_LOST 0,
    raise 80 .root 0]

/-- The sets the entry cache holds at most (R180); the model holds whole sets of four entries (log entry 126). -/
def dirCacheSets : Nat := 114688 / 4

/-- A directory set read from the region returns (R180, R193): it enters the entry cache in place of the least recently used one, or becomes suspect in the
way `bad` says; what waited for it goes on. -/
def dirSetReturn (set : Nat) (suspect : Prog) : Prog := .look fun s => Prog.all [
    suspect,
    Prog.coh fun c => { c with
      cached := if c.cached.contains set then c.cached
        else c.cached.drop (c.cached.length + 1 - dirCacheSets) ++ [set] },
    Prog.coh fun c => { c with setWait := Tab.erase c.setWait set },
    Prog.each (Tab.getD s.dev.coh.setWait set []) fun b => .look fun t => cohArrive (t.busyLa b) b]

end Sys2Proof.Machine
end

