-- ==== Sys2Proof/Machine/XlatOps.lean ====
section
/-!
DEFINITION. Machine/XlatOps.lean: windows (R40-R44), staging and sealing of map entries (R57, R64-R70, R75, R93-R96, R158,
R159), and the end of an advance (R69, R89).
-/
namespace Sys2Proof.Machine

/-! ### Windows -/

/-- A window's first HPA byte (R40). -/
def State.winBase (s : State) (pt : PortId) (n : Nat) : Nat := s.fldn (.port pt) F.PRT_WIN_BASE_BASE_HI n * 2 ^ 28

/-- A window's size in bytes (R40). -/
def State.winSize (s : State) (pt : PortId) (n : Nat) : Nat := (s.fldn (.port pt) F.PRT_WIN_SIZE_SIZE_M1 n + 1) * 2 ^ 28

/-- A window's first GPA byte (R40). -/
def State.winGpa (s : State) (pt : PortId) (n : Nat) : Nat := s.fldn (.port pt) F.PRT_WIN_GPA_GPA_HI n * 2 ^ 28

/-- Whether a window is enabled. -/
def State.winEn (s : State) (pt : PortId) (n : Nat) : Bool := s.fldn (.port pt) F.PRT_WIN_CTL_EN n == 1

/-- The window an HPA hits (R40). -/
def State.winHit (s : State) (pt : PortId) (hpa : Nat) : Option Nat :=
  (List.range 16).find? fun n => s.winEn pt n && decide (s.winBase pt n ≤ hpa) && decide (hpa < s.winBase pt n + s.winSize pt n)

/-- Whether two ranges overlap. -/
def overlap (a la b lb : Nat) : Bool := decide (a < b + lb) && decide (b < a + la)

/-- The host ports counted against the limit of 64 when a shared window is enabled (R39, R41). -/
def State.sharedPorts (s : State) (pt : PortId) (gpa size : Nat) : Nat :=
  let here := (s.portsIn .h).filter fun q => q == pt || (List.range 16).any fun n =>
    s.winEn q n && s.fldn (.port q) F.PRT_WIN_CTL_WTYPE n != 0 && overlap gpa size (s.winGpa q n) (s.winSize q n)
  let there := ((List.finRange 64).filter fun h => s.hostValid h && s.hostSw h != s.swid).map fun h => (s.hostSw h, s.hostPort h)
  (if here.contains pt then here.length else here.length + 1) + there.eraseDups.length

/-- Whether a window may be enabled with a type (R41). -/
def State.winOk (s : State) (pt : PortId) (n wtype : Nat) : Bool :=
  !((List.range 16).any fun k => k != n && s.winEn pt k
      && overlap (s.winBase pt n) (s.winSize pt n) (s.winBase pt k) (s.winSize pt k))
    && decide (s.winGpa pt n + s.winSize pt n ≤ 2 ^ 50)
    && (wtype == 0 || decide (s.sharedPorts pt (s.winGpa pt n) (s.winSize pt n) ≤ 64))

/-- A write of PRT_WINn_CTL (R14, R41, R42, R44). While EN is 1 a write can only clear EN and set LOCK; one whose WTYPE or CMODE differs from the current one
logs EV040, one that repeats both logs nothing (log entry 122). -/
def winCtlWrite (pt : PortId) (n v : Nat) : Prog := .look fun s =>
  let u := UnitId.port pt
  let en := bitOf v 0
  let wtype := bits v 2 1
  let cmode := bits v 4 3
  let lock := Prog.when (bitOf v 31) (Prog.setn u F.PRT_WIN_CTL_LOCK n 1)
  let differ := wtype != s.fldn u F.PRT_WIN_CTL_WTYPE n || cmode != s.fldn u F.PRT_WIN_CTL_CMODE n
  if s.fldn u F.PRT_WIN_CTL_LOCK n = 1 then raise 40 u n
  else if s.winEn pt n then
    Prog.all [Prog.when (!en) (Prog.setn u F.PRT_WIN_CTL_EN n 0), lock, Prog.when differ (raise 40 u n)]
  else if wtype = 3 then raise 40 u n
  else if en && !s.winOk pt n wtype then raise 40 u n
  else Prog.all [Prog.setn u F.PRT_WIN_CTL_WTYPE n wtype, Prog.setn u F.PRT_WIN_CTL_CMODE n cmode,
    Prog.setn u F.PRT_WIN_CTL_EN n (b2n en), lock]

/-- The value of a PRT_WINn_CTL write. -/
def winCtlValue (en : Bool) (wtype cmode : Fin 4) (lock : Bool) : Nat :=
  b2n en + wtype.val * 2 + cmode.val * 8 + b2n lock * 2 ^ 31

/-! ### Stripe sets and staging -/

/-- Whether an entry's targets name a stripe set (R56). -/
def MapEntry.namesSset (e : MapEntry) (n : Fin 4096) : Bool :=
  let is := fun (t : Option Tgt) => match t with
    | some (.stripe k _) => k == n
    | _ => false
  is e.tgtA || is e.tgtB

/-- Whether a committed or staged entry of an extent at home here names a stripe set: its reference count is not zero (R56). The targets in an entry of
another home are not used (R267). -/
def State.ssetNamed (s : State) (n : Fin 4096) : Bool :=
  let v := s.dev.xlat
  let names := fun (e : MapEntry) => e.home == s.swid && e.namesSset n
  let staged := fun (b : Option (Tab Staged)) => match b with
    | some t => t.any fun e => names e.2.e
    | none => false
  v.map.any (fun e => names e.2) || staged v.openBuf || staged v.queued
    || (match v.adv with | some a => a.sealed.any fun e => names e.2 | none => false)

/-- The capacity of the module present on a port in 2 MiB units, where one is READY (R57). -/
def State.capX (s : State) (m : Fin 128) : Option Nat :=
  let pt := mportOf m
  if s.portExists pt ∧ s.mode pt.g = .m ∧ s.fld (.port pt) F.PRT_MSTAT_STATE = 3 then some (s.fld (.port pt) F.PRT_MSTAT_CAP_X)
  else none

/-- Whether a target passes the staging checks (R57); the MPORTs of a stripe set's members are not among them (log entry 142). -/
def State.tgtOk (s : State) : Tgt → Bool
  | .module m d => s.portExists (mportOf m) && s.mode (mportOf m).g == .m && decide ((d + 1) * 2 ^ 21 ≤ 2 ^ 42)
      && (match s.capX m with | some c => decide (d + 1 ≤ c) | none => true)
  | .stripe n o => match Tab.get? s.dev.xlat.ssets n.val with
      | some t => decide (o < t.next)
      | none => false
  | .pinned u => decide (u < s.fld .root F.DEV_RSV_PART_UNITS)

/-- Whether a target in use passes. -/
def State.tgtOk? (s : State) : Option Tgt → Bool
  | some t => s.tgtOk t
  | none => false

/-- Whether a bitmap slot is free for an extent: no other moving extent holds it and no MOVING entry of the open buffer for another extent at home here
names it (R57, R267). -/
def State.trkFree (s : State) (trk : Fin 65536) (x : Nat) (buf : Tab Staged) : Bool :=
  (match Tab.get? s.dev.mov.slots trk.val with | some m => m.x == x | none => true)
    && !(buf.any fun e => e.1 != x && e.2.e.type == .moving && e.2.e.home == s.swid && e.2.e.trk == trk)

/-- Whether an entry may be staged for an extent (R57, R75, R93); an entry of another home ends no move here (log entry 142). -/
def State.stageOk (s : State) (x : Nat) (e : MapEntry) (buf : Tab Staged) : Bool :=
  let c := s.entry x
  if e.home ≠ s.swid then !(c.type == .moving && c.home == s.swid)
  else
    (match e.type with
      | .unmapped => true
      | .mapped => s.tgtOk? e.tgtA
      | .moving => s.tgtOk? e.tgtA && s.tgtOk? e.tgtB && s.trkFree e.trk x buf && c.type == .mapped && c.home == e.home
          && decide (e.tgtA = c.tgtA) && decide (e.tgtB ≠ e.tgtA))
    && (if c.type = .moving ∧ c.home = s.swid then
        e.type == .mapped && (decide (e.tgtA = c.tgtA) || (decide (e.tgtA = c.tgtB) &&
          (match Tab.get? s.dev.mov.slots c.trk.val with | some m => m.state == .failedSrc | none => false)))
      else true)

/-- Stage an entry into the open buffer, after its checks (R57, R64, R66). A command stages one entry; no check stands against an extent at or beyond the reach
of the map (log entry 122). -/
def mapStage (h : Hdr) (x : Nat) (w : Nat) : Prog := .look fun s =>
  match s.dev.xlat.openBuf with
  | none => reply h stBusy []
  | some buf =>
    match MapEntry.ofNum w (fun _ => true) with
    | none => reply h stInvalid []
    | some e =>
      let closes := (s.entry x).type == .moving && (s.entry x).home == s.swid
      if !s.stageOk x e buf then reply h stInvalid []
      else if !Tab.has buf x && decide (buf.length ≥ 4096) then reply h stLimit []
      else Prog.seq (Prog.xlat fun v => { v with openBuf := some (Tab.put buf x { e, closes }) }) (reply h stOk [])

/-! ### The seal -/

/-- Whether the committed entry of another extent names a unit of an entry (R159). -/
def State.unitClash (s : State) (x : Nat) (e : MapEntry) : Bool :=
  s.dev.xlat.map.any fun c => c.1 != x && c.2.home == s.swid && c.2.units.any fun u => e.units.contains u

/-- Whether the seal discards a staged entry (R94, R159). -/
def State.sealDrop (s : State) (x : Nat) (g : Staged) : Bool :=
  let c := s.mapAt x
  (g.closes && c.type != .moving)
    || (g.e.type == .moving && g.e.home == s.swid && decide (g.e.tgtA ≠ c.tgtA))
    || (g.e.home == s.swid && s.unitClash x g.e)

/-- Withdraw a unit's sets from the cache (R158): dirty lines are written back, every line is dropped, and the unit's places
hold zeros (a place that nothing has written since reads so); accesses wait until PINNED_UNIT_WITHDRAWN. -/
def withdrawUnit (u : Nat) : Prog := .look fun s =>
  let inUnit := fun (k : Nat) => k / 16 / 2048 == u
  Prog.all [
    Prog.each (Tab.keep s.dev.rsv.ways fun k y => inUnit k && y.dirty && !y.pu) fun e => wayOut (e.1 / 16) (e.1 % 16) (writeBack e.2.la),
    waysChange (fun k _ => inUnit k) fun _ => none,
    scrubTouchBy fun set _ => set / 2048 == u,
    Prog.rsv fun r => { r with
      withdraw := Tab.put r.withdraw u []
      hint := Tab.mapAll r.hint fun _ l => l.filter fun st => st / 2048 != u }]

/-- What the seal of an entry does beside publishing it: a new moving extent gets its slot with a clear bitmap (R78, R79); an
entry that ends a move stops its copying (R94); a commit entry poisons the lines that are not known to be on the destination, those still to be copied or
not acknowledged in the pass and those marked (R96);
a unit named for the first time is withdrawn from the cache (R158). -/
def sealEntry (x : Nat) (g : Staged) : Prog := .look fun s =>
  let c := s.mapAt x
  Prog.all [
    Prog.when (g.e.type == .moving && g.e.home == s.swid) (Prog.mov fun m => { m with
      slots := Tab.put m.slots g.e.trk.val {
        x, state := .wait, passes := 0, tries := 0, firstDone := false, word := 512, todo := 0, writing := 0, hotLogged := false, stopped := false }
      marks := Tab.put m.marks g.e.trk.val 0 }),
    Prog.when (g.closes && decide (g.e.tgtA = c.tgtB))
      (Prog.opt (Tab.get? s.dev.mov.slots c.trk.val) fun m =>
        Prog.each (maskLines (m.todo ||| m.writing ||| s.marksOf c.trk.val)) fun l =>
          psnAdd (x * 32768 + l) 5),
    Prog.when g.closes (Prog.mov fun m => { m with
      slots := Tab.upd m.slots c.trk.val fun t => { t with stopped := true, todo := 0 } }),
    Prog.when (g.e.home == s.swid)
      (Prog.each (g.e.units.filter fun u => !s.unitNamed u) withdrawUnit)]

/-- Seal a buffer as the next epoch (R65, R67, R78, R94, R159): entries that no longer fit are discarded with EV054. -/
def sealBuf (buf : Tab Staged) (flip : Bool) : Prog := .look fun s =>
  let kept := Tab.keep buf fun x g => !s.sealDrop x g
  let units := (kept.flatMap fun e => if (s.mapAt e.1).home = s.swid then (s.mapAt e.1).units else []).eraseDups
  let slots := kept.filterMap fun e =>
    if (s.mapAt e.1).type = .moving ∧ (s.mapAt e.1).home = s.swid then some (s.mapAt e.1).trk.val else none
  Prog.all [
    Prog.each (Tab.keep buf fun x g => s.sealDrop x g) fun e => raise 54 .root e.1,
    Prog.each kept fun e => sealEntry e.1 e.2,
    Prog.xlat fun v => { v with
      adv := some { sealed := kept.map fun e => (e.1, e.2.e), written := false, flip, since := s.time, warned := false,
                    units, slots } },
    Prog.add .root F.DEV_EPOCH_CUR 1,
    Prog.set .root F.DEV_EPOCH_STAT_STATE 1]

/-- MAP_ADVANCE (R65, R66, R86). -/
def mapAdvance (h : Hdr) : Prog := .look fun s =>
  let v := s.dev.xlat
  let next := (s.fld .root F.DEV_EPOCH_CUR + 1) % 2 ^ 32
  match v.openBuf, v.adv, s.dev.mov.hold with
  | none, _, _ => reply h stBusy []
  | some b, none, none => Prog.all [Prog.xlat fun y => { y with openBuf := some [] }, sealBuf b false, reply h stOk [next]]
  | some b, none, some _ => Prog.xlat fun y => { y with openBuf := none, queued := some b, heldReply := some h }
  | some b, some _, _ => Prog.seq (Prog.xlat fun y => { y with openBuf := none, queued := some b }) (reply h stOk [next])

/-- Start a queued advance (R66). -/
def startQueued : Prog := .look fun s =>
  match s.dev.xlat.queued with
  | none => .skip
  | some b => Prog.seq (Prog.xlat fun v => { v with queued := none, openBuf := some [] }) (sealBuf b false)

/-! ### The end of an advance -/

/-- Every access the device still carries, wherever it waits. -/
def State.liveAccs (s : State) : List Acc :=
  let d := s.dev
  let busy := fun (b : BusyFor) => match b with | .access a => [a] | _ => []
  (d.xlat.misses.flatMap fun e => e.2.waiters) ++ d.xlat.heldMiss
    ++ (d.ort.entries.filterMap fun e => match e.2.ctx with | .acc a _ => if e.2.isOpen then some a else none | _ => none)
    ++ (d.rsv.reads.flatMap fun e => e.2.acc :: e.2.behind) ++ d.rsv.mergeWait ++ (d.rsv.merge.flatMap fun e => e.2.reads ++ e.2.late)
    ++ (d.rsv.withdraw.flatMap fun e => e.2)
    ++ (d.coh.busy.flatMap fun e => busy e.2.cur ++ e.2.queue.flatMap busy) ++ d.coh.noBusy.flatMap busy
    ++ (d.coh.setWait.flatMap fun e => e.2.flatMap busy)
    ++ (d.flood.waiting.flatMap fun e => e.2.filterMap fun w => match w with
        | .forward a _ | .target a => some a
        | _ => none)

/-- Whether a transaction translated under the old epoch remains (R69, R72). -/
def State.oldLive (s : State) : Bool :=
  let cur := s.fld .root F.DEV_EPOCH_CUR
  s.liveAccs.any (fun a => a.epoch != cur)
    || s.dev.ort.entries.any (fun e => e.2.isOpen && e.2.epar != bitOf cur 0 && e.2.info.op != .ioRead && e.2.info.op != .ioWrite)
    || s.dev.coh.atoms.any (fun e => e.2.epoch != cur)
    || s.dev.flood.waiting.any (fun e => e.2.any fun w => match w with
      | .cell c | .lost c _ => c.req.isSome && c.epar != bitOf cur 0
      | _ => false)

/-- Install an extent's line in the extent cache, or write it anew; which line leaves a full set is open (R58, log entry 14). -/
def xcInstall (x : Nat) : Prog := .look fun s =>
  let l := Tab.getD s.dev.xlat.cached (xcSet x) []
  Prog.seq (Prog.xlat fun v => { v with hurt := Tab.erase v.hurt x }) (if l.contains x then .skip
  else if l.length < 28 then Prog.xlat fun v => { v with cached := Tab.put v.cached (xcSet x) (l ++ [x]) }
  else Prog.free fun f => Prog.xlat fun v =>
    { v with cached := Tab.put v.cached (xcSet x) (l.eraseIdx ((Config.freeValue f).toNat % 28) ++ [x]) })

/-- Owed poison-add notices whose extent is now UNMAPPED or has another home are discarded (R131). -/
def noticeSweep : Prog := .look fun s =>
  let gone := fun (line : Nat) (home : Fin 16) =>
    let e := s.mapAt (line / 32768)
    e.type == .unmapped || e.home != home
  Prog.ort fun o => { o with
    entries := Tab.mapAll o.entries fun _ e => match e.owed with
      | some h => if gone (e.info.addr / 64) h then { e with owed := none } else e
      | none => e
    notices := o.notices.filter fun n => !gone n.line n.home }

/-- e5 has written the sealed entries to the map region and the extent cache; a new entry ends the state of R62 (R60, R69). -/
def sealedWritten : Prog := .look fun s =>
  match s.dev.xlat.adv with
  | none => .skip
  | some a =>
    if a.written then .skip
    else Prog.all [
      Prog.xlat fun v => { v with
        map := a.sealed.foldl (fun t e => Tab.setD t MapEntry.unmapped e.1 e.2) v.map
        bad := v.bad.filter fun x => !Tab.has a.sealed x
        adv := some { a with written := true } },
      Prog.each a.sealed fun e => xcInstall e.1,
      noticeSweep]

/-- The units that no entry names any longer return to the cache (R159). -/
def releaseUnits (l : List Nat) : Prog := .look fun s =>
  let free := fun (u : Nat) => l.contains u && !s.unitNamed u
  Prog.seq (waysChange (fun k y => y.pu && free (k / 16 / 2048)) fun _ => none) (scrubTouchBy fun set _ => free (set / 2048))

/-- Start the first pass of the moving extents that wait (R78, R92). -/
def startCopies : Prog :=
  Prog.mov fun m => { m with slots := Tab.mapAll m.slots fun _ t =>
    if t.state = .wait ∧ !t.stopped then { t with state := .copy, word := 512, todo := allLines } else t }

/-- The advance completes (R69, R78, R89, R159): the buffer and the slots are released, DEV_EPOCH_DONE follows, EV045 or EV048 is
logged, new moves start to copy, and a queued advance starts at once. -/
def advanceDone : Prog := .look fun s =>
  match s.dev.xlat.adv with
  | none => .skip
  | some a =>
    if !a.written || s.oldLive then .skip
    else Prog.all [
      Prog.xlat fun v => { v with adv := none },
      Prog.set .root F.DEV_EPOCH_DONE_DONE (s.fld .root F.DEV_EPOCH_CUR),
      Prog.set .root F.DEV_EPOCH_STAT_STATE 0,
      releaseUnits a.units,
      Prog.mov fun m => { m with
        slots := Tab.keep m.slots fun k _ => !a.slots.contains k
        marks := Tab.keep m.marks fun k _ => !a.slots.contains k },
      raise (if a.flip then 48 else 45) .root (s.fld .root F.DEV_EPOCH_CUR),
      .look fun t => Prog.when (!s.dev.mov.slots.isEmpty && t.dev.mov.slots.isEmpty) (raise 55 .root 0),
      startCopies,
      startQueued]

/-! ### Stripe sets and the invalidation of the extent cache (R54, R56, R63) -/

/-- The members of a stripe set of a WIDTH encoding (R54). -/
def ssetWidth (w : Fin 4) : Nat := match w.val with | 0 => 0 | 1 => 2 | 2 => 4 | _ => 8

/-- Whether a stripe-set entry is valid (R56). -/
def State.ssetOk (s : State) (w next : Nat) (ms : List (Fin 128 × Nat)) : Bool :=
  w != 0 && next != 0 && decide (ms.length = w) && decide ((ms.map Prod.fst).eraseDups.length = w)
    && ms.all fun m =>
      decide (m.2 * 2 ^ 21 + next * 2 ^ 21 / w ≤ 2 ^ 42)
        && (match s.capX m.1 with
          | some c => decide (m.2 * 2 ^ 21 + next * 2 ^ 21 / w ≤ c * 2 ^ 21)
          | none => true)

/-- SSET_DEFINE (R54, R56): members at and above the width are ignored. -/
def ssetDefine (h : Hdr) (n : Fin 4096) (width : Fin 4) (next : Nat) (members : List (Fin 128 × Fin 2097152)) : Prog :=
  .look fun s =>
    let w := ssetWidth width
    let ms := (members.take w).map fun m => (m.1, m.2.val)
    if !s.ssetOk w next ms then reply h stInvalid []
    else if s.ssetNamed n then reply h stBusy []
    else Prog.seq (Prog.xlat fun v => { v with ssets := Tab.put v.ssets n.val { members := ms, next } }) (reply h stOk [])

/-- A write of DEV_XC_CTL with INV 1: every entry line is invalid and the invalidation runs (R63). -/
def xcInvalidate : Prog :=
  Prog.seq (Prog.xlat fun v => { v with cached := [], hurt := [] }) (Prog.set .root F.DEV_XC_CTL_BUSY 1)

end Sys2Proof.Machine
end

