-- ==== Sys2Proof/Machine/MovOps.lean ====
section
/-!
DEFINITION. Machine/MovOps.lean: the data mover: passes, line copies, the final hold and the flip, and failures (spec 03).
-/
namespace Sys2Proof.Machine

/-- A destination write of a slot failed: copying stops and the source keeps serving (R95). -/
def movFailDst (t : Nat) : Prog := .look fun s => Prog.opt (Tab.get? s.dev.mov.slots t) fun m =>
  Prog.when m.copying (Prog.seq (slotUpd t fun v => { v with state := .failedDst }) (raise 53 .root m.x))

/-- A destination has acknowledged a line of a slot. -/
def movWritten (t line : Nat) : Prog := Prog.seq (slotUpd t fun v => { v with writing := maskDiff v.writing (2 ^ line) })
  (Prog.add .root F.DEV_MOV_BYTES_BYTES 64)

/-- Where a line of an extent is held in the Reservoir: its place in a pinned unit, or its way of the cache. -/
def State.heldAt (s : State) (tgt : Option Tgt) (la : Nat) : Option (Nat × Nat) :=
  match s.place tgt (la * 64) with
  | .pinned set w => some (set, w)
  | _ => (s.findWay (s.cacheSet la) la).map fun w => (s.cacheSet la, w)

/-- The data of a way; a place of a pinned unit that nothing has written holds zeros (R158). -/
def State.wayData (s : State) (set w : Nat) : Line := match s.way? set w with | some y => y.data | none => 0

/-- What a read or write of the data mover brings to the tracker (R124). -/
def copyInfo (op : OrtOp) (t la : Nat) (sw : Fin 16) : ReqInfo :=
  { kind := .dataMover, op, tag := BitVec.ofNat 16 t, addr := la * 64, len := 64, inst := none, srcSw := sw }

/-- Issue the write of a copied line that the slot counts as being written (R82, R122): at the place of a pinned unit, or to a module, with a tracker entry for which
it waits at the mover's port (R117, R123). A slot that has stopped since writes nothing. -/
def movIssue (t line : Nat) (d : Line) (bad : Bool) : Prog := .look fun s => Prog.opt (Tab.get? s.dev.mov.slots t) fun m =>
  let la := m.x * 32768 + line
  Prog.when (bitOf m.writing line) (match s.place (s.entry m.x).tgtB (la * 64) with
    | .lost => movFailDst t
    | .pinned set w => Prog.seq (putWay set w { la, dirty := false, pin := false, pu := true, lost := false, data := d }) (movWritten t line)
    | .module pt dpa => ortOpen (XPort.int 6) (copyInfo .fullWrite t la s.swid) pt.x none (bitOf (s.fld .root F.DEV_EPOCH_CUR) 0) false (.copyWrite t line)
        (waitAt (XPort.int 6) .mreq (.copy t line d bad)) fun i g k => Prog.send (.toModule pt (i, g) k .memWr dpa d (BitVec.allOnes 64) bad))

/-- Write a copied line to the destination of its move, with poison where the source's line cannot be read (R82, R92, R95). -/
def movWrite (t line x : Nat) (tgt : Option Tgt) (d : Line) (bad : Bool) : Prog := .look fun s =>
  let la := x * 32768 + line
  let take := slotUpd t fun v => { v with todo := maskDiff v.todo (2 ^ line), writing := v.writing ||| 2 ^ line }
  let unmark := Prog.mov fun m => { m with marks := match Tab.get? m.slots t with
    | some v => if v.state = .hold then Tab.upd m.marks t fun k => maskDiff k (2 ^ line) else m.marks
    | none => m.marks }
  let done := Prog.all [take, unmark, Prog.when bad (Prog.seq (psnAdd la 4) (raise 51 .root x))]
  match s.place tgt (la * 64) with
  | .lost => movFailDst t
  | _ => Prog.seq done (movIssue t line d bad)

/-- The lines of a slot that are still to be copied: a line on the poison list is not copied (R92). -/
def State.toCopy (s : State) (m : MovSlot) : Nat := maskDiff m.todo (s.poisonMask m.x)

/-- The reads of the lines of a slot's bitmap that hold words from one to another: the words of an uncorrectable one are all ones (R82, R162). -/
def movWords (t a b : Nat) : Prog := Prog.each (List.range ((b + 7) / 8 - a / 8)) fun i =>
  areaRead (0x80000000 + t * 4096 + (a / 8 + i) * 64) (bitmapLost t (a / 8 + i))

/-- The mover reads and clears the words of a slot's bitmap below word n that this pass has not read (R82), before it reads any line of theirs. -/
def movTake (t n : Nat) : Prog := .look fun q => Prog.seq
  (Prog.opt (Tab.get? q.dev.mov.slots t) fun m => Prog.when (decide (m.word < n)) (movWords t m.word n)) <| .look fun s => Prog.opt (Tab.get? s.dev.mov.slots t) fun m =>
  let hit := s.marksOf t % 2 ^ (64 * n) / 2 ^ (64 * m.word) * 2 ^ (64 * m.word)
  Prog.when (decide (m.word < n)) (Prog.mov fun v => { v with
    slots := Tab.put v.slots t { m with todo := m.todo ||| hit, word := n }
    marks := Tab.upd v.marks t fun k => maskDiff k hit })

/-- A read of the data mover looks up the cache (R150): it is counted, and without a hint entry the set is read and its entry installed. -/
def movLookup (la : Nat) (hit : Bool) : Prog := .look fun s =>
  let set := s.cacheSet la
  Prog.all [
    gauge (.stack (setStack set)) 0x45 none 1,
    Prog.when hit (gauge (.stack (setStack set)) 0x44 none 1),
    hintCheck set,
    hintInstall set]

/-- A tracker entry for the read of a source line (R122); where the tracker has none the read waits at the mover's port (R117, R123). -/
def copyOpen (t line la : Nat) (pt : PortId) (ok : Nat → Nat → Nat → Prog) : Prog := .look fun s =>
  ortOpen (XPort.int 6) (copyInfo .read t la s.swid) pt.x none (bitOf (s.fld .root F.DEV_EPOCH_CUR) 0) false (.copyRead t line)
    (Prog.when (!(Tab.getD s.dev.flood.waiting (qKey (XPort.int 6) .mreq) []).contains (.copyRead t line)) (waitAt (XPort.int 6) .mreq (.copyRead t line))) ok

/-- The read of a source line that waited for the tracker goes to its module, while the line is still to be copied. -/
def movFetch (t line : Nat) : Prog := .look fun s => Prog.opt (Tab.get? s.dev.mov.slots t) fun m =>
  let la := m.x * 32768 + line
  Prog.when (m.copying && !s.wbWaits la && bitOf (if m.state = .hold then m.todo ||| s.marksOf t else m.todo) line) (match s.place (s.entry m.x).tgtA (la * 64) with
    | .module pt dpa => copyOpen t line la pt fun i g k => Prog.send (.toModule pt (i, g) k .memRd dpa 0 0 false)
    | _ => .skip)

/-- Copy a line of a slot that is to be copied (R82, R92, R150), once its merge-buffer entry has the old line (R160), no write-back of it waits (R174) and an earlier write of it is acknowledged: its merged value, else its value in the Reservoir, which was read with the flipped bits `b`, else
what the module sent, as poison where the line misses in a suspect set (R161). A clean cached line that is uncorrectable leaves the cache, and the mover reads its
module later. The read of a module runs under a tracker entry (R122): the one that its answer names (`tracked`), or one which the model opens and closes in the step its
data comes (log entry 124); where the tracker has none the read waits for it, and its data comes with that entry's answer (R123). -/
def movCopy (tracked : Bool) (t line : Nat) (d : Line) (bad : Bool) (b : Burst) : Prog := .look fun s =>
  match Tab.get? s.dev.mov.slots t with
  | none => .skip
  | some m =>
    let la := m.x * 32768 + line
    let todo := if m.state = .hold then m.todo ||| s.marksOf t else m.todo
    let drained := match s.dev.mov.hold with | some h => h.drained | none => false
    if !m.copying || !bitOf todo line || bitOf m.writing line || s.linePoisoned la || (m.state == .hold && !drained)
        || s.wbWaits la || (match Tab.get? s.dev.rsv.merge la with | some v => !v.ready | none => false) then .skip
    else
      let e := s.entry m.x
      let set := s.cacheSet la
      match Tab.get? s.dev.rsv.merge la, s.heldAt e.tgtA la with
      | some v, _ => movWrite t line m.x e.tgtB v.data false
      | none, some p => Prog.all [
          Prog.when (!s.unitNamed (p.1 / 2048)) (movLookup la true),
          wayRead p.1 p.2 b,
          .look fun r => Prog.when (s.unitNamed (p.1 / 2048) || (r.findWay set la).isSome)
            (movWrite t line m.x e.tgtB (r.wayData p.1 p.2 ^^^ burstSlip b) (burstBad b))]
      | none, none => Prog.seq (Prog.when (!s.unitNamed (set / 2048)) (movLookup la false))
        (match s.place e.tgtA (la * 64) with
        | .module pt _ =>
          let write := movWrite t line m.x e.tgtB d (bad || s.setSuspect set)
          if tracked then write else copyOpen t line la pt fun i _ _ => Prog.seq (ortFree i) write
        | _ => movFailSrc t)

/-- Whether the mover makes no step: it is paused, or its engine is fenced or quiesces (R84, R434, R479). -/
def State.movStops (s : State) : Bool :=
  s.flag .root F.DEV_MOV_CTL_PAUSE || s.isFenced (.engine 3) || s.fld (.engine 3) F.ENG_STAT_STATE == 1

/-- The read of a source line returns (R82, R84); `bad` says that the module's line carries poison, `b` which bits of a line held in the Reservoir came flipped. The
words of the bitmap that made it a line to copy were cleared before it was read. While the mover is paused no line copy begins (log entry 123). -/
def movReturn (tracked : Bool) (t line : Nat) (d : Line) (bad : Bool) (b : Burst) : Prog := .look fun s =>
  Prog.when (!s.movStops) (movCopy tracked t line d bad b)

/-- The read of a source line returns whose tracker entry the model opens as its data comes. -/
def movRead (t line : Nat) (d : Line) (bad : Bool) (b : Burst) : Prog := movReturn false t line d bad b

/-- A slot's state, passes and lines at the end of a pass (R83): READY where the marked lines are few enough, HOT after MAX_PASSES without it, else the next
pass begins. -/
def State.passEnd (s : State) (t : Nat) (m : MovSlot) : MovSlot :=
  let maxP := s.fld .root F.DEV_MOV_CTL_MAX_PASSES
  let hot := m.state == .hot || (decide (maxP ≠ 0) && decide (m.tries + 1 ≥ maxP))
  if maskCount (s.marksOf t) ≤ s.fld .root F.DEV_MOV_CTL_HOLD_LINES then
    { m with state := .ready, passes := m.passes + 1, tries := 0, firstDone := true, todo := 0 }
  else { m with
    state := if hot then .hot else .copy, passes := m.passes + 1, tries := m.tries + 1, firstDone := true, word := 0, todo := 0
    hotLogged := m.hotLogged || hot }

/-- With nothing to be copied or acknowledged (R82, R83), the words that a pass has not read are read, and with no line of theirs to be copied the pass is over. A paused mover
ends no pass. -/
def movPass (t : Nat) : Prog := .look fun s =>
  match Tab.get? s.dev.mov.slots t with
  | none => .skip
  | some m =>
    if s.movStops || m.stopped || !(m.state == .copy || m.state == .hot) || s.toCopy m != 0 || m.writing != 0
    then .skip
    else Prog.seq (movTake t 512) (.look fun r => Prog.opt (Tab.get? r.dev.mov.slots t) fun v =>
      Prog.when (r.toCopy v == 0) (Prog.seq (slotUpd t fun _ => r.passEnd t v)
        (Prog.when ((r.passEnd t v).hotLogged && !v.hotLogged) (raise 50 .root v.x))))

/-- The READY extents a hold takes: in slot order, at most 256, while their marked lines stay within HOLD_LINES (R86). -/
def holdPick (marks : Nat → Nat) (budget : Nat) : List (Nat × MovSlot) → Nat → Nat → List Nat
  | [], _, _ => []
  | (t, m) :: r, n, used =>
    if m.state != .ready || m.stopped then holdPick marks budget r n used
    else if n ≥ 256 ∨ used + maskCount (marks t) > budget then []
    else t :: holdPick marks budget r (n + 1) (used + maskCount (marks t))

/-- Start a final hold (R86, R87 step 1). -/
def holdStart : Prog := .look fun s =>
  let l := holdPick s.marksOf (s.fld .root F.DEV_MOV_CTL_HOLD_LINES) s.dev.mov.slots 0 0
  if s.movStops || s.dev.xlat.adv.isSome || s.dev.xlat.queued.isSome || s.dev.mov.hold.isSome
      || l.isEmpty then .skip
  else Prog.mov fun m => { m with
    hold := some { slots := l, since := s.time, drained := false, parked := [] }
    slots := Tab.mapAll m.slots fun t v => if l.contains t then { v with state := .hold } else v }

/-- The extents of the hold. -/
def State.heldX (s : State) (h : Hold) : List Nat := h.slots.filterMap fun t => (Tab.get? s.dev.mov.slots t).map fun m => m.x

/-- Whether an accepted write to an extent of the hold is still not acknowledged at its source (R87 step 2); an atomic operation that was translated before the
park still writes there. -/
def State.holdBusy (s : State) (h : Hold) : Bool :=
  let xs := s.heldX h
  let hit := fun (a : Acc) => a.op.isWrite && xs.contains a.x
  let wb := fun (w : Wait) => match w with | .wb la _ | .flush la _ _ _ => xs.contains (la / 32768) | _ => false
  s.liveAccs.any hit || s.dev.rsv.merge.any (fun e => xs.contains (e.1 / 32768))
    || s.dev.coh.atoms.any (fun e => xs.contains (e.2.gpa / 2 ^ 21))
    || s.dev.flood.waiting.any (fun e => e.2.any wb)
    || s.dev.ort.entries.any fun e => e.2.isOpen && (match e.2.ctx with
      | .wb la _ => xs.contains (la / 32768)
      | _ => false)

/-- The sources are drained: the marked lines of the held extents are copied (R87 steps 2, 3). -/
def holdDrained : Prog := .look fun s =>
  match s.dev.mov.hold with
  | none => .skip
  | some h =>
    if h.drained || s.holdBusy h || s.movStops then .skip
    else Prog.mov fun m => { m with
      hold := some { h with drained := true }
      slots := Tab.mapAll m.slots fun t v =>
        if h.slots.contains t then { v with todo := s.marksOf t } else v
      marks := Tab.mapAll m.marks fun t k => if h.slots.contains t then 0 else k }

/-- Release parked writes: each leaves its cell and is translated anew (R87 step 5, R88). -/
def unpark (l : List (Acc × Bool)) : Prog := Prog.each l fun p => Prog.seq (fpCount .mreq p.2 0 1) (accTranslate p.1)

/-- The hold's length enters DEV_MOV_HOLD. -/
def holdPeak (since : Nat) : Prog := .look fun s => Prog.peak .root F.DEV_MOV_HOLD_MAX_NS (min 4095 (s.time - since))

/-- Answer the MAP_ADVANCE that waited for the end of the hold (R65). -/
def heldReplyOut : Prog := .look fun s =>
  Prog.opt s.dev.xlat.heldReply fun h => Prog.seq (Prog.xlat fun v => { v with heldReply := none })
    (reply h stOk [(s.fld .root F.DEV_EPOCH_CUR + 1) % 2 ^ 32])

/-- The final entry of a held extent (R87 step 4). -/
def finalEntry (e : MapEntry) : MapEntry := { type := .mapped, home := e.home, tgtA := e.tgtB, tgtB := none, trk := 0 }

/-- The flip (R87 steps 4, 5): every recopy write is acknowledged, no write to the sources remains, the final entries are sealed and the parked writes
released. A paused mover does not flip (R84). -/
def flip : Prog := .look fun s =>
  match s.dev.mov.hold with
  | none => .skip
  | some h =>
    let ready := h.slots.all fun t => match Tab.get? s.dev.mov.slots t with
      | some m => m.state == .hold && s.toCopy m == 0 && m.writing == 0 && maskDiff (s.marksOf t) (s.poisonMask m.x) == 0
      | none => false
    if !h.drained || !ready || s.holdBusy h || s.movStops then .skip
    else
      let buf := (s.heldX h).foldl (fun b x => Tab.put b x { e := finalEntry (s.mapAt x), closes := false }) []
      Prog.all [
        holdPeak h.since,
        Prog.mov fun m => { m with
          hold := none
          slots := Tab.mapAll m.slots fun t v => if h.slots.contains t then { v with state := .flipped } else v },
        sealBuf buf true,
        unpark h.parked,
        atomPump,
        heldReplyOut]

/-- A hold is aborted (R88): the extents return to COPY with the lines not recopied, or not acknowledged, marked again, the parked writes go to TGT_A,
and a queued advance starts. -/
def holdAbort : Prog := .look fun s =>
  match s.dev.mov.hold with
  | none => .skip
  | some h => Prog.all [
      holdPeak h.since,
      Prog.mov fun m => { m with
        hold := none
        slots := Tab.mapAll m.slots fun t v =>
          if h.slots.contains t ∧ v.state = .hold then { v with state := .copy, word := 0, todo := 0 } else v
        marks := Tab.mapAll m.marks fun t k => match Tab.get? m.slots t with
          | some v => if h.slots.contains t then k ||| v.todo ||| v.writing else k
          | none => k },
      raise 49 .root h.slots.length,
      unpark h.parked,
      atomPump,
      heldReplyOut,
      startQueued]

/-- A hold stops as its engine is fenced (R434): every slot stays in its state, the parked writes go to TGT_A, and a queued advance starts. -/
def holdStop : Prog := .look fun s => Prog.opt s.dev.mov.hold fun h => Prog.all [
  holdPeak h.since,
  Prog.mov fun m => { m with hold := none },
  unpark h.parked,
  atomPump,
  heldReplyOut,
  startQueued]

/-- The number of a slot state in a MOVE_QUERY reply, in the order of R85's table (log entry 20). -/
def movStateNum : MovState → Nat
  | .wait => 0 | .copy => 1 | .ready => 2 | .hot => 3 | .hold => 4 | .flipped => 5 | .failedSrc => 6 | .failedDst => 7

/-- MOVE_QUERY (R85): state, pass count, marked lines, whether the first pass has finished; a slot not in use is FREE. -/
def moveQuery (h : Hdr) (t : Nat) : Prog := .look fun s =>
  match Tab.get? s.dev.mov.slots t with
  | none => reply h stOk [8, 0, 0, 0]
  | some m => reply h stOk [movStateNum m.state, m.passes, maskCount (s.marksOf t), b2n m.firstDone]

end Sys2Proof.Machine
end

