-- ==== Sys2Proof/Machine/RsvImage.lean ====
section
/-!
DEFINITION. Machine/RsvImage.lean: what each line of the Reservoir holds as bytes (R142-R149, R166, R179, R216, R511).
-/
namespace Sys2Proof.Machine

/-- The region offset of a pseudo-channel's share offset (R143). -/
def regionByte (st : Fin 4) (c : Fin 32) (o : Nat) : Nat := o / 256 * 32768 + (st.val + 4 * c.val) * 256 + o % 256

/-- The generation of a region index (R215, R216). -/
def State.regionGen (s : State) (ix : Nat) : Nat := Tab.getD s.dev.mill.gens ix 0

/-- A region table entry as its 64 bytes (R216). -/
def State.regionNum (s : State) (ix : Nat) : Nat :=
  let gen := s.regionGen ix % 256 * 2 ^ 2
  match Tab.get? s.dev.mill.regions ix with
  | none => gen
  | some r => b2n r.v + b2n r.closing * 2 + gen + b2n r.pool * 2 ^ 10 + b2n r.permW * 2 ^ 11 + b2n r.permR * 2 ^ 12 + b2n r.permA * 2 ^ 13
      + b2n r.flowr * 2 ^ 14 + r.flow % 2 ^ 14 * 2 ^ 15 + r.inst.val * 2 ^ 29 + b2n r.dmg * 2 ^ 39 + r.base % 2 ^ 64 * 2 ^ 64
      + r.len % 2 ^ 64 * 2 ^ 128

/-- A poison-list entry as its 16 bytes (R166). -/
def PsnEntry.num (e : PsnEntry) : Nat :=
  e.x + e.line * 2 ^ 29 + b2n e.all * 2 ^ 44 + 2 ^ 45 + e.reason * 2 ^ 46 + e.time % 2 ^ 64 * 2 ^ 64

/-- A directory entry as its 16 bytes (R179). -/
def DirEntry.num (e : DirEntry) : Nat :=
  e.shv.toNat + e.la % 2 ^ 44 * 2 ^ 64 + (if e.excl then 2 else 1) * 2 ^ 108 + (if e.excl then e.owner.val else 0) * 2 ^ 110 + e.age.val * 2 ^ 116

/-- Four 16-byte entries as a line. -/
def fourNum (f : Nat → Nat) : Nat := f 0 + f 1 * 2 ^ 128 + f 2 * 2 ^ 256 + f 3 * 2 ^ 384

/-- The poison-list bucket at an offset of the list's area, and whether the line is of copy A (R166). -/
def psnBucketAt (r : Nat) : Nat × Bool :=
  if r < 0x98000000 then ((r - 0x90000000) / 64, true) else (((r - 0x98000000) / 64 + 2097152 - 8) % 2097152, false)

/-- The share offset at which the directory begins (R142). -/
def State.dirBase (s : State) : Nat := 2 ^ 30 - s.fld .root F.DEV_RSV_PART_DIR_GIB * 2 ^ 23

/-- The line at a pseudo-channel offset, none where it cannot be read; `free` stands where the spec gives no contents. A place of a
Reservoir-pinned unit that nothing has written reads as zeros (R158). -/
def State.rsvLine (s : State) (st : Fin 4) (c : Fin 32) (o free : Nat) : Option Nat :=
  if o < 2 ^ 25 then
    let r := regionByte st c o
    if r < 0x40000000 then some (s.regionNum (r / 64))
    else if r < 0x80000000 then some free
    else if r < 0x90000000 then some (Tab.getD s.dev.mov.marks ((r - 0x80000000) / 4096) 0 / 2 ^ (r % 4096 * 8) % 2 ^ 512)
    else if r < 0xA0000000 then some (fourNum fun k => match Tab.get? s.dev.rsv.poison ((psnBucketAt r).1 * 4 + k) with
      | some e => e.num
      | none => 0)
    else if r < 0xC0000000 then some free
    else some (leNum ((List.range 64).map fun i => memRead s.mem (r + i)))
  else if o < s.cacheBase then
    let x := regionByte st c (o - 2 ^ 25) / 16
    if [x, x + 1, x + 2, x + 3].any s.dev.xlat.bad.contains then none
    else some (fourNum fun k => (s.mapAt (x + k)).toNum (s.psn (x + k)))
  else if o ≥ s.dirBase then
    let set := regionByte st c (o - s.dirBase) / 64
    some (fourNum fun k => match Tab.get? s.dev.coh.dir (set * 4 + k) with
      | some e => e.num
      | none => 0)
  else match s.way? (s.wayAt st c o).1 (s.wayAt st c o).2 with
    | none => if s.unitNamed ((s.wayAt st c o).1 / 2048) then some 0 else some free
    | some y => if y.lost then none else some y.data.toNat

end Sys2Proof.Machine
end

