-- ==== Sys2Proof/Machine/ReservoirOps.lean ====
section
/-!
DEFINITION. Machine/ReservoirOps.lean: the Reservoir: resizing, the returns of set reads, the cache walks, uncorrectable lines and
correction counters, Meander (spec 05).
-/
namespace Sys2Proof.Machine

/-! ### Uncorrectable lines outside the cache region (R162) -/

/-- Make a directory set suspect: it is rewritten with no entries (R193). -/
def dirMakeSuspect (set : Nat) : Prog := .look fun s =>
  let known := s.dev.coh.suspect.contains set
  let room := s.dev.coh.suspect.length < 256
  Prog.all [
    Prog.coh fun c => { c with
      dir := Tab.keep c.dir fun k _ => k / 4 != set
      suspect := if known || !room then c.suspect else c.suspect ++ [set]
      suspectAll := c.suspectAll || (!known && !room)
      touched := c.touched.filter fun la => s.dirSet la != set },
    raise 81 .root set,
    Prog.when (!known && !room) (raise 82 .root 0)]

/-- Take an extent as one whose map entry is uncorrectable (R62). -/
def mapBad (x : Nat) : Prog := Prog.seq
  (Prog.xlat fun v => { v with bad := if v.bad.contains x then v.bad else v.bad ++ [x] }) (raise 44 .root x)

/-- An uncorrectable line of the state region (R162, R511): tracking words become all ones, a poison-list bucket is repaired from its
other copy or lost with both, a sample ring line becomes zeros. `mill` is what the Millrace areas do. -/
def stateUncorrectable (o : Nat) (both : Bool) (pc : UnitId) (mill : Nat → Prog) : Prog :=
  if o < 0x80000000 then mill o
  else if o < 0x90000000 then
    bitmapLost ((o - 0x80000000) / 4096) ((o - 0x80000000) % 4096 / 64)
  else if o < 0xA0000000 then
    let b := if o < 0x98000000 then (o - 0x90000000) / 64 else ((o - 0x98000000) / 64 + 2097152 - 8) % 2097152
    Prog.when both (bucketLost b pc)
  else if o < 0xC0000000 then .skip
  else Prog.all [.eff (.dropMem fun a => a / 64 == o / 64), Prog.add .root F.GAU_SMP_LOST_DAMAGED 1, raise 198 .root 1]

/-- An uncorrectable line at a pseudo-channel offset, read with the flipped bits `b`, by its region (R142, R161, R162). -/
def lineUncorrectable (st : Fin 4) (c : Fin 32) (o : Nat) (b : Burst) (both : Bool) (mill : Nat → Prog) : Prog := .look fun s =>
  let pc := UnitId.pc st c
  let p := s.wayAt st c o
  let count := Prog.add pc F.RSV_ECC_CNT_UE 1
  if o < 2 ^ 25 then Prog.seq count (stateUncorrectable (regionByte st c o) both pc mill)
  else if o < s.cacheBase then
    let x := regionByte st c (o - 2 ^ 25) / 16 / 4 * 4
    Prog.seq count (Prog.each [x, x + 1, x + 2, x + 3] mapBad)
  else if o ≥ s.dirBase then Prog.seq count (dirMakeSuspect (regionByte st c (o - s.dirBase) / 64))
  else wayUncorrectable p.1 p.2 (metaTrusted (s.wayMeta p.1 p.2 ^^^ burstMeta b))

/-! ### Set reads (R150-R152) -/

/-- Let the answer of a target read that a set read made needless be discarded (R150). -/
def discardRead (a : Acc) : Prog := Prog.ort fun o => { o with
  entries := Tab.mapAll o.entries fun _ e => match e.ctx with
    | .acc v false => if e.isOpen && sameAcc v a then { e with ctx := .acc v true } else e
    | _ => e }

/-- The ways a read of the cache region reads. -/
def SetScope.list : SetScope → List Nat
  | .all => List.range 16
  | .ways l => l
  | .place _ w => [w]

/-- A read that its set read finds neither in a merge-buffer entry nor in a way (R150, R161): with no target read issued it misses; in a suspect set it returns poison;
else the target's data answers it, now or when it comes. -/
def setMiss (r : SetRead) (lost : Acc → Prog) : Prog := .look fun s =>
  let a := r.acc
  if !r.issued then cacheMiss a
  else if s.setSuspect (s.cacheSet a.la) then Prog.seq (Prog.when r.arrived.isNone (discardRead a)) (stackAnswer a none true)
  else match r.arrived with
    | none => .skip
    | some .lost => lost a
    | some (.data d poison) => finishRead (if r.stale then { a with cmode := 0 } else a) d poison

/-- A read of the cache region returns (R149-R153, R157, R160, R161): `flips` are the ways read with flipped bits and `hintBad` says that the hint entry of the set
fails its parity. Errors are handled first; a hint entry that fails leaves, and a read it had chosen the ways of reads the whole set; then the access that
waits goes on: with a merge-buffer entry that has been made since, as a hit, or as a miss. `lost` answers a read whose target's path is lost. -/
def setReturn (id : Nat) (flips : List (Fin 16 × Burst)) (hintBad : Bool) (lost : Acc → Prog) : Prog := .look fun s =>
  match Tab.get? s.dev.rsv.reads id with
  | none => .skip
  | some r =>
    let a := r.acc
    let set := match r.scope with | .place ps _ => ps | _ => s.cacheSet a.la
    let drop := Prog.when (r.issued && r.arrived.isNone) (discardRead a)
    Prog.all [
      Prog.rsv fun v => { v with reads := Tab.erase v.reads id },
      Prog.each r.scope.list fun w => wayRead set w (flipsOf flips w),
      (match r.scope with
        | .place _ w => .look fun t => stackAnswer a (some (t.wayData set w ^^^ burstSlip (flipsOf flips w))) (burstBad (flipsOf flips w) || t.linePoisoned a.la)
        | scope => Prog.seq
          (if hintBad then hintDrop set else if scope = .all then hintInstall set else .skip)
          (.look fun t =>
            if hintBad && scope != .all then hintMiss a
            else match Tab.get? t.dev.rsv.merge a.la, t.findWay set a.la with
              | some e, _ => Prog.seq drop (mergeAccess a e)
              | none, some w => Prog.seq drop (cacheHit a set w (flipsOf flips w))
              | none, none => setMiss r lost)),
      Prog.each r.behind accLookup]

/-! ### Resizing (R145, R146, R194) -/

/-- Whether a resize is refused as busy (R145). -/
def State.resizeBusy (s : State) (mapGib : Nat) : Bool :=
  let v := s.dev.xlat
  let pinned := fun (e : MapEntry) => !e.units.isEmpty
  let staged := fun (b : Option (Tab Staged)) => match b with
    | some t => t.any fun e => pinned e.2.e
    | none => false
  s.dev.rsv.resize.isSome || v.adv.isSome || s.dev.mov.hold.isSome
    || v.map.any (fun e => pinned e.2) || staged v.openBuf || staged v.queued
    || v.map.any fun e => e.2.type != .unmapped && decide (e.1 ≥ mapGib * 2 ^ 26)

/-- Recall every directory entry whose line is not busy (R194). -/
def recallAll : Prog := .look fun s =>
  Prog.each (s.dev.coh.dir.filter fun e => !Tab.has s.dev.coh.busy e.2.la) fun e => recallStart e.2.la

/-- Start a resize (R146 steps 1, 2): allocation stops, pins clear, every line leaves, a dirty one as it is written back, and the directory's copies are recalled. -/
def resizeStart (h : Hdr) (mapGib dirGib : Nat) : Prog := .look fun s =>
  if mapGib < 1 ∨ mapGib > 8 ∨ dirGib > 16 then reply h stInvalid []
  else if s.resizeBusy mapGib then Prog.seq (raise 77 (.stack 0) 0) (reply h stBusy [])
  else Prog.all [
    bgStart h 0x0200 none [],
    Prog.set .root F.DEV_RSV_RSZ_STATE 1,
    Prog.rsv fun r => { r with resize := some { mapGib, dirGib } },
    waysChange (fun _ y => y.pin) fun y => some { y with pin := false },
    flushWays (fun _ => true) true,
    recallAll]

/-- Whether a write-back is still outstanding, or a line still to be flushed. -/
def State.wbOut (s : State) (p : Nat → Bool) : Bool :=
  s.dev.ort.entries.any (fun e => e.2.isOpen && (match e.2.ctx with | .wb la _ => p la | _ => false))
    || s.dev.flood.waiting.any fun e => e.2.any fun w => match w with | .wb la _ | .flush la _ _ _ => p la | _ => false

/-- The flush of a resize is done (R146 step 3): no write-back or recall is outstanding, and the directory is empty; entries that transactions left meanwhile, or
that found no busy-line entry, are recalled. STATE becomes MOVE: the boundaries move, and map space gained is UNMAPPED. -/
def resizeMove (z : Resize) : Prog := .look fun s =>
  let cache := 124 - z.mapGib - z.dirGib
  if s.wbOut (fun _ => true) then .skip
  else if s.dev.rsv.ways.any (fun e => !e.2.lost && !e.2.pu) then flushWays (fun _ => true) true
  else if !s.dev.coh.dir.isEmpty then recallAll
  else Prog.all [
    Prog.set .root F.DEV_RSV_PART_MAP_GIB z.mapGib,
    Prog.set .root F.DEV_RSV_PART_DIR_GIB z.dirGib,
    Prog.set .root F.DEV_RSV_PART_CACHE_GIB cache,
    Prog.set .root F.DEV_RSV_PART_UNITS (cache * 2 ^ 30 / 1024 / 2048),
    Prog.set .root F.DEV_MAP_SIZE_NEXT (z.mapGib * 2 ^ 26),
    Prog.xlat fun v => { v with map := Tab.keep v.map fun x _ => x < z.mapGib * 2 ^ 26 },
    Prog.coh fun c => { c with cached := [] },
    Prog.rsv fun r => { r with hint := [], hintHurt := [] },
    Prog.set .root F.DEV_RSV_RSZ_STATE 2]

/-- The move of a resize is done (R146 step 4, R161): allocation resumes in the cache of the new size, which holds no line; a suspect set that it still has stays
suspect, with its LOST ways, until RSV_SET_CLEAR (log entry 127). -/
def resizeEnd : Prog := .look fun s => Prog.all [
  waysChange (fun k y => !(y.lost && decide (k / 16 < s.nsets))) fun _ => none,
  Prog.rsv fun r => { r with
    resize := none
    suspect := r.suspect.filter fun n => decide (n < s.nsets) },
  Prog.set .root F.DEV_RSV_RSZ_STATE 0,
  raise 76 (.stack 0) 0,
  bgFinish 0x0200 none fun b => reply b.hdr stOk []]

/-- RESIZE_FLUSH_DONE: the step of a resize that is due (R146). -/
def resizeDone : Prog := .look fun s =>
  match s.dev.rsv.resize with
  | none => .skip
  | some z => if s.fld .root F.DEV_RSV_RSZ_STATE = 2 then resizeEnd else resizeMove z

/-! ### Cache walks (R155, R161, R169) -/

/-- Start a walk over an extent range (R155): purge drops lines with their data, flush writes dirty lines back and drops lines where
asked, unpin clears PIN. Each line is changed as a whole; a merge-buffer entry of a purged line stays (log entry 145). -/
def cacheWalk (h : Hdr) (op x0 n : Nat) (inval : Bool) : Prog := .look fun s =>
  let hit := fun (y : Way) => !y.pu && !y.lost && decide (x0 ≤ y.la / 32768) && decide (y.la / 32768 < x0 + n)
  if x0 + n > 2 ^ 29 then reply h stInvalid []
  else Prog.all [
    bgStart h op none [x0, n],
    if op = 0x0202 then flushWays hit inval
    else if op = 0x0201 then waysChange (fun _ y => hit y) fun _ => none
    else waysChange (fun _ y => hit y) fun y => some { y with pin := false }]

/-- A walk ends once its write-backs are complete (R155). -/
def cacheWalkDone : Prog := .look fun s =>
  Prog.opt (s.bg.find? fun b => 0x0201 ≤ b.opcode && b.opcode ≤ 0x0203) fun b =>
    let x0 := b.args.getD 0 0
    let n := b.args.getD 1 0
    if s.wbOut fun la => decide (x0 ≤ la / 32768) && decide (la / 32768 < x0 + n) then .skip
    else bgFinish b.opcode none fun c => reply c.hdr stOk []

/-- RSV_SET_CLEAR (R161): one set, or all. -/
def setClear (h : Hdr) (set : Option Nat) : Prog := .look fun s =>
  match set with
  | none => Prog.all [
      Prog.rsv fun r => { r with suspect := [], suspectAll := false },
      waysChange (fun _ y => y.lost) fun _ => none,
      reply h stOk []]
  | some n =>
    if n ≥ s.nsets then reply h stInvalid []
    else Prog.all [
      Prog.rsv fun r => { r with suspect := r.suspect.filter fun k => k != n },
      waysChange (fun k y => y.lost && k / 16 == n) fun _ => none,
      reply h stOk []]

/-- DIR_SET_CLEAR (R193): one set, or all. -/
def dirSetClear (h : Hdr) (set : Option Nat) : Prog := .look fun s =>
  match set with
  | none => Prog.seq (Prog.coh fun c => { c with suspect := [], suspectAll := false, touched := [] }) (reply h stOk [])
  | some n =>
    if n ≥ s.dirSets then reply h stInvalid []
    else Prog.seq (Prog.coh fun c => { c with
      suspect := c.suspect.filter fun k => k != n
      touched := c.touched.filter fun la => s.dirSet la != n }) (reply h stOk [])

/-- The entries of an extent as PSN_QUERY returns them: line, ALL, reason and time of each (R166, R169). -/
def State.psnReply (s : State) (x : Nat) : List Nat :=
  (s.dev.rsv.poison.filter fun e => e.2.x == x).flatMap fun e => [e.2.line, b2n e.2.all, e.2.reason, e.2.time]

/-! ### The merge buffer's completions (R160) -/

/-- A merged line stands in its place: a pinned unit's, its way, with PIN while the set may hold one more pinned way (R153), a new way, or, where none may be
installed, at its target. -/
def mergeStore (drain : Bool) (la : Nat) (m : MergeEntry) : Prog := .look fun s =>
  let set := s.cacheSet la
  match s.place (s.entry (la / 32768)).tgtA (la * 64) with
  | .pinned ps w => putWay ps w { la, dirty := false, pin := false, pu := true, lost := false, data := m.data }
  | _ => match s.findWay set la with
    | some w => Prog.opt (s.way? set w) fun y => putWay set w { y with
        data := m.data
        dirty := true
        pin := y.pin || (m.pin && decide (s.pinCount set < s.fld .root F.DEV_RSV_CCTL_PIN_MAX)) }
    | none => if s.mayInstall la then installIn drain la m.data true m.pin else writeBack la m.data

/-- The write of a merged line completes: the line stands in its place, the entry is free, and what waited for it or for an
entry of its stack goes on, in order. `drain` says that a reset drains the buffer (R170). -/
def mergeDone (drain : Bool) (la : Nat) : Prog := .look fun s =>
  match Tab.get? s.dev.rsv.merge la with
  | none => .skip
  | some m => Prog.when m.writing (
      let mine := fun (a : Acc) => s.lineStack a == m.stack
      Prog.all [
        Prog.rsv fun r => { r with merge := Tab.erase r.merge la },
        mergeStore drain la m,
        Prog.each m.late accLookup,
        Prog.rsv fun r => { r with mergeWait := r.mergeWait.filter fun a => !mine a },
        Prog.each (s.dev.rsv.mergeWait.filter mine) accLookup])

/-- The old line of a merge entry arrives (R160 rules 4, 8): from the Reservoir, read with the flipped bits `b`, or, for an allocating miss, from its target, as `bad`
says poisoned. An uncorrectable one is handled as any read handles it (R161) before it is taken for poisoned (log entry 128). -/
def mergeArrive (la : Nat) (d : Line) (bad : Bool) (b : Burst) : Prog := .look fun s =>
  match Tab.get? s.dev.rsv.merge la with
  | none => .skip
  | some m =>
    if m.ready || m.writing then .skip
    else if m.fromTarget then
      Prog.when (!s.mergeOut la m) (mergeOld la d bad)
    else match s.heldAt (s.entry (la / 32768)).tgtA la with
      | some p => Prog.all [
          wayRead p.1 p.2 b,
          .look fun t => mergeOld la (s.wayData p.1 p.2 ^^^ burstSlip b) (burstBad b || t.linePoisoned la)]
      | none => mergeOld la d bad

/-- A partial write of Reservoir-held data reaches its stack controller (R160). -/
def partialWrite (o : Origin) (gpa : Nat) (d : Line) (m : Mask) (cm : Fin 4) : Prog := .look fun s =>
  let e := s.entry (gpa / 2 ^ 21)
  let a : Acc := { origin := o, op := .memWrPtl, mv := .i, gpa := gpa / 64 * 64, data := d, mask := m, wtype := .priv, cmode := cm,
                   epoch := s.fld .root F.DEV_EPOCH_CUR, tgt := e.tgtA, host := none, inst := none }
  if e.type = .unmapped ∨ e.home ≠ s.swid then .skip
  else match s.place e.tgtA gpa with
    | .pinned _ _ => mergeWrite a false
    | _ =>
      if (s.findWay (s.cacheSet a.la) a.la).isSome then mergeWrite a false
      else match Tab.get? s.dev.rsv.merge a.la with
        | some v => mergeWrite a v.fromTarget
        | none => Prog.when (decide (cm.val ≥ 2) && s.mayInstall a.la) (cacheMiss a)

/-! ### Meander (R164, R165) -/

/-- The key of a pseudo-channel in Meander's tables. -/
def pcKey (st : Fin 4) (c : Fin 32) : Nat := st.val * 32 + c.val

/-- The errors that the stacks and the tag-hint cache hold for later reads of the device's own (log entry 144). -/
def struckPut (i : ScrubIn) : Prog := .look fun s => Prog.rsv fun r => { r with
  struck := i.struck.foldl (fun t e => Tab.put t (lineKey (.pc e.1 e.2.1) e.2.2.1.val) e.2.2.2) r.struck
  hintHurt := r.hintHurt ++ i.hints.filter fun k => s.hinted k && !r.hintHurt.contains k }

/-- What a line outside the cache region holds, for Meander to see whether it is written while its read is outstanding (R164). -/
def State.scrubImage (s : State) (st : Fin 4) (c : Fin 32) (line : Nat) : Option Nat :=
  if line * 64 < s.cacheBase ∨ s.dirBase ≤ line * 64 then s.rsvLine st c (line * 64) 0 else none

/-- Whether a write to a line of the cache region is pending in the merge buffer (R164). -/
def State.mergePending (s : State) (st : Fin 4) (c : Fin 32) (line : Nat) : Bool :=
  let p := s.wayAt st c (line * 64)
  s.cacheBase ≤ line * 64 && line * 64 < s.dirBase && ((s.placeWay p.1 p.2).any fun y => Tab.has s.dev.rsv.merge y.la)

/-- Meander issues its next read in a pseudo-channel; the read of line 0 starts a lap (R164, R165). -/
def scrubRead (st : Fin 4) (c : Fin 32) : Prog := .look fun s =>
  let pc := UnitId.pc st c
  let k := pcKey st c
  let n := s.fld pc F.RSV_SCRUB_POS_LINE
  if !s.flag (.stack st) F.RSV_SCRUB_CTL_EN || s.dev.rsv.selfRefresh then .skip
  else Prog.all [
    Prog.rsv fun r => { r with
      scrub := Tab.put r.scrub k (Tab.getD r.scrub k [] ++ [{ line := n, overtaken := false, image := s.scrubImage st c n }]) },
    Prog.set pc F.RSV_SCRUB_POS_LINE ((n + 1) % 2 ^ 24),
    Prog.when (n == 0) (Prog.all [
      Prog.opt (Tab.get? s.dev.rsv.lapStart k) fun t0 => Prog.set pc F.RSV_SCRUB_LAP_LAST_MS ((s.time - t0) / msNs),
      Prog.add pc F.RSV_SCRUB_LAP_LAPS 1,
      Prog.rsv fun r => { r with lapStart := Tab.put r.lapStart k s.time, lapWarned := r.lapWarned.filter fun j => j != k }])]

/-- The oldest scrub read of a pseudo-channel returns with the flipped bits `b` (R161-R164): clean, with one symbol that is corrected and written back unless a write
to the line was accepted or is pending since, or uncorrectable; `both` says of a poison-list line that the other copy fails too. -/
def scrubReturn (st : Fin 4) (c : Fin 32) (b : Burst) (both : Bool) (mill : Nat → Prog) : Prog :=
  .look fun s =>
    let k := pcKey st c
    match Tab.getD s.dev.rsv.scrub k [] with
    | [] => .skip
    | r :: rs =>
      let written := r.overtaken || s.scrubImage st c r.line != r.image || s.mergePending st c r.line
      Prog.all [
        Prog.rsv fun v => { v with scrub := if rs.isEmpty then Tab.erase v.scrub k else Tab.put v.scrub k rs },
        burstRead (.pc st c) (r.line * 64) b (lineUncorrectable st c (r.line * 64) b both mill),
        Prog.when (burstVerdict b != .ok && !burstBad b && !written) (Prog.send (.scrubWrite st c r.line))]

/-- A lap has run longer than LAP_WARN: logged once for the lap; 0 disables it (R165). -/
def lapWarn (st : Fin 4) (c : Fin 32) : Prog := .look fun s =>
  let k := pcKey st c
  if s.fld (.stack st) F.RSV_SCRUB_CTL_LAP_WARN = 0 ∨ s.dev.rsv.lapWarned.contains k ∨ !Tab.has s.dev.rsv.lapStart k then .skip
  else Prog.seq (Prog.rsv fun r => { r with lapWarned := r.lapWarned ++ [k] }) (raise 74 (.pc st c) 0)

end Sys2Proof.Machine
end

