-- ==== Sys2Proof/Machine/MillOps.lean ====
section
/-!
DEFINITION. Machine/MillOps.lean: Millrace's sending side: events on an instance, descriptors and their completion, packets and their
retransmission, completion modes, and the ERROR state of a flow end (R200-R213, R218-R220, R226-R242).
-/
namespace Sys2Proof.Machine

/-! ### Flows, engines and instances -/

/-- The engine that serves a flow number: e0 the even ones, e1 the odd ones (R200). -/
def flowEngine (f : Nat) : Fin 2 := ⟨f % 2, Nat.mod_lt _ (by decide)⟩

/-- The unit of an engine of Millrace. -/
def engUnit (e : Fin 2) : UnitId := .engine ⟨e.val, by omega⟩

/-- The internal port of an engine of Millrace: X4 or X5. -/
def engX (e : Fin 2) : XPort := XPort.int ⟨4 + e.val, by omega⟩

/-- The unit of the engine of a flow. -/
def flowUnit (f : Nat) : UnitId := engUnit (flowEngine f)

/-- A flow end that is not FREE. -/
def State.flow? (s : State) (f : Nat) : Option Flow := Tab.get? s.dev.mill.flows f

/-- The flow end that a work item serves, where it still stands with its generation (R201, R237). -/
def State.itemFlow (s : State) (it : MItem) : Option Flow := (s.flow? it.flow).filter fun w => w.fgen == it.fgen

/-- Change a flow end. -/
def flowUpd (f : Nat) (g : Flow → Flow) : Prog := Prog.mill fun m => { m with flows := Tab.upd m.flows f g }

/-- The flow of an instance's slot. -/
def State.slotFlow (s : State) (i : Fin 1024) (slot : Nat) : Option Nat :=
  (s.dev.mill.flows.find? fun e => e.2.inst == i && e.2.slot == slot).map Prod.fst

/-- The flow ends an instance holds (INS_STAT.FLOWS). -/
def State.instFlows (s : State) (i : Fin 1024) : Nat := Tab.count s.dev.mill.flows fun _ w => w.inst == i

/-- The host port and the function of an instance (R279). -/
def State.instPort (s : State) (i : Fin 1024) : Option (PortId × Nat) :=
  ((s.portsIn .h).find? fun pt =>
    decide (s.fld (.port pt) F.PRT_HCFG_INST_BASE ≤ i.val)
      && decide (i.val < s.fld (.port pt) F.PRT_HCFG_INST_BASE + s.fld (.port pt) F.PRT_HCFG_NUM_VFS)).map
    fun pt => (pt, i.val - s.fld (.port pt) F.PRT_HCFG_INST_BASE + 1)

/-! ### Events on the instance (R242, R243) -/

/-- The event entries held for a function. -/
def State.heldEvents (s : State) (pt : PortId) (fn : Nat) : Nat :=
  ((Tab.getD s.dev.ports.held (fnKey pt fn) []).filter fun o => match o with
    | .busWrite _ _ _ _ .event => true
    | _ => false).length

/-- Count an event entry as lost. -/
def evLose (i : Fin 1024) : Prog := Prog.mill fun m => { m with eqs := Tab.upd m.eqs i.val fun q => { q with lost := q.lost + 1 } }

/-- Write an entry to an instance's event queue: counted as lost while the instance is FROZEN, while no slot is free, or beyond the
64 that are held while its function may not master (R242, R285, R303). -/
def evWrite (i : Fin 1024) (code flow arg status : Nat) : Prog := .look fun s =>
  match Tab.get? s.dev.mill.eqs i.val, s.instPort i with
  | some q, some (pt, fn) =>
    let n := 2 ^ q.log
    let next := (q.tail + 1) % n
    if s.instState i = 2 then evLose i
    else if next = q.head % n ∨ (s.bme pt fn = false ∧ s.heldEvents pt fn ≥ 64) then Prog.seq (evLose i) (raise 92 (.inst i) code)
    else Prog.all [
      Prog.mill fun m => { m with eqs := Tab.upd m.eqs i.val fun q =>
        { q with tail := next, phase := if next = 0 then !q.phase else q.phase, lost := 0 } },
      busWrite (XPort.int 7) pt fn (.busWrite pt fn (q.base + q.tail * 32)
        (leBytes 2 code ++ leBytes 2 (b2n q.phase) ++ leBytes 4 flow ++ leBytes 4 arg ++ leBytes 4 status ++ leBytes 8 s.time
          ++ leBytes 8 q.lost) .event),
      msixSend (XPort.int 7) pt fn q.vec]
  | _, _ => .skip

/-! ### Completion modes (R235) -/

/-- The causes that hold a flow end in DEPARTED mode: fabric bring-up not reported complete, a link test on a fabric group while the
peer is on another switch, and the loss of the path to the peer's switch (R235). -/
def State.flowCauses (s : State) (w : Flow) : List Nat :=
  (if s.flag .root F.DEV_FAB_STAT_READY then [] else [1])
    ++ (if w.peerSw != s.swid && !s.dev.link.testing.isEmpty then [2] else [])
    ++ (if s.dev.fab.lostDst.contains w.peerSw.val then [3] else [])

/-- Bring the completion mode of a flow end up to date: DEPARTED as soon as a cause holds, PLACED again once none holds and every
packet sent in DEPARTED mode has ended; each change writes an event entry (R235). -/
def flowMode (f : Nat) : Prog := .look fun s => Prog.opt (s.flow? f) fun w =>
  match s.flowCauses w, w.departed with
  | c :: _, false => Prog.seq (flowUpd f fun w => { w with departed := true }) (evWrite w.inst 0x0002 f c 0)
  | [], true => Prog.when (!(w.pkts.any fun p => p.dep))
      (Prog.seq (flowUpd f fun w => { w with departed := false }) (evWrite w.inst 0x0003 f 0 0))
  | _, _ => .skip

/-! ### Sequence numbers (R221, R226, R227) -/

/-- Sequence arithmetic modulo 2^24. -/
def seqDiff (a b : Nat) : Nat := (a + 2 ^ 24 - b % 2 ^ 24) % 2 ^ 24

/-- Whether a sequence number is below another (R221). -/
def seqBelow (a b : Nat) : Bool := decide (1 ≤ seqDiff b a) && decide (seqDiff b a ≤ 2 ^ 23)

/-- The lowest sequence number a sender has not ended. -/
def Flow.una (w : Flow) : Nat :=
  match w.pkts with
  | p :: _ => p.seq
  | [] => w.sndNxt

/-! ### Packets out (R218, R219) -/

/-- The packet type of a TYPE number (R220). -/
def mtypeOf (n : Nat) : Option MType := [.wdata, .rreq, .rdata, .atomic, .arsp, .ack, .trim, .abort].find? fun t => mtypeNum t == n

/-- Bytes 0-7 of every packet (R219). -/
def millHead (h : MHdr) : List Byte :=
  leBytes 1 (mtypeNum h.type + b2n h.final * 16 + b2n h.retx * 32) ++ leBytes 1 (h.srcSw.val + h.dstSw.val * 16) ++ leBytes 2 h.dstFlow.val ++ leBytes 2 h.srcFlow.val
    ++ leBytes 1 h.fgen.toNat ++ leBytes 1 0

/-- The 64 bytes of a header (R219, R20). -/
def millBytes (h : MHdr) : List Byte :=
  millHead h ++ leBytes 4 (h.seq.toNat + (match h.orig with | some t => mtypeNum t | none => 0) * 2 ^ 24) ++ leBytes 4 h.rkey.toNat ++ leBytes 8 h.roff
    ++ leBytes 4 h.len ++ leBytes 2 h.segmask.toNat ++ leBytes 1 h.stat.toNat ++ leBytes 1 h.seg.val ++ leBytes 4 h.una.toNat
    ++ leBytes 8 h.op1.toNat ++ leBytes 8 h.op2.toNat ++ List.replicate 12 0

/-- The header that 64 bytes spell, where their TYPE is one of R220. -/
def millParse (l : List Byte) : Option MHdr :=
  let num := fun (at_ n : Nat) => leNum ((l.drop at_).take n)
  (mtypeOf (num 0 1 % 16)).map fun t => {
    type := t, final := bitOf (num 0 1) 4, retx := bitOf (num 0 1) 5
    srcSw := ⟨num 1 1 % 16, Nat.mod_lt _ (by decide)⟩, dstSw := ⟨num 1 1 / 16 % 16, Nat.mod_lt _ (by decide)⟩
    dstFlow := ⟨num 2 2 % 16384, Nat.mod_lt _ (by decide)⟩, srcFlow := ⟨num 4 2 % 16384, Nat.mod_lt _ (by decide)⟩, fgen := BitVec.ofNat 8 (num 6 1)
    seq := BitVec.ofNat 24 (num 8 4), orig := mtypeOf (num 11 1), rkey := BitVec.ofNat 32 (num 12 4), roff := num 16 8, len := num 24 4
    segmask := BitVec.ofNat 16 (num 28 2), stat := BitVec.ofNat 8 (num 30 1), seg := ⟨num 31 1 % 16, Nat.mod_lt _ (by decide)⟩
    una := BitVec.ofNat 24 (num 32 4), op1 := BitVec.ofNat 64 (num 36 8), op2 := BitVec.ofNat 64 (num 44 8) }

/-- A packet in its cells (R100, R219): the header with 64 reserved bytes, then the payload, 128 bytes to a cell. -/
def millCells (h : MHdr) (data : List Byte) : List (List Byte) :=
  (millBytes h ++ List.replicate 64 0) :: (List.range ((data.length + 127) / 128)).map fun i => (data.drop (128 * i)).take 128

/-- A record of an ACK (R224). -/
def recBytes (r : Nat × Nat) : List Byte := leBytes 3 r.1 ++ leBytes 1 r.2

/-- The cell of an ACK (R224). -/
def ackBytes (h : MHdr) (cum start : Nat) (sack : BitVec 256) (trans rejs : List (Nat × Nat)) (more : Bool) : List Byte :=
  let l := millHead { h with type := .ack } ++ leBytes 4 cum ++ leBytes 4 start ++ leBytes 32 sack.toNat
    ++ leBytes 1 (trans.length + rejs.length * 8 + b2n more * 128) ++ leBytes 3 0 ++ (trans ++ rejs).flatMap recBytes
  l ++ List.replicate (128 - l.length) 0

/-- The header of a packet that a flow end sends. -/
def State.millHdr (s : State) (f : Nat) (w : Flow) (t : MType) : MHdr := {
  type := t, final := false, retx := false, srcSw := s.swid, dstSw := w.peerSw,
  dstFlow := ⟨w.peerFlow % 16384, Nat.mod_lt _ (by decide)⟩, srcFlow := ⟨f % 16384, Nat.mod_lt _ (by decide)⟩,
  fgen := BitVec.ofNat 8 w.fgen, seq := 0, orig := none, rkey := 0, roff := 0, len := 0, segmask := 0, stat := 0, seg := 0,
  una := BitVec.ofNat 24 w.una, op1 := 0, op2 := 0 }

/-- The operation an ATOMIC packet asks for: a descriptor's opcode tells FADD64 from CAS64 (R210). -/
def atomOpOf (opc : Nat) (op1 op2 : BitVec 64) : AtomOp := if opc = 3 then .fadd64 op1 else .cas64 op1 op2

/-- The engine of a flow sends a packet of its class, behind those of the class that wait at its internal port (R117, R220). -/
def engSend (f : Nat) (h : MHdr) (data : List Byte) (op : Option AtomOp) : Prog := xSend (engX (flowEngine f)) h.type.cls (.mill h data op)

/-- Put a packet on its way, as a first sending or again; `blocks` are the blocks an RREQ asks for now. -/
def pktOut (f : Nat) (p : MPkt) (retx : Bool) (blocks : Nat) (op : Option AtomOp) : Prog := .look fun s =>
  Prog.opt (s.flow? f) fun w =>
    engSend f { s.millHdr f w p.type with
      final := p.fin, retx, seq := BitVec.ofNat 24 p.seq, rkey := p.rkey, roff := p.roff, len := p.len,
      segmask := BitVec.ofNat 16 blocks, op1 := p.op1, op2 := p.op2 } p.data op

/-- The operation of an ATOMIC packet, by its descriptor. -/
def Flow.pktOp (w : Flow) (p : MPkt) : Option AtomOp :=
  if p.type = .atomic then
    some (atomOpOf (match w.descs.find? fun d => d.sn == p.sn with | some d => d.opc | none => 3) p.op1 p.op2)
  else none

/-- Change a packet not ended. -/
def pktUpd (f seq : Nat) (g : MPkt → MPkt) : Prog :=
  flowUpd f fun w => { w with pkts := w.pkts.map fun p => if p.seq = seq then g p else p }

/-- The least RTO in ns (MRC_RTO.RTO_MIN_US). -/
def State.rtoMin (s : State) (f : Nat) : Nat := s.fld (flowUnit f) F.MRC_RTO_RTO_MIN_US * 1000

/-- The greatest RTO in ns. -/
def State.rtoMax (s : State) (f : Nat) : Nat := s.fld (flowUnit f) F.MRC_RTO_RTO_MAX_US * 1000

/-- The retransmission timeout of a flow end in ns (R228). -/
def State.rto (s : State) (f : Nat) (w : Flow) : Nat := min (s.rtoMax f) (max (s.rtoMin f) (w.srtt + 4 * w.rttvar))

/-- Whether a descriptor has packets still to be cut and sent. -/
def MDesc.uncut (d : MDesc) : Bool :=
  d.status.isNone && (match d.opc with
    | 1 | 2 => decide (d.cut < d.len)
    | 3 | 4 => d.cut == 0
    | _ => false)

/-- Whether a WDATA or ATOMIC packet of a descriptor before one has not ended, or is still to be sent (R234, R236). -/
def Flow.writesBefore (w : Flow) (sn : Nat) : Bool :=
  w.pkts.any (fun p => decide (p.sn < sn) && (p.type == .wdata || p.type == .atomic))
    || w.descs.any fun d => decide (d.sn < sn) && d.opc != 2 && d.uncut

/-- Whether the first packet of what is left of a descriptor may go (R218, R234). -/
def Flow.mayCut (w : Flow) (d : MDesc) : Bool :=
  d.uncut && (d.opc != 1 || d.src.isSome) && !(d.fin && d.cut == 0 && w.writesBefore d.sn)

/-- The bytes of the next packet of a descriptor: a WDATA packet ends at a 4 KiB boundary of the region, an RREQ spans at most
16 such blocks (R218). -/
def MDesc.nextLen (d : MDesc) : Nat :=
  let at_ := d.roff + d.cut
  match d.opc with
  | 1 => min (d.len - d.cut) (4096 - at_ % 4096)
  | 2 => min (d.len - d.cut) (16 * 4096 - at_ % 4096)
  | _ => 8

/-- Send one packet of the first descriptor that may send, while the window is open (R218, R227). -/
def sendOne (f : Nat) : Prog := .look fun s => Prog.opt (s.flow? f) fun w =>
  Prog.opt (w.descs.find? fun d => w.mayCut d) fun d =>
    let n := d.nextLen
    let at_ := d.roff + d.cut
    let t : MType := match d.opc with | 1 => .wdata | 2 => .rreq | _ => .atomic
    let blocks := if t = .rreq then 2 ^ ((at_ % 4096 + n + 4095) / 4096) - 1 else 0
    let p : MPkt := {
      seq := w.sndNxt, sn := d.sn, type := t, fin := d.fin, off := d.cut, roff := at_, len := if t = .atomic then 0 else n,
      rkey := d.rkey, op1 := d.op1, op2 := d.op2, data := match d.src with | some l => (l.drop d.cut).take n | none => [],
      blocks, sends := 1, retries := 0, trims := [], sentAt := s.time, rto := s.rto f w, rnrSince := none, dep := w.departed }
    Prog.all [
      flowUpd f fun w => { w with
        sndNxt := (w.sndNxt + 1) % 2 ^ 24
        pkts := w.pkts ++ [p]
        descs := w.descs.map fun c => if c.sn = d.sn then { c with cut := c.cut + n } else c },
      Prog.add (flowUnit f) F.MRC_TX_COUNT 1,
      .look fun t => Prog.opt (t.flow? f) fun v => pktOut f p false blocks (v.pktOp p)]

/-- Whether a flow end has a packet it may send now. -/
def State.maySend (s : State) (f : Nat) : Bool :=
  match s.flow? f with
  | none => false
  | some w => !w.err && s.instState w.inst != 3
      && decide (seqDiff w.sndNxt w.una < s.fld (flowUnit f) F.MRC_CFG_WND_M1 + 1) && w.descs.any fun d => w.mayCut d

/-- Send what the window takes. -/
def sendAll (f : Nat) : Prog := Prog.loop 1024 (fun s => s.maySend f) (sendOne f)

/-! ### Completion (R209, R212, R235, R236) -/

/-- Settle which descriptors have finished, in SQ order, and the failures of departed packets still to be reported by a FLUSH (R209, R235, R236): a FLUSH reports
those of the descriptors before it. -/
def settle (w : Flow) : List MDesc → List Nat → List MDesc × List Nat
  | [], ff => ([], ff)
  | d :: ds, ff =>
    let live := w.pkts.any fun p => p.sn == d.sn
    let code := match d.fail with | some c => c.2 | none => 0
    let r : MDesc × List Nat :=
      if d.status.isSome then (d, ff)
      else match d.opc with
        | 1 => if decide (d.cut = d.len) && (w.departed || !live) then ({ d with status := some code, dep := w.departed }, ff) else (d, ff)
        | 5 => if w.writesBefore d.sn then (d, ff) else ({ d with status := some (if ff.any (· < d.sn) then 0x0F else 0) }, ff.filter fun n => !decide (n < d.sn))
        | _ => if d.uncut || live then (d, ff) else ({ d with status := some code }, ff)
    let rest := settle w ds r.2
    (r.1 :: rest.1, rest.2)

/-- The completion entry of a descriptor (R212). -/
def cqeBytes (d : MDesc) (status : Nat) (phase : Bool) : List Byte :=
  leBytes 4 d.user ++ leBytes 2 d.idx ++ leBytes 1 status ++ leBytes 1 (b2n phase + d.opc % 8 * 2 + b2n d.dep * 16)
    ++ leBytes 8 d.result.toNat ++ leBytes 4 (if d.opc = 1 ∨ d.opc = 2 then d.done else 0) ++ leBytes 12 0

/-- Write the completion entry of the oldest descriptor, once it has finished, and raise the vector where it asks (R209). -/
def completeOne (f : Nat) : Prog := .look fun s => Prog.opt (s.flow? f) fun w =>
  match w.descs, w.rings, s.instPort w.inst with
  | d :: ds, some r, some (pt, fn) => Prog.opt d.status fun st =>
    let next := (r.cqTail + 1) % 2 ^ r.cqLog
    Prog.all [
      flowUpd f fun w => { w with
        descs := ds
        rings := some { r with cqTail := next, phase := if next = 0 then !r.phase else r.phase } },
      busWrite (engX (flowEngine f)) pt fn (.busWrite pt fn (r.cqBase + r.cqTail * 32) (cqeBytes d st r.phase) .cqe),
      Prog.when d.irq (msixSend (engX (flowEngine f)) pt fn r.vec)]
  | _, _, _ => .skip

/-- Whether the oldest descriptor of a flow has finished. -/
def State.headDone (s : State) (f : Nat) : Bool :=
  match s.flow? f with
  | some w => match w.descs with
    | d :: _ => d.status.isSome && w.rings.isSome && (s.instPort w.inst).isSome
    | [] => false
  | none => false

/-- Settle and complete what has finished. -/
def completeAll (f : Nat) : Prog := Prog.seq
  (flowUpd f fun w => let r := settle w w.descs w.flushFail; { w with descs := r.1, flushFail := r.2 })
  (.look fun s => Prog.loop (match s.flow? f with | some w => w.descs.length | none => 0) (fun t => t.headDone f) (completeOne f))

/-! ### Work items and bus-master reads (R122, R208, R284) -/

/-- Add a work item and go on with its number. -/
def itemNew (it : MItem) (k : Nat → Prog) : Prog := .look fun s =>
  let id := s.dev.mill.nextItem
  Prog.seq (Prog.mill fun m => { m with items := Tab.put m.items id it, nextItem := id + 1 }) (k id)

/-- Add a work item of a flow end and go on with its number. -/
def flowItem (f : Nat) (work : MWork) (region : Option Nat) (bus : Option (Nat × Nat)) (issued : Bool) (k : Nat → Prog) : Prog := .look fun s =>
  Prog.opt (s.flow? f) fun w => itemNew { flow := f, fgen := w.fgen, inst := w.inst, work, region, bus, issued, behind := [] } k

/-- Whether the writes of a placement are not issued yet: they are held while its function may not master (R284), or wait at the engine's port (R117). -/
def State.writeHeld (s : State) (id : Nat) (it : MItem) : Bool :=
  let mine := fun (o : Out) => match o with
    | .busWrite _ _ _ _ (.place e k) => e == flowEngine it.flow && k == id
    | _ => false
  (match s.instPort it.inst with
    | some p => (Tab.getD s.dev.ports.held (fnKey p.1 p.2) []).any mine
    | none => false)
    || (Tab.getD s.dev.flood.waiting (qKey (engX (flowEngine it.flow)) .iotx) []).any fun w => match w with
      | .out o => mine o
      | _ => false

/-- The placements in a host port's memory whose writes have been issued and that have not ended (R223). -/
def State.writesOut (s : State) (pt : PortId) : List Nat := s.dev.mill.items.filterMap fun e => match e.2.work with
  | .place _ _ _ =>
    if e.2.bus.isSome && (s.instPort e.2.inst).any (fun p => p.1 == pt) && !s.writeHeld e.1 e.2 then some e.1 else none
  | _ => none

/-- Drop a work item. -/
def itemDrop (id : Nat) : Prog := Prog.mill fun m => { m with items := Tab.erase m.items id }

/-- Issue the bus-master read of a work item, where its function may master and a tracker entry is free; otherwise it waits
(R122, R123, R284). An ordering read covers the placements whose writes have been issued (R223). -/
def itemIssue (id : Nat) : Prog := .look fun s => Prog.opt (Tab.get? s.dev.mill.items id) fun it =>
  match it.bus with
  | some (addr, len) => Prog.opt (s.instPort it.inst) fun p =>
    let e := flowEngine it.flow
    let info : ReqInfo := { kind := if e.val = 0 then .e0 else .e1, op := .ioRead, tag := BitVec.ofNat 16 id, addr, len,
                            inst := some it.inst, srcSw := s.swid }
    let behind := match it.work with
      | .place _ _ _ => (s.writesOut p.1).filter fun k => k != id
      | _ => []
    if it.issued || !s.bme p.1 p.2 then .skip
    else ortOpen (engX e) info p.1.x none (bitOf (s.fld .root F.DEV_EPOCH_CUR) 0) false (.mill e id)
      (waitAt (engX e) .iotx (.mill e id)) fun i g _ => Prog.seq
        (Prog.mill fun m => { m with items := Tab.upd m.items id fun v => { v with issued := true, behind } })
        (Prog.send (.busRead p.1 p.2 (i, g) addr len))
  | none => .skip

/-- Close the tracker entry of a work item's bus-master read: its completion has arrived (R130). -/
def itemAnswered (id : Nat) : Prog := .look fun s =>
  Prog.each (s.dev.ort.entries.filter fun e => e.2.isOpen && (match e.2.ctx with | .mill _ k => k == id | _ => false)) fun e =>
    ortFree e.1

/-- The free entries of a flow's completion ring that no fetched descriptor has reserved (R208). -/
def MRings.cqFree (r : MRings) (reserved : Nat) : Nat :=
  let n := 2 ^ r.cqLog
  n - 1 - ((r.cqTail + n - r.cqHead % n) % n) - reserved

/-- Fetch the next descriptor of a flow where one is queued, the instance fetches, and the completion ring has a free entry for it
(R208). One fetch of a flow is outstanding at a time (log entry 32). -/
def fetchNext (f : Nat) : Prog := .look fun s => Prog.opt (s.flow? f) fun w => Prog.opt w.rings fun r =>
  if w.fetching || s.instState w.inst != 1 || r.sqHead == r.sqTail || r.cqFree w.descs.length == 0 then .skip
  else Prog.seq
    (flowUpd f fun w => { w with fetching := true, rings := some { r with sqHead := (r.sqHead + 1) % 2 ^ r.sqLog } })
    (flowItem f (.fetch r.sqHead) none (some (r.sqBase + r.sqHead * 64, 64)) false itemIssue)

/-- What may go on in a flow after anything changed: the mode, packets, completions, fetching. -/
def flowPump (f : Nat) : Prog := Prog.all [flowMode f, sendAll f, completeAll f, fetchNext f]

/-! ### ERROR (R240) -/

/-- Whether a packet is of a WRITE that completed on departure (R236). -/
def Flow.gone (w : Flow) (p : MPkt) : Bool := p.type == .wdata && !(w.descs.any fun d => d.sn == p.sn && d.status.isNone)

/-- A flow end enters ERROR: the causing descriptors complete with their codes, every other one with FLUSHED, ABORT goes to the
peer, FLOW_ERROR to the event queue, and EV087 is logged. What is still queued in the ring up to the last tail written is fetched
and completed with FLUSHED, after REC_MS with PATH_LOST_NONE (R238); with no packet left the end may return to PLACED (R235). Packets not ended of WRITEs that completed on departure end with a code of their own, and DEPARTED_FAIL says so (R236, R238). -/
def flowErrorAs (f code dead : Nat) (cause : MDesc → Option Nat) : Prog := .look fun s => Prog.opt (s.flow? f) fun w =>
  Prog.when (!w.err) (Prog.all [
    flowUpd f fun w => { w with
      err := true
      flushAs := if code = 0x0A then 0x0A else 0x0D
      pkts := []
      descs := w.descs.map fun d => if d.status.isSome then d else { d with status := some ((cause d).getD 0x0D) } },
    engSend f (s.millHdr f w .abort) [] none,
    Prog.each (w.pkts.filter w.gone) fun _ => evWrite w.inst 0x0008 f 0 dead,
    evWrite w.inst 0x0001 f 0 code,
    raise 87 (flowUnit f) f,
    flowMode f,
    completeAll f,
    fetchNext f])

/-- A flow end enters ERROR, its packets flushed (R240). -/
def flowError (f code : Nat) (cause : MDesc → Option Nat) : Prog := flowErrorAs f code 0x0D cause

/-- The code of one descriptor, for flowError: that of its lowest-numbered failing packet, where packets have failed (R213). -/
def causeSn (sn code : Nat) (d : MDesc) : Option Nat := if d.sn = sn then some ((d.fail.map Prod.snd).getD code) else none

/-! ### The ends of packets (R226, R232, R233, R236) -/

/-- A packet ends, with a status code: its bytes count as done, or its code joins its descriptor; the failure of a packet whose WRITE
completed on departure is kept for FLUSH and written to the event queue. -/
def pktEnd (f : Nat) (p : MPkt) (code : Nat) (result : BitVec 64) : Prog := .look fun s => Prog.opt (s.flow? f) fun w =>
  let lost := w.gone p && code != 0
  Prog.all [
    flowUpd f fun w => { w with
      pkts := w.pkts.filter fun q => q.seq != p.seq
      flushFail := if lost then w.flushFail ++ [p.sn] else w.flushFail
      descs := w.descs.map fun d =>
        if d.sn != p.sn then d
        else if code = 0 then { d with done := if p.type = .wdata then d.done + p.len else d.done, result }
        else { d with fail := match d.fail with
          | some c => if c.1 ≤ p.off then some c else some (p.off, code)
          | none => some (p.off, code) } },
    Prog.when lost (evWrite w.inst 0x0008 f 0 code)]

/-- Take a round-trip sample of a packet sent only once (R228). -/
def rttSample (f sample : Nat) : Prog := flowUpd f fun w =>
  let err := if sample ≥ w.srtt then sample - w.srtt else w.srtt - sample
  { w with rttvar := (3 * w.rttvar + err) / 4, srtt := (7 * w.srtt + sample) / 8 }

/-- Send a packet again with RETX (R229-R231). -/
def resend (f seq blocks : Nat) : Prog := .look fun s => Prog.opt (s.flow? f) fun w =>
  Prog.opt (w.pkts.find? fun p => p.seq == seq) fun p => Prog.seq
    (pktUpd f seq fun q => { q with sends := q.sends + 1 })
    (pktOut f p true blocks (w.pktOp p))

/-- A trim notice of a packet, or of an RREQ's RDATA of a block (R230): resent at once, but for its 64th trim in succession and on, which waits for RTO. -/
def trimResend (f seq seg blocks : Nat) : Prog := .look fun s => Prog.opt (s.flow? f) fun w =>
  Prog.opt (w.pkts.find? fun p => p.seq == seq) fun p => Prog.seq
    (pktUpd f seq fun q => { q with trims := Tab.put q.trims seg (Tab.getD q.trims seg 0 + 1) })
    (Prog.when (decide (Tab.getD p.trims seg 0 + 1 < 64)) (Prog.seq (Prog.add (flowUnit f) F.MRC_RTX_TRIM 1) (resend f seq blocks)))

/-- RTO has passed since a packet was sent last (R229, R238): sent again with the timeout doubled, or, after RETRY_MAX times while the
path is not lost, ended with RETRY_EXHAUSTED. -/
def rtoExpiry (f seq : Nat) : Prog := .look fun s => Prog.opt (s.flow? f) fun w =>
  Prog.opt (w.pkts.find? fun p => p.seq == seq) fun p =>
    let lost := s.dev.fab.lostDst.contains w.peerSw.val
    if !lost && decide (p.retries ≥ s.fld (flowUnit f) F.MRC_RTO_RETRY_MAX) then Prog.all [
      raise 88 (flowUnit f) f,
      pktEnd f p 0x09 0,
      flowError f 0x09 (causeSn p.sn 0x09)]
    else Prog.all [
      pktUpd f seq fun q => { q with
        retries := if lost then q.retries else q.retries + 1
        trims := []
        sentAt := s.time
        rto := min (s.rtoMax f) (q.rto * 2) },
      Prog.add (flowUnit f) F.MRC_RTX_TIMER 1,
      resend f seq p.blocks]

/-- Whether an ACK shows a sequence number as ended (R224, R226). -/
def ackShows (cum start : Nat) (sack : BitVec 256) (seq : Nat) : Bool :=
  seqBelow seq cum || (decide (seqDiff seq start < 256) && sack.getLsbD (seqDiff seq start))

/-- The end an ACK gives a packet (R226): a listed reject, or success where it is shown as ended and no reject can be hidden. -/
def ackEnds (cum start : Nat) (sack : BitVec 256) (rejs : List (Nat × Nat)) (more : Bool) (p : MPkt) : Option Nat :=
  match rejs.find? fun r => r.1 == p.seq with
  | some r => some r.2
  | none =>
    if p.type == .wdata && ackShows cum start sack p.seq && (!more || rejs.any fun r => seqBelow p.seq r.1) then some 0 else none

/-- The sender takes an ACK (R226, R228, R230, R231). -/
def ackTake (f cum start : Nat) (sack : BitVec 256) (trans rejs : List (Nat × Nat)) (more : Bool) : Prog := .look fun s =>
  Prog.opt (s.flow? f) fun w => Prog.all [
    Prog.each w.pkts fun p => Prog.opt (ackEnds cum start sack rejs more p) fun code => Prog.seq
      (Prog.when (p.sends == 1) (rttSample f (s.time - p.sentAt)))
      (pktEnd f p code 0),
    Prog.each trans fun r =>
      if r.2 = 0x80 then trimResend f r.1 0 0
      else pktUpd f r.1 fun q => { q with rnrSince := some (q.rnrSince.getD s.time) },
    flowPump f]

end Sys2Proof.Machine
end

