-- ==== Sys2Proof/Machine/MillTgt.lean ====
section
/-!
DEFINITION. Machine/MillTgt.lean: Millrace's receiving side: the tests of a packet, placements, reads and atomics, acknowledgements,
regions and their revocation, the instance commands, and damaged state areas (R203-R205, R214-R217, R221-R225, R230-R233, R237, R241).
-/
namespace Sys2Proof.Machine

/-! ### Acknowledgement (R224, R225) -/

/-- The reject records of a flow at or above the highest UNA received, in ascending order (R224). -/
def Flow.rejects (w : Flow) : List (Nat × Nat) :=
  let l := w.rxRes.filter fun e => decide (e.2 ≥ 2) && !seqBelow e.1 w.hiUna
  (l.filter fun e => decide (e.1 ≥ w.hiUna)) ++ l.filter fun e => decide (e.1 < w.hiUna)

/-- The bitmap of an ACK: the positions from a start on that have ended (R224). -/
def Flow.sack (w : Flow) (start : Nat) : BitVec 256 :=
  (List.range 256).foldl (fun v j =>
    let seq := (start + j) % 2 ^ 24
    let ended := seqBelow seq w.rxB || (match Tab.get? w.rxRes seq with | some r => decide (r ≥ 1) | none => false)
    if ended then v ||| BitVec.ofNat 256 (2 ^ j) else v) 0

/-- Send one ACK with its bitmap from a start. -/
def ackAt (f start : Nat) (trans : List (Nat × Nat)) : Prog := .look fun s => Prog.opt (s.flow? f) fun w =>
  xSend (engX (flowEngine f)) .rmac (.millAck (s.millHdr f w .ack) w.rxB start (w.sack start) (trans.take 4) (w.rejects.take 12)
    (decide (w.rejects.length > 12)))

/-- Send the ACKs that are due (R225): one from CUM on, but where only positions beyond CUM + 255 have newly ended, and one for each 256-aligned block that holds
such positions. -/
def ackSend (f : Nat) (trans : List (Nat × Nat)) : Prog := .look fun s => Prog.opt (s.flow? f) fun w =>
  let far := w.newEnds.filter fun q => !seqBelow q w.rxB && decide (seqDiff q w.rxB > 255)
  let near := w.newEnds.any fun q => !seqBelow q w.rxB && decide (seqDiff q w.rxB ≤ 255)
  let starts := (if far.isEmpty || near then [w.rxB] else []) ++ (far.map fun q => q / 256 * 256).eraseDups
  Prog.seq (Prog.each starts fun q => ackAt f q trans) (flowUpd f fun w => { w with newEnds := [], ackDue := false })

/-- Move the receive base over ended positions; results older than 1,024 positions are forgotten (R222). -/
def rxAdvance : Nat → Flow → Flow
  | 0, w => w
  | n + 1, w => match Tab.get? w.rxRes w.rxB with
    | some r => if r ≥ 1 then rxAdvance n { w with rxB := (w.rxB + 1) % 2 ^ 24 } else w
    | none => w

/-- Forget results more than 1,024 positions below the base. -/
def rxForget (w : Flow) : Flow :=
  { w with rxRes := Tab.keep w.rxRes fun q _ => !seqBelow q w.rxB || decide (seqDiff w.rxB q ≤ 1024) }

/-- A position ends, with result 1 or a reject code (R222, R223, R225): at once acknowledged after ACK_PKTS ends, for a FINAL or
resent packet, and for a new reject; else after the delay. -/
def rxEnd (f seq res : Nat) (now : Bool) : Prog := .look fun s => Prog.seq
  (flowUpd f fun w => rxForget (rxAdvance 1024 { w with
    rxRes := Tab.put w.rxRes seq res, newEnds := w.newEnds ++ [seq], ackDue := true }))
  (.look fun t => Prog.opt (t.flow? f) fun w =>
    Prog.when (now || decide (res ≥ 2) || decide (w.newEnds.length ≥ s.fld (flowUnit f) F.MRC_CFG_ACK_PKTS)) (ackSend f []))

/-! ### The tests of a packet (R203, R221) -/

/-- The outcome of tests 6 to 12 for a packet's key and span. -/
inductive KeyTest where
  | retry
  | reject (code : Nat)
  | ok (ix : Nat) (r : Region)
  deriving DecidableEq, Repr

/-- The key of an index (R215). -/
def State.regionKey (s : State) (ix : Nat) : Nat := ix * 256 + s.regionGen ix

/-- Whether a pool byte's extent is UNMAPPED or beyond the map reach (R213 code 0x08). -/
def State.extentGone (s : State) (gpa : Nat) : Bool :=
  decide (gpa / 2 ^ 21 ≥ s.fld .root F.DEV_MAP_SIZE_NEXT) || (s.entry (gpa / 2 ^ 21)).type == .unmapped
    || s.dev.xlat.bad.contains (gpa / 2 ^ 21)

/-- Tests 6 to 12 (R221). -/
def State.keyTest (s : State) (f : Nat) (w : Flow) (h : MHdr) : KeyTest :=
  let ix := h.rkey.toNat / 256
  if s.instState w.inst = 2 then .retry
  else match Tab.get? s.dev.mill.regions ix with
    | none => .reject 0x02
    | some r =>
      let len := if h.type = .atomic then 8 else h.len
      let perm := match h.type with | .wdata => r.permW | .rreq => r.permR | _ => r.permA
      if !r.v || r.dmg || s.regionGen ix != h.rkey.toNat % 256 then .reject 0x02
      else if r.closing then .reject 0x03
      else if r.inst ≠ w.inst ∨ (r.flowr = true ∧ r.flow ≠ f) then .reject 0x04
      else if h.type = .atomic ∧ r.pool = false then .reject 0x05
      else if !perm || decide (h.roff + len > r.len) then .reject 0x04
      else if h.type = .atomic ∧ h.roff % 8 ≠ 0 then .reject 0x06
      else .ok ix r

/-- What an arriving packet is to the receiver, by tests 2 to 5 (R221, R222). -/
inductive SeqTest where
  | cached (a : MAtom)
  | beyond
  | dup (res : Nat)
  | fresh
  deriving DecidableEq, Repr

/-- Tests 2 to 5. A position below the base whose result is no longer kept counts as ended. -/
def Flow.seqTest (w : Flow) (t : MType) (seq : Nat) : SeqTest :=
  match if t = .atomic then w.atoms.find? fun a => a.seq == seq else none with
  | some a => .cached a
  | none =>
    if seqBelow seq w.rxB then .dup ((Tab.get? w.rxRes seq).getD 1)
    else if seqDiff seq w.rxB ≥ 1024 then .beyond
    else match Tab.get? w.rxRes seq with
      | some r => .dup r
      | none => .fresh

/-- Test 1 (R203): the destination end is OPEN with the packet's generation; otherwise the packet is discarded and counted, and an end
in ERROR with that generation answers ABORT. -/
def flowCheck (h : MHdr) (k : Flow → Prog) : Prog := .look fun s =>
  let f := h.dstFlow.val
  let disc := Prog.add (flowUnit f) F.MRC_RX_DISC_FLOW 1
  match s.flow? f with
  | none => disc
  | some w =>
    if w.fgen ≠ h.fgen.toNat then disc
    else if w.err then Prog.seq disc (engSend f { s.millHdr f w .abort with
      dstSw := h.srcSw, dstFlow := h.srcFlow } [] none)
    else k w

/-- Take an index off the free list. -/
def takeRegion (ix : Nat) : Prog := Prog.mill fun m =>
  if m.freed.contains ix then { m with freed := m.freed.filter fun j => j != ix }
  else if ix = m.nextIx then { m with nextIx := ix + 1 }
  else if ix > m.nextIx then { m with taken := if m.taken.contains ix then m.taken else m.taken ++ [ix] }
  else m

/-- A flow end whose state area reads uncorrectable enters ERROR (R241). -/
def flowLost (f : Nat) : Prog := .look fun s => Prog.when (s.flow? f).isSome (Prog.seq (raise 91 (flowUnit f) f) (flowError f 0x0D fun _ => none))

/-- A line of the region table that reads uncorrectable damages its entry (R241); one that no region holds leaves the free list with it. -/
def regionLost (ix : Nat) : Prog := .look fun s => Prog.seq
  (if Tab.has s.dev.mill.regions ix then Prog.mill fun m => { m with regions := Tab.upd m.regions ix fun r => { r with dmg := true } }
    else Prog.seq (takeRegion ix) (Prog.mill fun m => { m with regions := Tab.put m.regions ix {
      v := false, closing := false, pool := false, permW := false, permR := false, permA := false, flowr := false, flow := 0, inst := 0, dmg := true, base := 0,
      len := 0, hdr := none, closedAt := 0, late := false } }))
  (raise 91 (.engine 0) ix)

/-- A read of a line of the region table or of the flow state area (R144), which the packet may say comes uncorrectable; it is counted (R163). -/
def millArea (o : Nat) (bad : Bool) (k : Bool → Prog) : Prog :=
  if bad then Prog.seq (Prog.add (regionPc o) F.RSV_ECC_CNT_UE 1) (k true) else areaTake o k

/-- A packet meets its flow end: where the read of that end's state is uncorrectable, the end enters ERROR first (R203, R241). -/
def millOpen (p : MIn) (k : Flow → Prog) : Prog := Prog.seq
  (millArea (0x40000000 + p.hdr.dstFlow.val * 65536) p.flowBad fun bad => Prog.when bad (flowLost p.hdr.dstFlow.val)) (flowCheck p.hdr k)

/-- Note the sender's UNA. -/
def noteUna (f una : Nat) : Prog := flowUpd f fun w => { w with hiUna := if seqBelow w.hiUna una then una else w.hiUna }

/-- Send an RDATA or an ARSP (R232, R233). -/
def respond (f : Nat) (t : MType) (seq : Nat) (seg : Fin 16) (roff stat : Nat) (old : BitVec 64) (data : List Byte) : Prog :=
  .look fun s => Prog.opt (s.flow? f) fun w => engSend f { s.millHdr f w t with
    seq := BitVec.ofNat 24 seq, seg, roff, stat := BitVec.ofNat 8 stat, len := data.length, op1 := old } data none

/-- A duplicate of a position (R222): one that is accepted is discarded, one that has ended is discarded and acknowledged, and one
rejected is answered with its record again. -/
def dupAnswer (f res : Nat) : Prog := Prog.seq (Prog.add (flowUnit f) F.MRC_RX_DISC_DUP 1) (Prog.when (decide (res ≥ 1)) (ackSend f []))

/-- Tests 1 to 12 of a WDATA, RREQ or ATOMIC packet, and what follows when it is accepted (R221); the read of the flow's state, or of the region's entry at the key
stage, may be uncorrectable (R241). -/
def millTest (p : MIn) (accepted : Nat → Region → Prog) : Prog := millOpen p fun w =>
  let h := p.hdr
  let f := h.dstFlow.val
  let seq := h.seq.toNat
  let now := h.final || h.retx
  let key : Prog := .look fun s => match s.keyTest f w h with
    | .retry => ackSend f [(seq, 0x81)]
    | .reject c => millArea (h.rkey.toNat / 256 * 64) p.keyBad fun bad =>
        if bad then Prog.seq (regionLost (h.rkey.toNat / 256)) (rxEnd f seq 0x02 now) else rxEnd f seq c now
    | .ok ix r => millArea (ix * 64) p.keyBad fun bad => if bad then Prog.seq (regionLost ix) (rxEnd f seq 0x02 now) else accepted ix r
  Prog.seq (noteUna f h.una.toNat)
    (match w.seqTest h.type seq with
      | .cached a => respond f .arsp seq 0 0 a.status a.old []
      | .beyond => Prog.seq (Prog.add (flowUnit f) F.MRC_RX_DISC_WINDOW 1) (raise 89 (flowUnit f) f)
      | .dup r => if h.type = .rreq ∧ r < 2 then key else dupAnswer f r
      | .fresh => key)

/-- Record a position as accepted, unless it is recorded already. -/
def rxAccept (f seq : Nat) : Prog := flowUpd f fun w =>
  if seqBelow seq w.rxB || Tab.has w.rxRes seq then w else { w with rxRes := Tab.put w.rxRes seq 0 }

/-! ### Pool accesses of an engine -/

/-- The lines a span of bytes touches: line address, first byte in the line, count, and place in the span. -/
def spanLines (gpa len : Nat) : List (Nat × Nat × Nat × Nat) :=
  (List.range ((gpa % 64 + len + 63) / 64)).map fun i =>
    let la := gpa / 64 + i
    let lo := max gpa (la * 64)
    let hi := min (gpa + len) (la * 64 + 64)
    (la, lo - la * 64, hi - lo, lo - gpa)

/-- The bytes of a list placed in a line from a byte on. -/
def lineOf (l : List Byte) (at_ : Nat) : Line := BitVec.ofNat 512 (leNum l * 2 ^ (8 * at_))

/-- An access of an engine to a line of pool memory, region-checked (R217). -/
def millAcc (e : Fin 2) (id : Nat) (op : M2S) (la : Nat) (d : Line) (m : Mask) (i : Fin 1024) : Prog := accTranslate {
  origin := .mill e id, op, mv := .i, gpa := la * 64, data := d, mask := m, wtype := .priv, cmode := 0, epoch := 0, tgt := none,
  host := none, inst := some i }

/-- Write bytes to pool memory line by line (R223). -/
def millPoolWrite (e : Fin 2) (id gpa : Nat) (l : List Byte) (i : Fin 1024) : Prog :=
  Prog.each (spanLines gpa l.length) fun q =>
    millAcc e id (if q.2.2.1 = 64 then .memWr else .memWrPtl) q.1 (lineOf ((l.drop q.2.2.2).take q.2.2.1) q.2.1)
      (BitVec.ofNat 64 ((2 ^ q.2.2.1 - 1) * 2 ^ q.2.1)) i

/-- Whether a work item still has an access of its own under way. -/
def State.itemBusy (s : State) (e : Fin 2) (id : Nat) : Bool :=
  s.liveAccs.any (fun a => a.origin == .mill e id)
    || (match s.dev.mov.hold with | some h => h.parked.any fun a => a.1.origin == .mill e id | none => false)
    || s.dev.ort.entries.any (fun x => x.2.isOpen && x.2.ctx == .fwd (.mill e id))

/-! ### Placements, reads and atomics at the target (R223, R232, R233) -/

/-- A WDATA packet is accepted: its bytes are placed in the target host's memory, with an ordering read behind them, or written to the
pool; a pool extent that is gone rejects it (R213, R217, R223). -/
def placeStart (p : MIn) (data : List Byte) : Prog := millTest p fun ix r => .look fun s =>
  let h := p.hdr
  let f := h.dstFlow.val
  let seq := h.seq.toNat
  let now := h.final || h.retx
  let at_ := r.base + h.roff
  Prog.opt (s.flow? f) fun w =>
    if r.pool && s.extentGone at_ then rxEnd f seq 0x08 now
    else if r.pool then Prog.seq (rxAccept f seq) (flowItem f (.place seq h.final h.retx) (some ix) none true
      fun id => millPoolWrite (flowEngine f) id at_ data w.inst)
    else Prog.seq (rxAccept f seq) (flowItem f (.place seq h.final h.retx) (some ix) (some (at_, 0)) false
      fun id => Prog.seq
        (Prog.opt (s.instPort w.inst) fun p =>
          busWrite (engX (flowEngine f)) p.1 p.2 (.busWrite p.1 p.2 at_ data (.place (flowEngine f) id)))
        (itemIssue id))

/-- A placed packet ends, where its flow end still stands. -/
def placeEnd (it : MItem) (seq code : Nat) (now : Bool) : Prog := .look fun s => Prog.when (s.itemFlow it).isSome (rxEnd it.flow seq code now)

/-- A placement ends with an ordering read that was issued after its writes (R223): its own read, where one is out, only closes. -/
def placeCovered (k : Nat) : Prog := .look fun s => Prog.opt (Tab.get? s.dev.mill.items k) fun it =>
  match it.work with
  | .place seq fin retx => Prog.seq
    (if it.issued then Prog.mill fun m => { m with items := Tab.upd m.items k fun v => { v with work := .spent, region := none } } else itemDrop k)
    (placeEnd it seq 1 (fin || retx))
  | _ => .skip

/-- A placement ends (R223): its ordering read has completed, and with it the placements whose writes were issued before, or every pool write has been accepted. -/
def placeDone (id code : Nat) : Prog := .look fun s => Prog.opt (Tab.get? s.dev.mill.items id) fun it =>
  match it.work with
  | .place seq fin retx =>
    if code = 0 ∧ (it.issued = false ∨ s.itemBusy (flowEngine it.flow) id = true) then .skip
    else Prog.all [
      itemAnswered id,
      itemDrop id,
      Prog.when (code == 0) (Prog.each it.behind placeCovered),
      placeEnd it seq (if code = 0 then 1 else code) (fin || retx)]
  | .spent => Prog.seq (itemAnswered id) (itemDrop id)
  | _ => .skip

/-- The blocks of 4 KiB an RREQ spans: number, first byte in the region and length (R218, R219). -/
def rreqBlocks (roff len : Nat) : List (Nat × Nat × Nat) :=
  (List.range ((roff % 4096 + len + 4095) / 4096)).map fun j =>
    let lo := max roff ((roff / 4096 + j) * 4096)
    let hi := min (roff + len) ((roff / 4096 + j + 1) * 4096)
    (j, lo, hi - lo)

/-- An accepted RREQ that has no block left to read ends (R232). -/
def readSettle (f seq : Nat) (now : Bool) : Prog := .look fun s => Prog.opt (s.flow? f) fun w =>
  let left := s.dev.mill.items.any fun e => e.2.flow == f && e.2.fgen == w.fgen && (match e.2.work with | .block q _ _ _ => q == seq | _ => false)
  Prog.when (!left && Tab.get? w.rxRes seq == some 0) (rxEnd f seq 1 now)

/-- An RREQ is accepted: the blocks its mask asks for are read (R232). -/
def readStart (p : MIn) : Prog := millTest p fun ix r => .look fun s =>
  let h := p.hdr
  let f := h.dstFlow.val
  let seq := h.seq.toNat
  let e := flowEngine f
  let now := h.final || h.retx
  Prog.opt (s.flow? f) fun w => Prog.all [
    rxAccept f seq,
    Prog.each ((rreqBlocks h.roff h.len).filter fun b => h.segmask.getLsbD b.1) fun b =>
      let at_ := r.base + b.2.1
      if r.pool && s.extentGone at_ then respond f .rdata seq ⟨b.1 % 16, Nat.mod_lt _ (by decide)⟩ b.2.1 0x08 0 []
      else flowItem f (.block seq b.1 b.2.1 now) (some ix) (if r.pool then none else some (at_, b.2.2)) r.pool
        fun id =>
          if r.pool then Prog.each (spanLines at_ b.2.2) fun q => millAcc e id .memRd q.1 0 0 w.inst
          else itemIssue id,
    readSettle f seq now]

/-- A read of a block completes (R232): its bytes, or POISON or UNMAPPED without payload, go back in an RDATA. -/
def readDone (id : Nat) (stat : Nat) (data : List Byte) : Prog := .look fun s => Prog.opt (Tab.get? s.dev.mill.items id) fun it =>
  match it.work with
  | .block seq seg roff now =>
    if stat = 0 ∧ (it.issued = false ∨ s.itemBusy (flowEngine it.flow) id = true) then .skip
    else Prog.all [
      itemAnswered id,
      itemDrop id,
      Prog.when (s.itemFlow it).isSome (Prog.seq
        (respond it.flow .rdata seq ⟨seg % 16, Nat.mod_lt _ (by decide)⟩ roff stat 0 (if stat = 0 then data else []))
        (readSettle it.flow seq now))]
  | _ => .skip

/-- An ATOMIC packet is accepted and forwarded to the atomic unit of the home switch (R233). -/
def atomicStart (p : MIn) (op : AtomOp) : Prog := millTest p fun ix r =>
  let h := p.hdr
  let f := h.dstFlow.val
  Prog.seq (rxAccept f h.seq.toNat) (flowItem f (.atomic h.seq.toNat (h.final || h.retx)) (some ix) none true
    fun id => atomStart (.mill (flowEngine f) id) op (r.base + h.roff))

/-- The status of an atomic unit's result code (R233). -/
def atomStatus (code : Nat) : Nat := [0x00, 0x05, 0x06, 0x08, 0x07, 0x0A, 0x0B].getD code 0x0B

/-- The atomic unit's result: kept among the last 16 of the flow, returned in an ARSP, and the position ends (R233). -/
def atomicDone (id code : Nat) (old : BitVec 64) : Prog := .look fun s => Prog.opt (Tab.get? s.dev.mill.items id) fun it =>
  match it.work with
  | .atomic seq now => Prog.seq (itemDrop id) (Prog.when (s.itemFlow it).isSome (Prog.all [
      flowUpd it.flow fun w => { w with
        atoms := (w.atoms ++ [(⟨seq, atomStatus code, old⟩ : MAtom)]).drop (w.atoms.length + 1 - 16) },
      respond it.flow .arsp seq 0 0 (atomStatus code) old [],
      rxEnd it.flow seq 1 now]))
  | _ => .skip

/-! ### Packets that come back to the initiator (R230, R232, R233, R240) -/

/-- An RDATA arrives (R232): a good block is written to LADDR, a bad one gives its code; the RREQ ends with its last block. -/
def rdataTake (m : MIn) (data : List Byte) : Prog := millOpen m fun w =>
  let h := m.hdr
  let f := h.dstFlow.val
  let seq := h.seq.toNat
  Prog.opt (w.pkts.find? fun p => p.seq == seq && p.type == .rreq) fun p =>
    if !bitOf p.blocks h.seg.val then .skip
    else
      let b := ((rreqBlocks p.roff p.len).find? fun b => b.1 == h.seg.val).getD (0, 0, 0)
      let off := p.off + (b.2.1 - p.roff)
      let bytes := data.take b.2.2
      let good := h.stat == 0
      Prog.all [
        Prog.when good (.look fun s => Prog.opt (s.instPort w.inst) fun q =>
          Prog.opt (w.descs.find? fun d => d.sn == p.sn) fun d =>
            busWrite (engX (flowEngine f)) q.1 q.2 (.busWrite q.1 q.2 (d.laddr + off) bytes .data)),
        flowUpd f fun v => { v with
          pkts := v.pkts.map fun q => if q.seq = seq then { q with blocks := q.blocks - 2 ^ h.seg.val, trims := Tab.erase q.trims h.seg.val } else q
          descs := v.descs.map fun d => if d.sn != p.sn then d
            else if good then { d with done := d.done + bytes.length }
            else { d with fail := match d.fail with
              | some c => if c.1 ≤ off then some c else some (off, h.stat.toNat)
              | none => some (off, h.stat.toNat) } },
        Prog.when (p.blocks == 2 ^ h.seg.val) (pktEnd f p 0 0),
        flowPump f]

/-- An ARSP arrives and ends its ATOMIC (R233). -/
def arspTake (m : MIn) : Prog := millOpen m fun w =>
  let h := m.hdr
  let f := h.dstFlow.val
  Prog.opt (w.pkts.find? fun p => p.seq == h.seq.toNat && p.type == .atomic) fun p =>
    Prog.seq (pktEnd f p h.stat.toNat h.op1) (flowPump f)

/-- A trim notice reaches its packet's destination (R230): the target reports a TRIM record at once, the initiator asks for the block
of a trimmed RDATA again at once. -/
def trimTake (m : MIn) : Prog := millOpen m fun _ =>
  let h := m.hdr
  let f := h.dstFlow.val
  match h.orig with
  | some .wdata => Prog.seq (noteUna f h.una.toNat) (ackSend f [(h.seq.toNat, 0x80)])
  | some .rdata => .look fun s => Prog.opt (s.flow? f) fun w =>
      Prog.when (w.pkts.any fun p => p.seq == h.seq.toNat && p.type == .rreq && bitOf p.blocks h.seg.val)
        (trimResend f h.seq.toNat h.seg.val (2 ^ h.seg.val))
  | _ => .skip

/-- ABORT arrives: the flow end enters ERROR (R240). -/
def abortTake (m : MIn) : Prog := millOpen m fun _ => flowError m.hdr.dstFlow.val 0x0D fun _ => none

/-! ### Descriptors (R208, R210, R211) -/

/-- The atomics of a flow that are outstanding: fetched and not finished (R211). -/
def Flow.atomicsOut (w : Flow) : Nat :=
  (w.descs.filter fun d => (d.opc == 3 || d.opc == 4) && d.status.isNone).length

/-- A descriptor read from its 64 bytes (R210). -/
def descOf (sn idx : Nat) (l : List Byte) : MDesc :=
  let num := fun (at_ n : Nat) => leNum ((l.drop at_).take n)
  { sn, idx, opc := num 0 1 % 16, fin := bitOf (num 0 1) 4, irq := bitOf (num 0 1) 5, len := num 4 4, laddr := num 8 8, roff := num 16 8,
    rkey := BitVec.ofNat 32 (num 24 4), user := num 28 4, op1 := BitVec.ofNat 64 (num 32 8), op2 := BitVec.ofNat 64 (num 40 8),
    src := none, cut := 0, fail := none, done := 0, result := 0, status := none, dep := false }

/-- Whether a descriptor is malformed (R211). -/
def Flow.malformed (w : Flow) (d : MDesc) : Bool :=
  match d.opc with
  | 1 | 2 => decide (d.len = 0) || decide (d.len > 0x40000000) || decide (d.roff + d.len > 2 ^ 64)
  | 3 | 4 => decide (d.len ≠ 0) || decide (d.roff ≥ 2 ^ 64) || decide (w.atomicsOut ≥ 16)
  | 5 => decide (d.len ≠ 0)
  | _ => true

/-- A fetched descriptor arrives (R210, R211, R240): completed as malformed, flushed in a flow end in ERROR, or started; a fetch that
fails puts the flow end in ERROR. -/
def descArrive (id : Nat) (bytes : Option (List Byte)) : Prog := .look fun s => Prog.opt (Tab.get? s.dev.mill.items id) fun it =>
  match it.work, s.itemFlow it with
  | .fetch idx, some w =>
    let f := it.flow
    let d := descOf w.nextSn idx (bytes.getD [])
    let put := fun (d : MDesc) => flowUpd f fun v => { v with descs := v.descs ++ [d], nextSn := v.nextSn + 1, fetching := false }
    let pre := Prog.seq (itemAnswered id) (itemDrop id)
    if !it.issued then .skip
    else if w.err then Prog.all [pre, put { d with status := some w.flushAs }, completeAll f, fetchNext f]
    else if bytes.isNone then Prog.all [pre, put d, flowError f 0x01 (causeSn d.sn 0x01)]
    else if w.malformed d then Prog.all [pre, put { d with status := some 0x0E }, raise 90 (flowUnit f) f, flowPump f]
    else Prog.all [
      pre, put d,
      Prog.when (d.opc == 1) (flowItem f (.source d.sn) none (some (d.laddr, d.len)) false itemIssue),
      flowPump f]
  | _, _ => .skip

/-- The source of a WRITE has been read (R218), or the read failed: then the descriptor ends with LOCAL_ERR (R213). -/
def sourceArrive (id : Nat) (bytes : Option (List Byte)) : Prog := .look fun s => Prog.opt (Tab.get? s.dev.mill.items id) fun it =>
  match it.work with
  | .source sn =>
    if !it.issued then .skip
    else Prog.all [
      itemAnswered id, itemDrop id,
      Prog.when (s.itemFlow it).isSome (Prog.seq
        (flowUpd it.flow fun w => { w with descs := w.descs.map fun d =>
          if d.sn != sn || d.status.isSome then d
          else match bytes with
            | some l => { d with src := some ((l ++ List.replicate d.len 0).take d.len) }
            | none => { d with status := some 0x01 } })
        (flowPump it.flow))]
  | _ => .skip

/-- The path of a work item's bus-master read, or of one of its pool accesses, is lost (R128): error completions to the engine. -/
def itemLost (id : Nat) : Prog := .look fun s => Prog.opt (Tab.get? s.dev.mill.items id) fun it =>
  match it.work with
  | .fetch _ => descArrive id none
  | .source _ => sourceArrive id none
  | .place _ _ _ | .spent => placeDone id 0x0B
  | .block _ _ _ _ => readDone id 0x07 []
  | .atomic _ _ => .skip

/-! ### Regions (R214-R217, R237, R241) -/

/-- The first index of the free list (R215): indexes never used come before freed ones. -/
def State.freeRegion (s : State) : Option Nat :=
  let m := s.dev.mill
  match (List.range (m.taken.length + 1)).find? fun i => !m.taken.contains (m.nextIx + i) with
  | some i => if m.nextIx + i ≤ 16777215 then some (m.nextIx + i) else m.freed.head?
  | none => m.freed.head?

/-- The regions an instance holds. -/
def State.instRegions (s : State) (i : Fin 1024) : Tab Region := Tab.keep s.dev.mill.regions fun _ r => r.v && r.inst == i

/-- Pass every 4 KiB segment of a range through the Levee under an instance's identity, for each permission asked (R214, R316); `denied`
gets the first refused segment. -/
def leveeSegs (i : Fin 1024) (perms : List Perm) (denied : Nat → Prog) (ok : Prog) : Nat → Nat → Prog
  | _, 0 => ok
  | at_, n + 1 => .look fun s =>
    perms.foldr (fun p k => leveeCheck .inst (s.instIdent i) 0 at_ p (.inst i) (denied at_) k)
      (leveeSegs i perms denied ok (at_ + 4096) n)

/-- Free the index of a closed region (R237): GEN increments, V clears, and the index joins the tail of the free list, but for a damaged
entry, which is kept (R241). -/
def regionFree (ix : Nat) : Prog := Prog.mill fun m =>
  let dmg := match Tab.get? m.regions ix with | some r => r.dmg | none => false
  { m with
    gens := Tab.setD m.gens 0 ix ((Tab.getD m.gens ix 0 + 1) % 256)
    regions := if dmg then Tab.upd m.regions ix fun r => { r with v := false } else Tab.erase m.regions ix
    freed := if dmg then m.freed else m.freed ++ [ix] }

/-- The packets counted against a region that have not ended (R237). -/
def State.regionHeld (s : State) (ix : Nat) : Bool := s.dev.mill.items.any fun e => e.2.region == some ix

/-! ### The instance commands (R204, R205) -/

/-- The little-endian number at a byte of MRC_ICMD_DATA. -/
def State.icmdNum (s : State) (i : Fin 1024) (at_ n : Nat) : Nat :=
  (List.range n).foldl (fun v k =>
    v + bits (s.fldn (.inst i) F.MRC_ICMD_DATA_DATA ((at_ + k) / 4)) ((at_ + k) % 4 * 8 + 7) ((at_ + k) % 4 * 8) * 2 ^ (8 * k)) 0

/-- An instance command ends: STATUS, the result, and an ICMD_DONE entry (R204). -/
def icmdEnd (i : Fin 1024) (opc status res : Nat) : Prog := Prog.all [
  Prog.set (.inst i) F.MRC_ICMD_CTL_STATUS status,
  Prog.set (.inst i) F.MRC_ICMD_RES_RES res,
  Prog.set (.inst i) F.MRC_ICMD_CTL_BUSY 0,
  evWrite i 0x0009 0 opc status]

/-- EQ_SETUP (R205, R206): a ring of 2^6 to 2^16 entries, aligned to 4 KiB. -/
def eqSetup (i : Fin 1024) : Prog := .look fun s =>
  let base := s.icmdNum i 0 8
  let log := s.icmdNum i 8 1
  let vec := s.icmdNum i 10 2
  if log < 6 ∨ log > 16 ∨ base % 4096 ≠ 0 ∨ vec ≥ 2048 then icmdEnd i 1 1 0
  else Prog.all [
    Prog.set (.inst i) F.MRC_ICMD_CTL_STATUS 0, Prog.set (.inst i) F.MRC_ICMD_RES_RES 0,
    Prog.mill fun m => { m with eqs := Tab.put m.eqs i.val { base, log, vec, head := 0, tail := 0, phase := true, lost := 0 } },
    Prog.when (Tab.has s.dev.mill.eqs i.val) (evWrite i 0x0009 0 1 0)]

/-- FLOW_SETUP (R205, R206): a slot with descriptors in flight returns busy. -/
def flowSetup (i : Fin 1024) : Prog := .look fun s =>
  let slot := s.icmdNum i 0 2
  let sqBase := s.icmdNum i 8 8
  let sqLog := s.icmdNum i 16 1
  let cqBase := s.icmdNum i 24 8
  let cqLog := s.icmdNum i 32 1
  let vec := s.icmdNum i 34 2
  match s.slotFlow i slot with
  | none => icmdEnd i 2 5 0
  | some f =>
    let w := s.flow? f
    let busy := match w with | some w => !w.descs.isEmpty || w.fetching | none => false
    let bad := fun (l : Nat) => decide (l < 6) || decide (l > 16)
    if bad sqLog || bad cqLog || sqBase % 4096 != 0 || cqBase % 4096 != 0 || decide (vec ≥ 2048) then icmdEnd i 2 1 0
    else if busy then icmdEnd i 2 4 0
    else Prog.seq
      (flowUpd f fun w => { w with
        rings := some { sqBase, sqLog, sqHead := 0, sqTail := 0, cqBase, cqLog, cqTail := 0, cqHead := 0, vec, phase := true } })
      (icmdEnd i 2 0 0)

/-- REGION_REGISTER (R205, R214, R215, R298). -/
def regionRegister (i : Fin 1024) : Prog := .look fun s =>
  let base := s.icmdNum i 0 8
  let len := s.icmdNum i 8 8
  let b := s.icmdNum i 16 1
  let slot := s.icmdNum i 18 2
  let pool := bitOf b 0
  let flowr := bitOf b 4
  let w := bitOf b 1
  let r := bitOf b 2
  let a := bitOf b 3 && pool
  let flow := s.slotFlow i slot
  let put : Prog := .look fun t => match t.freeRegion with
    | none => Prog.seq (raise 94 (.inst i) 0) (icmdEnd i 3 3 0)
    | some ix => Prog.all [
        takeRegion ix,
        Prog.mill fun m => { m with regions := Tab.put m.regions ix {
          v := true, closing := false, pool, permW := w, permR := r, permA := a, flowr,
          flow := flow.getD 0, inst := i, dmg := false, base, len, hdr := none, closedAt := 0, late := false } },
        icmdEnd i 3 0 (t.regionKey ix)]
  let reach := s.fld .root F.DEV_MAP_SIZE_NEXT * 2 ^ 21
  if base % 4096 ≠ 0 ∨ len % 4096 ≠ 0 ∨ len < 4096 ∨ len > 2 ^ 40 ∨ base + len > 2 ^ 64 then icmdEnd i 3 1 0
  else if pool && decide (len > reach) then icmdEnd i 3 1 0
  else if flowr && flow.isNone then icmdEnd i 3 5 0
  else if (s.instRegions i).length ≥ 65536 then icmdEnd i 3 3 0
  else if !pool then put
  else leveeSegs i ((if w then [Perm.w] else []) ++ (if r then [Perm.r] else []) ++ (if a then [Perm.a] else []))
    (fun at_ => icmdEnd i 3 2 at_) put base (len / 4096)

/-- The region a key names, where it is registered (R215). -/
def State.keyRegion (s : State) (key : Nat) : Option (Nat × Region) :=
  match Tab.get? s.dev.mill.regions (key / 256) with
  | some r => if r.v && s.regionGen (key / 256) == key % 256 then some (key / 256, r) else none
  | none => none

/-- Close a region (R237). -/
def regionClose (ix : Nat) (h : Option Hdr) : Prog := .look fun s => Prog.mill fun m => { m with
  regions := Tab.upd m.regions ix fun r => { r with closing := true, hdr := h, closedAt := s.time } }

/-- REGION_REVOKE of the instance (R237): the command stays busy until the region's last packet has ended. -/
def regionRevokeInst (i : Fin 1024) : Prog := .look fun s =>
  match s.keyRegion (s.icmdNum i 0 4) with
  | none => icmdEnd i 4 5 0
  | some (ix, r) =>
    if r.inst ≠ i then icmdEnd i 4 5 0
    else if r.closing then icmdEnd i 4 4 0
    else Prog.seq (regionClose ix none) (Prog.set (.inst i) F.MRC_ICMD_CTL_BUSY 1)

/-- REGION_QUERY (R205): base in the result, length and state in MRC_ICMD_DATA; the state is the low word of the region table
entry (log entry 33). -/
def regionQuery (i : Fin 1024) : Prog := .look fun s =>
  match s.keyRegion (s.icmdNum i 0 4) with
  | none => icmdEnd i 5 5 0
  | some (ix, r) =>
    let st := b2n r.v + b2n r.closing * 2 + s.regionGen ix * 4 + b2n r.pool * 2 ^ 10 + b2n r.permW * 2 ^ 11 + b2n r.permR * 2 ^ 12
      + b2n r.permA * 2 ^ 13 + b2n r.flowr * 2 ^ 14 + r.flow * 2 ^ 15 + r.inst.val * 2 ^ 29 + b2n r.dmg * 2 ^ 39
    if r.inst ≠ i then icmdEnd i 5 5 0
    else Prog.all [
      Prog.setn (.inst i) F.MRC_ICMD_DATA_DATA 0 r.len, Prog.setn (.inst i) F.MRC_ICMD_DATA_DATA 1 (r.len / 2 ^ 32),
      Prog.setn (.inst i) F.MRC_ICMD_DATA_DATA 2 st, Prog.setn (.inst i) F.MRC_ICMD_DATA_DATA 3 (st / 2 ^ 32),
      icmdEnd i 5 0 r.base]

/-- A write of MRC_ICMD_CTL.OPC (R204, R205, R298): ignored and logged while a command runs; busy while the instance is FROZEN; no
command of a resetting or disabled instance runs (R312, R313). -/
def icmd (i : Fin 1024) (opc : Nat) : Prog := .look fun s =>
  if opc = 0 ∨ s.instState i = 3 ∨ s.instState i = 0 then .skip
  else if s.flag (.inst i) F.MRC_ICMD_CTL_BUSY then raise 90 (.inst i) opc
  else if s.instState i = 2 then icmdEnd i opc 4 0
  else match opc with
    | 1 => eqSetup i
    | 2 => flowSetup i
    | 3 => regionRegister i
    | 4 => regionRevokeInst i
    | 5 => regionQuery i
    | _ => Prog.seq (raise 90 (.inst i) opc) (icmdEnd i opc 1 0)

/-- REGION_REVOKE of the manager (R217, R237). -/
def regionRevoke (h : Hdr) (key : Nat) : Prog := .look fun s =>
  match s.keyRegion key with
  | none => reply h stNotFound []
  | some (ix, r) =>
    if r.closing then reply h stBusy []
    else Prog.seq (bgStart h 0x0302 none [ix]) (regionClose ix (some h))

/-- A closing region's last packet has ended (R237): the index is freed, the revoke is reported as its command's status and as
REVOKE_DONE, and a revoke that took more than 10 us is logged. -/
def revokeDone (ix : Nat) : Prog := .look fun s =>
  match Tab.get? s.dev.mill.regions ix with
  | none => .skip
  | some r =>
    let key := s.regionKey ix
    let mine := fun (b : Bg) => b.opcode == 0x0302 && b.args == [ix]
    if !r.v || !r.closing || s.regionHeld ix then .skip
    else Prog.all [
      Prog.when (decide (s.time > r.closedAt + 10000)) (raise 93 (.inst r.inst) key),
      regionFree ix,
      (match r.hdr with
        | some h => Prog.seq (.eff (.bgDrop mine)) (reply h stOk [])
        | none => Prog.when (s.flag (.inst r.inst) F.MRC_ICMD_CTL_BUSY) (icmdEnd r.inst 4 0 0)),
      evWrite r.inst 0x0006 0 key 0]

/-! ### Doorbells (R207, R242, R303) -/

/-- Whether a submission ring holds at most its size minus one with a new tail (R207): the descriptors it holds, and those from the old tail up to the new one. -/
def MRings.takesTail (r : MRings) (tail : Nat) : Bool :=
  let n := 2 ^ r.sqLog
  decide (tail < n) && decide ((r.sqTail + n - r.sqHead % n) % n + (tail + n - r.sqTail % n) % n < n)

/-- A write of MRC_SQ_DB: recorded but not acted on while the instance is FROZEN; ignored and logged for a slot without rings or a
tail the ring cannot hold (R207, R240, R303). -/
def sqDoorbell (i : Fin 1024) (slot tail : Nat) : Prog := .look fun s =>
  if s.instState i = 3 ∨ s.instState i = 0 then .skip
  else match s.slotFlow i slot with
  | none => raise 90 (.inst i) slot
  | some f => match (s.flow? f).bind fun w => w.rings.map fun r => (w, r) with
    | none => raise 90 (flowUnit f) slot
    | some (w, r) =>
      if w.err then .skip
      else if !r.takesTail tail then raise 90 (flowUnit f) slot
      else Prog.seq (flowUpd f fun w => { w with rings := some { r with sqTail := tail } }) (fetchNext f)

/-- A write of MRC_CQ_DB (R207): ignored by a flow end in ERROR (R240). -/
def cqDoorbell (i : Fin 1024) (slot head : Nat) : Prog := .look fun s =>
  if s.instState i = 3 ∨ s.instState i = 0 then .skip
  else match s.slotFlow i slot with
  | none => raise 90 (.inst i) slot
  | some f => match (s.flow? f).bind fun w => w.rings.map fun r => (w, r) with
    | none => raise 90 (flowUnit f) slot
    | some (w, r) =>
      if w.err then .skip
      else Prog.seq (flowUpd f fun w => { w with rings := some { r with cqHead := head % 2 ^ r.cqLog } }) (fetchNext f)

/-- A write of MRC_EQ_DB (R242). -/
def eqDoorbell (i : Fin 1024) (head : Nat) : Prog := .look fun s =>
  if s.instState i = 3 ∨ s.instState i = 0 then .skip
  else Prog.mill fun m => { m with eqs := Tab.upd m.eqs i.val fun q => { q with head := head % 2 ^ q.log } }

/-! ### Flow ends (R201, R202, R298) -/

/-- A flow end as FLOW_CREATE makes it; the first SRTT is RTO_MIN / 2 (R228), and the variance starts at 0 (log entry 34). -/
def Flow.new (inst : Fin 1024) (slot : Nat) (peerSw : Fin 16) (peerFlow fgen rtoMin : Nat) : Flow := {
  inst, slot, peerSw, peerFlow, fgen, err := false, departed := false, rings := none, descs := [], nextSn := 1, fetching := false, flushAs := 0x0D,
  sndNxt := 0, pkts := [], srtt := rtoMin / 2, rttvar := 0, flushFail := [], rxB := 0, rxRes := [], hiUna := 0, newEnds := [],
  ackDue := false, atoms := [] }

/-- FLOW_CREATE (R201, R298). -/
def flowCreate (h : Hdr) (f : Fin 16384) (i : Fin 1024) (slot : Nat) (peerSw : Fin 16) (peerFlow : Fin 16384) (fgen : Nat) : Prog :=
  .look fun s =>
    if s.instState i = 0 then reply h stUnavailable []
    else if s.instState i ≠ 1 then reply h stBusy []
    else if (s.flow? f.val).isSome ∨ slot ≥ 1024 ∨ (s.slotFlow i slot).isSome ∨ s.instFlows i ≥ 1024 ∨ fgen = 0
        ∨ Tab.get? s.dev.mill.lastGen f.val = some fgen then reply h stInvalid []
    else Prog.all [
      Prog.mill fun m => { m with
        flows := Tab.put m.flows f.val (Flow.new i slot peerSw peerFlow.val fgen (s.rtoMin f.val))
        lastGen := Tab.put m.lastGen f.val fgen },
      flowMode f.val,
      reply h stOk []]

/-- Whether a completion entry of a flow end is held unwritten: its function may not master, or it waits at the engine's port (R117, R284). -/
def State.cqesHeld (s : State) (f : Nat) (w : Flow) : Bool :=
  let mine := fun (o : Out) => match o, w.rings with
    | .busWrite _ _ a _ .cqe, some r => decide (r.cqBase ≤ a) && decide (a < r.cqBase + 32 * 2 ^ r.cqLog)
    | _, _ => false
  (match s.instPort w.inst with
    | some p => (Tab.getD s.dev.ports.held (fnKey p.1 p.2) []).any mine
    | none => false)
    || (Tab.getD s.dev.flood.waiting (qKey (engX (flowEngine f)) .iotx) []).any fun q => match q with
      | .out o => mine o
      | _ => false

/-- FLOW_DESTROY (R201): the end is FREE once every completion of it has been written; until then it is busy. Packets that its peer sent and that were accepted go on
(R237). -/
def flowDestroy (h : Hdr) (f : Fin 16384) : Prog := .look fun s =>
  match s.flow? f.val with
  | none => reply h stInvalid []
  | some w =>
    let queued := match w.rings with | some r => r.sqHead != r.sqTail | none => false
    if !w.descs.isEmpty || w.fetching || queued || s.cqesHeld f.val w then reply h stBusy []
    else Prog.seq (Prog.mill fun m => { m with flows := Tab.erase m.flows f.val }) (reply h stOk [])

/-- FLOW_REPOINT (R302), after which a WRITE that has been sent may be complete (R235). -/
def flowRepoint (h : Hdr) (f : Fin 16384) (sw : Fin 16) (peer : Fin 16384) : Prog := .look fun s =>
  match s.flow? f.val with
  | none => reply h stInvalid []
  | some _ => Prog.all [flowUpd f.val fun w => { w with peerSw := sw, peerFlow := peer.val }, flowMode f.val, completeAll f.val, reply h stOk []]

/-! ### Path loss and damaged areas (R238, R241) -/

/-- A path to a switch is lost, or restored: modes, and PEER_RESTORED to the flow ends with a peer there (R235, R238, R243). -/
def millPath (d : Fin 16) (restored : Bool) : Prog := .look fun s =>
  Prog.each (s.dev.mill.flows.filter fun e => e.2.peerSw == d) fun e => Prog.seq
    (Prog.when restored (evWrite e.2.inst 0x0005 e.1 d.val 0)) (flowPump e.1)

/-- Bring every flow end's mode up to date. -/
def millModes : Prog := .look fun s => Prog.each s.dev.mill.flows fun e => flowPump e.1

/-- REC_MS has passed since a path was lost (R238): unsent descriptors end with PATH_LOST_NONE, those with packets sent with
PATH_LOST_UNKNOWN, and the device writes PEER_UNREACHABLE. A packet that failed before keeps its code where it is the lowest (R213). -/
def pathRecovery (f : Nat) : Prog := .look fun s => Prog.opt (s.flow? f) fun w =>
  Prog.when (!w.err && s.dev.fab.lostDst.contains w.peerSw.val) (Prog.seq
    (evWrite w.inst 0x0004 f w.peerSw.val 0x0A)
    (flowErrorAs f 0x0A 0x0B fun d => some (if d.cut = 0 then 0x0A
      else match d.fail, w.pkts.find? fun p => p.sn == d.sn with
        | some c, some p => if c.1 < p.off then c.2 else 0x0B
        | some c, none => c.2
        | none, _ => 0x0B)))

/-- A line of the region table or of the flow state area is uncorrectable (R144, R241). -/
def millAreaLost (o : Nat) : Prog := if o ≥ 0x40000000 then flowLost ((o - 0x40000000) / 65536) else regionLost (o / 64)

/-- The writes of placements that wait at the engines' ports are dropped, where a test picks their work items. -/
def placesDrop (p : Nat → Bool) : Prog := Prog.flood fun f => { f with
  waiting := (Tab.mapAll f.waiting fun _ l => l.filter fun w => match w with
    | .out (.busWrite _ _ _ _ (.place _ k)) => !p k
    | _ => true).filter fun e => !e.2.isEmpty }

/-- The hold limit of a function whose Bus Master Enable is clear has passed (R239, R285): its held placements are rejected with
BME_HOLD, BME_HOLD_EXPIRED says so, and every flow end of the instance enters ERROR. -/
def millBmeExpired (pt : PortId) (i : Fin 1024) : Prog := .look fun s =>
  let held := s.dev.mill.items.filter fun e => match e.2.work with
    | .place _ _ _ => e.2.inst == i && e.2.bus.isSome && s.writeHeld e.1 e.2
    | _ => false
  Prog.all [
    evWrite i 0x0007 0 0 0x10,
    Prog.opt (s.instPort i) fun p => Prog.ports fun v => { v with held := Tab.upd v.held (fnKey pt p.2) fun l => l.filter fun o =>
      match o with
      | .busWrite _ _ _ _ (.place _ _) => false
      | _ => true },
    placesDrop fun id => held.any fun e => e.1 == id,
    Prog.each held fun e => placeDone e.1 0x10,
    Prog.each (s.dev.mill.flows.filter fun e => e.2.inst == i) fun e => flowError e.1 0x10 fun _ => none]

end Sys2Proof.Machine
end

