-- ==== Sys2Proof/Machine/FabOps.lean ====
section
/-!
DEFINITION. Machine/FabOps.lean: the fabric: effective sets, reach advertisements, path loss and restoration, and how a fabric link is
admitted (R245-R264).
-/
namespace Sys2Proof.Machine

/-- The STATE of a group's fabric link: 0 DOWN, 1 TRAIN, 2 AUTH, 3 ADMIT, 4 UP, 5 FAIL (R258). -/
def State.fabState (s : State) (g : Fin 64) : Nat := s.fld (fabPort g) F.PRT_FAB_STAT_STATE

/-- Whether a fabric link is UP. -/
def State.fabUp (s : State) (g : Fin 64) : Bool := s.mode g == .f && s.fabState g == 4

/-- What a link's peer reaches: the last advertisement applied, or its own ID alone before the first (R254). -/
def State.peerReach (s : State) (g : Fin 64) : Nat :=
  if Tab.has s.dev.fab.advRx g.val then s.fld (fabPort g) F.PRT_FAB_STAT_PEER_REACH
  else 2 ^ s.fld (fabPort g) F.PRT_FAB_STAT_PEER_SW

/-- The effective set of a destination from the present inputs (R248); the switch's own entry is ignored (R247). -/
def State.effSet (s : State) (d : Fin 16) : Nat :=
  if d = s.swid then 0
  else ((maskGroups (s.fldn .root F.DEV_FAB_RT_MEMBERS d.val)).filter fun g => s.fabUp g && bitOf (s.peerReach g) d.val).foldl
    (fun m g => m ||| 2 ^ g.val) 0

/-- The reach mask a switch advertises on a link (R254): its own ID and every destination with another member. -/
def State.advContent (s : State) (g : Fin 64) : Nat :=
  (List.finRange 16).foldl (fun m d =>
    if d = s.swid ∨ maskDiff (s.fldn .root F.DEV_FAB_EFF_MEMBERS d.val) (2 ^ g.val) ≠ 0 then m ||| 2 ^ d.val else m) 0

/-- The fabric links that are UP. -/
def State.upLinks (s : State) : List (Fin 64) := (List.finRange 64).filter s.fabUp

/-- Send a reach advertisement on a link under the next sequence (R254, R255). -/
def advSend (g : Fin 64) : Prog := .look fun s =>
  let seq := Tab.getD s.dev.fab.advTx g.val 0 + 1
  let mask := s.advContent g
  Prog.seq (Prog.fab fun f => { f with advTx := Tab.put f.advTx g.val seq, advMask := Tab.put f.advMask g.val mask })
    (ctrlPut g (reachMsg (s.fld .root F.DEV_FAB_ID_FABRIC_ID) s.swid.val mask seq))

/-- A path-loss notice for a destination (R256): lost paths in the tracker (R127), the end of the snoops to its hosts (R190; no LOST bit, log entry 146), DEPARTED
mode and recovery in Millrace (R238), and EV098. -/
def pathLost (d : Fin 16) : Prog := Prog.all [
  raise 98 .root d.val,
  Prog.fab fun f => { f with lostDst := if f.lostDst.contains d.val then f.lostDst else f.lostDst ++ [d.val] },
  ortLose fun e => e.dstSw == some d,
  .look fun s => snoopsEndFor fun h => s.hostSw h == d,
  millPath d false]

/-- The path to a destination is restored (R256). -/
def pathRestored (d : Fin 16) : Prog := Prog.all [
  raise 99 .root d.val,
  Prog.fab fun f => { f with lostDst := f.lostDst.filter fun k => k != d.val },
  millPath d true]

/-- Recompute the effective set of one destination (R248, R256). -/
def effOne (d : Fin 16) : Prog := .look fun s =>
  let new := s.effSet d
  let old := s.fldn .root F.DEV_FAB_EFF_MEMBERS d.val
  Prog.all [
    Prog.setn .root F.DEV_FAB_EFF_MEMBERS d.val new,
    Prog.when (old != 0 && new == 0) (pathLost d),
    Prog.when (new != 0 && s.dev.fab.lostDst.contains d.val) (pathRestored d)]

/-- Recompute every effective set, and advertise what changed (R248, R254). -/
def effRecompute : Prog := Prog.all [
  Prog.each (List.finRange 16) effOne,
  .look fun s => Prog.set .root F.DEV_FAB_STAT_REACH ((List.finRange 16).foldl (fun m d =>
    if d = s.swid ∨ s.fldn .root F.DEV_FAB_EFF_MEMBERS d.val ≠ 0 then m ||| 2 ^ d.val else m) 0),
  .look fun s => Prog.each (s.upLinks.filter fun g => Tab.get? s.dev.fab.advMask g.val != some (s.advContent g)) advSend]

/-- A reach advertisement arrives (R255): applied on an UP link when its sequence exceeds the last one applied. -/
def advApply (g : Fin 64) (mask seq : Nat) : Prog := .look fun s =>
  let newer := match Tab.get? s.dev.fab.advRx g.val with | some q => decide (seq > q) | none => true
  Prog.when (s.fabUp g && newer) (Prog.seq
    (Prog.fab fun f => { f with advRx := Tab.put f.advRx g.val seq })
    (Prog.set (fabPort g) F.PRT_FAB_STAT_PEER_REACH mask))

/-- An SPDM message goes to the peer of a fabric link, as an IOTX packet for its X7 (R259). -/
def linkSpdm (g : Fin 64) (code : Nat) (data : List Nat) : Prog := xSend (XPort.int 7) .iotx (.spdm (129 + g.val) code data)

/-- Whether Headwater authenticates a link (R262): it stands in AUTH, and its turn has come. -/
def State.authNow (s : State) (g : Fin 64) : Bool := s.fabState g == 2 && s.dev.fab.auth.contains (g.val, true)

/-- The next link that waits in AUTH, where fewer than 8 are authenticated (R262) and the firmware is ready. -/
def State.authNext (s : State) : Option (Fin 64) :=
  if s.flag .root F.HW_STAT_READY && decide (((List.finRange 64).filter s.authNow).length < 8) then
    (s.dev.fab.auth.filterMap fun e => if e.2 then none else some (⟨e.1 % 64, Nat.mod_lt _ (by decide)⟩ : Fin 64)).find? fun g => s.fabState g == 2
  else none

/-- Begin the authentications whose turn has come (R259, R262): the end is a requester, and asks for the peer's versions first. -/
def authPump : Prog := Prog.loop 64 (fun s => s.authNext.isSome) (.look fun s => Prog.opt s.authNext fun g => Prog.seq
  (Prog.fab fun f => { f with auth := f.auth.map fun e => if e.1 = g.val then (e.1, true) else e })
  (linkSpdm g 0x84 []))

/-- A link enters AUTH (R258, R262): it takes its place behind those that wait there. -/
def authEnter (g : Fin 64) : Prog := .look fun s => Prog.all [
  Prog.set (fabPort g) F.PRT_FAB_STAT_STATE 2,
  Prog.hw fun h => { h with spdm := Tab.erase h.spdm (129 + g.val) },
  Prog.fab fun f => { f with
    passed := f.passed.filter fun n => n != g.val
    auth := f.auth.filter (fun e => e.1 != g.val && s.fabState ⟨e.1 % 64, Nat.mod_lt _ (by decide)⟩ == 2) ++ [(g.val, false)] },
  authPump]

/-- A link fails with a code (R262, R263): what it still had to say on CTRL is not said (R258). -/
def linkFail (g : Fin 64) (code : Nat) : Prog := Prog.all [
  Prog.set (fabPort g) F.PRT_FAB_STAT_STATE 5,
  Prog.set (fabPort g) F.PRT_FAB_STAT_FAIL_CODE code,
  Prog.fab fun f => { f with joining := Tab.erase f.joining g.val, early := Tab.erase f.early g.val },
  Prog.link fun k => { k with fl := Tab.upd k.fl g.val fun l => { l with ctrlQ := [] } },
  raise (if 4 ≤ code ∧ code ≤ 6 then 97 else 96) (fabPort g) code,
  authPump]

/-- A link is UP once the identity is accepted and CRINIT has passed both ways (R259, R333): EV095, and the first advertisement. -/
def admitCheck (g : Fin 64) : Prog := .look fun s => Prog.opt (Tab.get? s.dev.fab.joining g.val) fun a =>
  Prog.when (s.fabState g == 3 && a.identityOk && a.crinitSent && a.crinitRx) (Prog.all [
    Prog.set (fabPort g) F.PRT_FAB_STAT_STATE 4,
    Prog.fab fun f => { f with joining := Tab.erase f.joining g.val, advRx := Tab.erase f.advRx g.val },
    Prog.link fun k => { k with testing := k.testing.filter fun n => n != g.val },
    floodUp (groupX g),
    raise 95 (fabPort g) g.val,
    effRecompute,
    advSend g,
    millModes])

/-- The peer's identity message is checked (R261). -/
def identityTake (g : Fin 64) (m : IdMsg) : Prog := .look fun s =>
  let p := fabPort g
  if s.fabState g = 2 then Prog.fab fun f => { f with early := Tab.put f.early g.val m }
  else if s.fabState g ≠ 3 then .skip
  else if m.fabId.toNat ≠ s.fld .root F.DEV_FAB_ID_FABRIC_ID then linkFail g 4
  else if m.sw = s.swid then linkFail g 5
  else if s.flag p F.PRT_FAB_PEER_EN && (m.sw.val != s.fld p F.PRT_FAB_PEER_PEER_SW || m.grp.val != s.fld p F.PRT_FAB_PEER_PEER_GRP) then
    linkFail g 6
  else Prog.all [
    Prog.set p F.PRT_FAB_STAT_PEER_SW m.sw.val,
    Prog.set p F.PRT_FAB_STAT_PEER_GRP m.grp.val,
    Prog.when (m.mapGib.toNat != s.fld .root F.DEV_RSV_PART_MAP_GIB) (raise 102 p m.mapGib.toNat),
    Prog.fab fun f => { f with joining := Tab.upd f.joining g.val fun a => { a with identityOk := true } },
    admitCheck g]

/-- Whether a peer offers what a fabric link supports (R259): SPDM 1.3, ECDSA P-384, SHA-384. -/
def peerOffers (v : SpdmPeer) : Bool := v.versions.contains 0x13 && v.p384 && v.sha384

/-- What an end asks as requester after GET_VERSION, as far as the peer's answers let it go (R259): the capabilities and the algorithms; the digests and the chain of slot
0 in portions of 4,000 bytes; CHALLENGE with its nonce, and no measurement summary hash. -/
def authAsks (v : SpdmPeer) (c : SpdmChain) (trusted : Bool) (nonce : Nat) : List (Nat × List Nat) :=
  (if v.versions.contains 0x13 then [(0xE1, [0x02 + 0x04]), (0xE3, [0x80, 0x02])] else [])
    ++ (if peerOffers v then (0x81, []) :: (List.range (max 1 ((c.len + 3999) / 4000))).map fun i => (0x82, [0, 4000 * i, 4000]) else [])
    ++ (if peerOffers v && c.intact && c.groupUnit && trusted then [(0x83, [0, 0, nonce])] else [])

/-- Whether this end has answered its peer's CHALLENGE on a link (R259). -/
def State.linkProven (s : State) (g : Fin 64) : Bool := match Tab.get? s.dev.hw.spdm (129 + g.val) with
  | some c => c.challenged
  | none => false

/-- A link goes to ADMIT once both authentications have passed (R259, R261): each end sends CRINIT and its identity message. -/
def authAdmit (g : Fin 64) : Prog := .look fun s => Prog.when (s.authNow g && s.dev.fab.passed.contains g.val && s.linkProven g) (Prog.all [
  Prog.set (fabPort g) F.PRT_FAB_STAT_STATE 3,
  Prog.fab fun f => { f with
    joining := Tab.put f.joining g.val { identityOk := false, crinitSent := true, crinitRx := (s.flink g).crinit }
    early := Tab.erase f.early g.val
    passed := f.passed.filter fun n => n != g.val },
  crinitSend g,
  ctrlPut g (identityMsg (s.fld .root F.DEV_FAB_ID_FABRIC_ID) s.swid.val g.val (s.fld .root F.DEV_RSV_PART_MAP_GIB)),
  authPump,
  Prog.opt (Tab.get? s.dev.fab.early g.val) fun m => identityTake g m])

/-- This end's authentication of a link's peer has ended (R259-R261, R263): FAIL with the first code that applies, or ADMIT once the peer's of this end has passed too.
The peer's chain must hold, end in a root on the trust list, and name a group unit. -/
def authEnd (g : Fin 64) (version : SpdmPeer) (root : BitVec 384) (chain : SpdmChain) (signature : Bool) : Prog := .look fun s =>
  let trusted := s.dev.fab.trust.contains root
  Prog.when (s.authNow g) (Prog.free fun n => Prog.seq
    (Prog.each (authAsks version chain trusted ((Config.freeLine n).toNat % 2 ^ 256)) fun m => linkSpdm g m.1 m.2)
    (if !peerOffers version then linkFail g 1
    else if !chain.intact || !chain.groupUnit || !trusted then linkFail g 2
    else if !signature then linkFail g 3
    else Prog.seq (Prog.fab fun f => { f with passed := f.passed ++ [g.val] }) (authAdmit g)))

/-- AUTH_MS has passed before authentication and identity exchange ended (R262). -/
def authTimeout (g : Fin 64) : Prog := .look fun s =>
  let done := match Tab.get? s.dev.fab.joining g.val with | some a => a.identityOk | none => false
  Prog.when (s.fabState g == 2 || (s.fabState g == 3 && !done)) (linkFail g 7)

/-- FAB_LINK_RETRY (R262): a link in FAIL tries AUTH again; on any other link it succeeds without effect (log entry 42). -/
def linkRetry (h : Hdr) (g : Fin 64) : Prog := .look fun s => Prog.seq
  (Prog.when (s.fabState g == 5) (Prog.seq (Prog.set (fabPort g) F.PRT_FAB_STAT_FAIL_CODE 0) (authEnter g)))
  (reply h stOk [])

/-- A write of DEV_FAB_ID (R245): a change of SWID or FABRIC_ID is refused while a fabric group's link is neither DOWN nor FAIL. -/
def fabIdWrite (v : Nat) : Prog := .look fun s =>
  let changes := F.DEV_FAB_ID_SWID.part v != s.swid.val || F.DEV_FAB_ID_FABRIC_ID.part v != s.fld .root F.DEV_FAB_ID_FABRIC_ID
  let active := (List.finRange 64).any fun g => s.mode g == .f && s.fabState g != 0 && s.fabState g != 5
  if changes && active then raise 101 .root 0 else regStore .root .DEV_FAB_ID 0 v

/-- A write of DEV_FAB_RTn (R247). -/
def fabRtWrite (n v : Nat) : Prog := .look fun s =>
  if (maskGroups v).any fun g => s.mode g != .f then raise 101 .root n else regStore .root .DEV_FAB_RT n v

/-- FAB_TRUST_SET (R260): the whole list; more than 8 digests exceed it. -/
def trustSet (h : Hdr) (l : List (BitVec 384)) : Prog :=
  if l.length > 8 then reply h stLimit [] else Prog.seq (Prog.fab fun f => { f with trust := l }) (reply h stOk [])

/-- FAB_COMPLETE (R264). -/
def fabComplete (h : Hdr) : Prog := Prog.all [Prog.set .root F.DEV_FAB_STAT_READY 1, millModes, reply h stOk []]

end Sys2Proof.Machine
end

