-- ==== Sys2Proof/Machine/InsOps.lean ====
section
/-!
DEFINITION. Machine/InsOps.lean: instances: enabling, the mailbox, freeze, save, restore and reset; the Levee's rule writes (spec 10).
-/
namespace Sys2Proof.Machine

/-! ### Sides and enabling (R294, R297) -/

/-- Whether a port is a management port (R278). -/
def State.mgmt (s : State) (pt : PortId) : Bool := s.flag (.port pt) F.PRT_HCFG_MGMT

/-- Whether an access of a master to an instance block is on the instance side (R297); otherwise it is on the manager side. -/
def State.instSide (s : State) (m : Master) (i : Fin 1024) : Bool :=
  match m with
  | .hostFn pt fn => if fn.val = 0 then !s.mgmt pt && (s.instPort i).any fun p => p.1 == pt else s.vfInst pt fn.val == some i
  | _ => false

/-- Whether an instance's VF is enabled (R294). -/
def State.instEnabled (s : State) (i : Fin 1024) : Bool :=
  match s.instPort i with
  | some (pt, fn) => decide (fn ≤ Tab.getD s.dev.ports.numVfs pt.ix 0)
  | none => false

/-! ### The mailbox (R299-R301) -/

/-- Whether a FULL bit is set. -/
def State.full (s : State) (i : Fin 1024) (h2m : Bool) : Bool :=
  s.flag (.inst i) (if h2m then F.INS_MBX_DB_H2M_FULL else F.INS_MBX_DB_M2H_FULL)

/-- Send the mailbox vector of an instance (R300); one that is being reset masters nothing (R313). -/
def mbxVector (i : Fin 1024) : Prog := .look fun s => Prog.when (s.instState i != 3) (Prog.opt (s.instPort i) fun p =>
  msixSend (XPort.int 7) p.1 p.2 (s.fld (.inst i) F.INS_CFG_MBX_VEC))

/-- Whether any mailbox message is pending (DEV_MBX_PENDn). -/
def State.anyPending (s : State) : Bool := (List.finRange 1024).any fun i => s.full i true

/-- Set H2M_FULL (R299, R300): from the instance side only. -/
def h2mSet (m : Master) (i : Fin 1024) : Prog := .look fun s =>
  Prog.when (s.instSide m i && !s.full i true) (Prog.seq
    (Prog.set (.inst i) F.INS_MBX_DB_H2M_FULL 1) (Prog.when (!s.anyPending) (raise 118 (.inst i) i.val)))

/-- Clear H2M_FULL: from the manager side only; the mailbox vector is sent. -/
def h2mClear (m : Master) (i : Fin 1024) : Prog := .look fun s =>
  Prog.when (!s.instSide m i && s.full i true) (Prog.seq (Prog.set (.inst i) F.INS_MBX_DB_H2M_FULL 0) (mbxVector i))

/-- Set M2H_FULL: from the manager side only; the mailbox vector is sent. -/
def m2hSet (m : Master) (i : Fin 1024) : Prog := .look fun s =>
  Prog.when (!s.instSide m i && !s.full i false) (Prog.seq
    (Prog.set (.inst i) F.INS_MBX_DB_M2H_FULL 1) (mbxVector i))

/-- Clear M2H_FULL: from the instance side only. -/
def m2hClear (m : Master) (i : Fin 1024) : Prog := .look fun s =>
  Prog.when (s.instSide m i) (Prog.set (.inst i) F.INS_MBX_DB_M2H_FULL 0)

/-- A write of INS_MBX_DB: the instance side sets bit 0 and clears bit 1, the manager side sets bit 1 and clears bit 0 (R299). -/
def mbxDbWrite (m : Master) (i : Fin 1024) (v : Nat) : Prog := .look fun s =>
  if s.instSide m i then Prog.seq (Prog.when (bitOf v 0) (h2mSet m i)) (Prog.when (bitOf v 1) (m2hClear m i))
  else Prog.seq (Prog.when (bitOf v 0) (h2mClear m i)) (Prog.when (bitOf v 1) (m2hSet m i))

/-- A write of a mailbox slot word (R299): dropped and logged from the read-only side, and while the slot's FULL bit is 1. -/
def mbxWrite (m : Master) (i : Fin 1024) (h2m : Bool) (j v : Nat) : Prog := .look fun s =>
  if s.instSide m i ≠ h2m ∨ s.full i h2m = true then raise 119 (.inst i) j
  else Prog.setn (.inst i) (if h2m then F.INS_MBX_H2M_DATA else F.INS_MBX_M2H_DATA) j v

/-! ### Freeze (R302, R303) -/

/-- The flows of an instance. -/
def State.flowsOf (s : State) (i : Fin 1024) : Tab Flow := Tab.keep s.dev.mill.flows fun _ w => w.inst == i

/-- Whether a write is a completion entry of a function. -/
def Out.isCqe (o : Out) (pt : PortId) (fn : Nat) : Bool := match o with
  | .busWrite p f _ _ .cqe => p == pt && f == fn
  | _ => false

/-- Whether a completion entry of a function is unwritten: held while the function may not master, or waiting at an engine's port (R117, R284). -/
def State.cqeWaits (s : State) (pt : PortId) (fn : Nat) : Bool :=
  ((Tab.getD s.dev.ports.held (fnKey pt fn) []).any fun o => o.isCqe pt fn)
    || s.dev.flood.waiting.any fun e => e.2.any fun w => match w with
      | .out o => o.isCqe pt fn
      | _ => false

/-- Whether a freeze drain has nothing left to wait for (R303). -/
def State.drained (s : State) (i : Fin 1024) : Bool :=
  let fl := s.flowsOf i
  !(fl.any fun e => !e.2.descs.isEmpty || e.2.fetching)
    && !(s.dev.mill.items.any fun e => e.2.inst == i && e.2.work != .spent)
    && !((s.instRegions i).any fun e => e.2.closing)
    && !s.flag (.inst i) F.MRC_ICMD_CTL_BUSY
    && !((s.instPort i).any fun p => s.cqeWaits p.1 p.2)

/-- Let every flow of an instance go on. -/
def instPump (i : Fin 1024) : Prog := .look fun s => Prog.each (s.flowsOf i) fun e => flowPump e.1

/-- INS_FREEZE (R303, R311). -/
def insFreeze (h : Hdr) (i : Fin 1024) : Prog := .look fun s =>
  match s.instState i with
  | 1 => Prog.all [bgStart h 0x0303 (some (.inst i)) [], Prog.set (.inst i) F.INS_STAT_STATE 2, Prog.set (.inst i) F.INS_STAT_DRAINING 1]
  | 0 => reply h stUnavailable []
  | _ => reply h stBusy []

/-- Whether a freeze drain runs. -/
def State.freezing (s : State) (i : Fin 1024) : Bool := s.instState i == 2 && s.flag (.inst i) F.INS_STAT_DRAINING

/-- A freeze drain ends (R303). -/
def freezeEnd (i : Fin 1024) : Prog := .look fun s =>
  Prog.when (s.freezing i && s.drained i) (Prog.seq (Prog.set (.inst i) F.INS_STAT_DRAINING 0)
    (bgFinish 0x0303 (some (.inst i)) fun b => reply b.hdr stOk []))

/-- A freeze drain has not ended after DRAIN_MS (R303). -/
def freezeTimeout (i : Fin 1024) : Prog := .look fun s =>
  Prog.when (s.freezing i) (Prog.all [
    Prog.set (.inst i) F.INS_STAT_DRAINING 0, Prog.set (.inst i) F.INS_STAT_STATE 1,
    bgFinish 0x0303 (some (.inst i)) fun b => reply b.hdr stBusy [],
    raise 120 (.inst i) i.val,
    instPump i])

/-- INS_THAW (R302, R311). -/
def insThaw (h : Hdr) (i : Fin 1024) : Prog := .look fun s =>
  if s.freezing i then reply h stBusy []
  else if s.instState i ≠ 2 then reply h stInvalid []
  else Prog.all [Prog.set (.inst i) F.INS_STAT_STATE 1, Prog.set (.inst i) F.INS_STAT_SAVED 0, instPump i, reply h stOk []]

/-- Free the flow ends and the regions of an instance and forget its event queue. -/
def instEmpty (i : Fin 1024) : Prog := .look fun s =>
  Prog.all [
    Prog.each (s.instRegions i) fun e => regionFree e.1,
    Prog.mill fun m => { m with
      flows := Tab.keep m.flows fun _ w => w.inst != i
      items := Tab.keep m.items fun _ it => it.inst != i
      eqs := Tab.erase m.eqs i.val },
    clearU (.inst i)]

/-- INS_DISCARD (R302). -/
def insDiscard (h : Hdr) (i : Fin 1024) : Prog := .look fun s =>
  if s.freezing i then reply h stBusy []
  else if s.instState i ≠ 2 then reply h stInvalid []
  else Prog.all [instEmpty i, Prog.set (.inst i) F.INS_STAT_STATE 1, reply h stOk []]

/-! ### The saved image (R304-R307) -/

/-- CRC-32C over bytes. -/
def crc32c (l : List Byte) : Nat :=
  let step := fun (c : Nat) (b : Byte) =>
    (List.range 8).foldl (fun v _ => if v % 2 = 1 then (v / 2) ^^^ 0x82F63B78 else v / 2) (c ^^^ b.toNat)
  (l.foldl step 0xFFFFFFFF) ^^^ 0xFFFFFFFF

/-- Bytes of a list replaced from a place on. -/
def patch (l : List Byte) (at_ : Nat) (p : List Byte) : List Byte := l.take at_ ++ p ++ l.drop (at_ + p.length)

/-- The positions a flow keeps for a saved image: at or above the highest UNA received (R306). -/
def Flow.keeps (w : Flow) (seq : Nat) : Bool := !seqBelow seq w.hiUna

/-- A flow's record (R307). -/
def flowRecord (w : Flow) : List Byte :=
  let r := w.rings.getD { sqBase := 0, sqLog := 0, sqHead := 0, sqTail := 0, cqBase := 0, cqLog := 0, cqTail := 0, cqHead := 0, vec := 0,
                          phase := false }
  let map := (List.range 256).foldl (fun v j =>
    match Tab.get? w.rxRes ((w.rxB + j) % 2 ^ 24) with
    | some c => if c ≥ 1 then v + 2 ^ j else v
    | none => v) 0
  leBytes 2 0 ++ leBytes 2 w.slot ++ leBytes 1 w.fgen
    ++ leBytes 1 (b2n w.rings.isSome + b2n w.departed * 2 + b2n (!w.flushFail.isEmpty) * 4 + b2n w.err * 8)
    ++ leBytes 2 w.peerFlow ++ leBytes 1 w.peerSw.val ++ leBytes 1 r.sqLog ++ leBytes 2 r.cqLog
    ++ leBytes 2 r.sqHead ++ leBytes 2 r.sqTail ++ leBytes 2 r.cqTail ++ leBytes 2 r.cqHead
    ++ leBytes 2 (b2n r.phase) ++ leBytes 2 r.vec ++ leBytes 8 r.sqBase ++ leBytes 8 r.cqBase
    ++ leBytes 4 w.sndNxt ++ leBytes 4 w.srtt ++ leBytes 4 w.rttvar ++ leBytes 4 w.rxB ++ leBytes 32 map ++ leBytes 4 w.hiUna
    ++ leBytes 36 0

/-- A region record (R306). -/
def State.regionRecord (s : State) (ix : Nat) (r : Region) : List Byte :=
  let slot := match s.flow? r.flow with | some w => w.slot | none => 0
  leBytes 4 (s.regionKey ix)
    ++ leBytes 2 (b2n r.pool + b2n r.permW * 2 + b2n r.permR * 4 + b2n r.permA * 8 + b2n r.flowr * 16 + b2n r.dmg * 32)
    ++ leBytes 2 (if r.flowr then slot else 0) ++ leBytes 8 r.base ++ leBytes 8 r.len ++ leBytes 8 0

/-- The reject records of an instance (R306). -/
def State.rejectRecords (s : State) (i : Fin 1024) : List (List Byte) :=
  (s.flowsOf i).flatMap fun e => (e.2.rxRes.filter fun c => decide (c.2 ≥ 2) && e.2.keeps c.1).map fun c =>
    leBytes 2 e.2.slot ++ leBytes 3 c.1 ++ leBytes 3 c.2

/-- The atomic records of an instance (R306). -/
def State.atomRecords (s : State) (i : Fin 1024) : List (List Byte) :=
  (s.flowsOf i).flatMap fun e => (e.2.atoms.filter fun a => e.2.keeps a.seq).map fun a =>
    leBytes 2 e.2.slot ++ leBytes 3 a.seq ++ leBytes 3 a.status ++ leBytes 8 a.old.toNat

/-- The bytes of a mailbox slot. -/
def State.mbxBytes (s : State) (i : Fin 1024) (f : Fld) : List Byte :=
  (List.range 64).flatMap fun j => leBytes 4 (s.fldn (.inst i) f j)

/-- The image of an instance with its CRC field zero (R305). -/
def State.image0 (s : State) (i : Fin 1024) : List Byte :=
  let regs := (s.instRegions i).map fun e => s.regionRecord e.1 e.2
  let rej := s.rejectRecords i
  let ato := s.atomRecords i
  let fl := (s.flowsOf i).map fun e => flowRecord e.2
  let q := Tab.get? s.dev.mill.eqs i.val
  let qd := q.getD { base := 0, log := 0, vec := 0, head := 0, tail := 0, phase := false, lost := 0 }
  let len := 768 + 32 * regs.length + 8 * rej.length + 16 * ato.length + 128 * fl.length
  let head := [0x4E, 0x5A, 0x49, 0x4D] ++ leBytes 2 1 ++ leBytes 2 fl.length ++ leBytes 4 len ++ leBytes 4 0
    ++ leBytes 2 i.val ++ leBytes 1 s.swid.val
    ++ leBytes 1 (b2n (s.full i true) + b2n (s.full i false) * 2 + b2n q.isSome * 4 + b2n qd.phase * 8)
    ++ leBytes 4 regs.length ++ leBytes 4 rej.length ++ leBytes 4 ato.length ++ leBytes 8 qd.base ++ leBytes 2 qd.log
    ++ leBytes 2 qd.vec ++ leBytes 2 qd.head ++ leBytes 2 qd.tail ++ leBytes 8 qd.lost ++ leBytes 8 s.time
    ++ leBytes 2 (s.fld (.inst i) F.INS_CFG_MBX_VEC) ++ leBytes 190 0
  head ++ s.mbxBytes i F.INS_MBX_H2M_DATA ++ s.mbxBytes i F.INS_MBX_M2H_DATA
    ++ regs.flatten ++ rej.flatten ++ ato.flatten ++ fl.flatten

/-- The image of an instance (R305). -/
def State.image (s : State) (i : Fin 1024) : List Byte := patch (s.image0 i) 12 (leBytes 4 (crc32c (s.image0 i)))

/-- Write bytes to pool memory for Headwater, a line at a time. -/
def hwPoolWrite (item gpa : Nat) (l : List Byte) : Prog := Prog.each (spanLines gpa l.length) fun q => accTranslate {
  origin := .headwater item, op := if q.2.2.1 = 64 then .memWr else .memWrPtl, mv := .i, gpa := q.1 * 64,
  data := lineOf ((l.drop q.2.2.2).take q.2.2.1) q.2.1, mask := BitVec.ofNat 64 ((2 ^ q.2.2.1 - 1) * 2 ^ q.2.1),
  wtype := .priv, cmode := 0, epoch := 0, tgt := none, host := none, inst := none }

/-- INS_SAVE (R304, R311). -/
def insSave (h : Hdr) (i : Fin 1024) (buf : ImgBuf) (len : Nat) : Prog := .look fun s =>
  let img := s.image i
  let far := (s.flowsOf i).any fun e => e.2.rxRes.any fun c =>
    decide (c.2 ≥ 1) && !seqBelow c.1 e.2.rxB && decide (seqDiff c.1 e.2.rxB ≥ 256)
  let big := 32 * (s.instRegions i).length + 8 * (s.rejectRecords i).length + 16 * (s.atomRecords i).length > 64768
  if s.instState i = 3 ∨ s.freezing i = true then reply h stBusy []
  else if s.instState i ≠ 2 then reply h stInvalid []
  else if far ∨ big then reply h stLimit []
  else if len < img.length then reply h stInvalid []
  else Prog.all [
    (match buf with
      | .bus pt a => busWrite (XPort.int 7) pt 0 (.busWrite pt 0 a img .data)
      | .pool a => hwPoolWrite 3 a img),
    Prog.set (.inst i) F.INS_STAT_SAVED 1,
    raise 123 (.inst i) i.val,
    reply h stOk []]

/-! ### Restore (R308) -/

/-- A number of an image. -/
def imgNum (l : List Byte) (at_ n : Nat) : Nat := leNum ((l.drop at_).take n)

/-- The places of the parts of an image: regions, rejects, atomics, flows. -/
structure ImgPlan where
  nflow : Nat
  nreg : Nat
  nrej : Nat
  natom : Nat
  deriving DecidableEq, Repr

/-- The plan an image's header gives. -/
def imgPlan (l : List Byte) : ImgPlan :=
  { nflow := imgNum l 6 2, nreg := imgNum l 20 4, nrej := imgNum l 24 4, natom := imgNum l 28 4 }

/-- The length an image's header must give (R305). -/
def ImgPlan.len (p : ImgPlan) : Nat := 768 + 32 * p.nreg + 8 * p.nrej + 16 * p.natom + 128 * p.nflow

/-- The records of an image: regions, rejects, atomics and flows. -/
def imgRecs (l : List Byte) (at_ n size : Nat) : List (List Byte) := (List.range n).map fun k => (l.drop (at_ + k * size)).take size

/-- The region records. -/
def imgRegions (l : List Byte) : List (List Byte) := imgRecs l 768 (imgPlan l).nreg 32

/-- The reject records. -/
def imgRejects (l : List Byte) : List (List Byte) := imgRecs l (768 + 32 * (imgPlan l).nreg) (imgPlan l).nrej 8

/-- The atomic records. -/
def imgAtoms (l : List Byte) : List (List Byte) :=
  imgRecs l (768 + 32 * (imgPlan l).nreg + 8 * (imgPlan l).nrej) (imgPlan l).natom 16

/-- The flow records. -/
def imgFlows (l : List Byte) : List (List Byte) :=
  imgRecs l (768 + 32 * (imgPlan l).nreg + 8 * (imgPlan l).nrej + 16 * (imgPlan l).natom) (imgPlan l).nflow 128

/-- Whether the header and the CRC of an image are right (R305, R308): the CRC is taken with its own field and every NEW_FLOW as
zero. -/
def imgOk (l : List Byte) : Bool :=
  let p := imgPlan l
  let n := imgNum l 8 4
  let zeroed := (List.range p.nflow).foldl (fun m k => patch m (p.len - 128 * p.nflow + 128 * k) (leBytes 2 0))
    (patch (l.take n) 12 (leBytes 4 0))
  decide (imgNum l 0 4 = 0x4D495A4E) && decide (imgNum l 4 2 = 1) && decide (p.nflow ≤ 1024) && decide (n = p.len)
    && decide (n ≤ l.length) && decide (imgNum l 12 4 = crc32c zeroed)

/-- The region a record describes. -/
def recRegion (r : List Byte) (i : Fin 1024) (flow : Nat) : Region :=
  let b := imgNum r 4 1
  { v := true, closing := false, pool := bitOf b 0, permW := bitOf b 1, permR := bitOf b 2, permA := bitOf b 3, flowr := bitOf b 4,
    flow, inst := i, dmg := bitOf b 5, base := imgNum r 8 8, len := imgNum r 16 8, hdr := none, closedAt := 0, late := false }

/-- The flow end a record describes, with the rejects and atomics of its slot (R307). -/
def recFlow (r : List Byte) (i : Fin 1024) (rej ato : List (List Byte)) : Flow :=
  let fl := imgNum r 5 1
  let slot := imgNum r 2 2
  let b := imgNum r 52 3
  let map := imgNum r 56 32
  let ended := (List.range 256).foldl (fun t j => if bitOf map j then Tab.put t ((b + j) % 2 ^ 24) 1 else t) []
  let res := (rej.filter fun x => imgNum x 0 2 == slot).foldl (fun t x => Tab.put t (imgNum x 2 3) (imgNum x 5 1)) ended
  { inst := i, slot, peerSw := ⟨imgNum r 8 1 % 16, Nat.mod_lt _ (by decide)⟩, peerFlow := imgNum r 6 2, fgen := imgNum r 4 1,
    err := bitOf fl 3, departed := bitOf fl 1,
    rings := if bitOf fl 0 then some {
      sqBase := imgNum r 24 8, sqLog := imgNum r 9 1, sqHead := imgNum r 12 2, sqTail := imgNum r 14 2, cqBase := imgNum r 32 8,
      cqLog := imgNum r 10 1, cqTail := imgNum r 16 2, cqHead := imgNum r 18 2, vec := imgNum r 22 2,
      phase := bitOf (imgNum r 20 1) 0 } else none,
    descs := [], nextSn := 1, fetching := false, flushAs := 0x0D, sndNxt := imgNum r 40 3, pkts := [], srtt := imgNum r 44 4, rttvar := imgNum r 48 4,
    flushFail := if bitOf fl 2 then [0] else [], rxB := b, rxRes := res, hiUna := imgNum r 88 3, newEnds := [], ackDue := false,
    atoms := (ato.filter fun x => imgNum x 0 2 == slot).map fun x =>
      ⟨imgNum x 2 3, imgNum x 5 1, BitVec.ofNat 64 (imgNum x 8 8)⟩ }

/-- Whether an index of a saved region is free here, or held by the named source, which is FROZEN with SAVED = 1 (R308). -/
def State.regionTakeable (s : State) (ix : Nat) (src : Option (Fin 1024)) : Bool :=
  match Tab.get? s.dev.mill.regions ix, src with
  | none, _ => decide (1 ≤ ix) && decide (ix ≤ 16777215)
  | some r, some j => r.v && r.inst == j && s.instState j == 2 && s.flag (.inst j) F.INS_STAT_SAVED
  | some _, none => false

/-- Pass the POOL regions of an image through the Levee under the target's identity (R308). -/
def leveeImage (i : Fin 1024) (denied ok : Prog) : List (List Byte) → Prog
  | [] => ok
  | r :: rs =>
    let b := imgNum r 4 1
    let perms := (if bitOf b 1 then [Perm.w] else []) ++ (if bitOf b 2 then [Perm.r] else []) ++ (if bitOf b 3 then [Perm.a] else [])
    if bitOf b 0 then leveeSegs i perms (fun _ => denied) (leveeImage i denied ok rs) (imgNum r 8 8) (imgNum r 16 8 / 4096)
    else leveeImage i denied ok rs

/-- Install an image in its target (R308). -/
def imgInstall (i : Fin 1024) (l : List Byte) : Prog :=
  let flowOf := fun (slot : Nat) => match (imgFlows l).find? fun r => imgNum r 2 2 == slot with
    | some r => imgNum r 0 2
    | none => 0
  let fl := imgNum l 19 1
  Prog.all [
    Prog.each (imgFlows l) fun r => Prog.mill fun m => { m with
      flows := Tab.put m.flows (imgNum r 0 2) (recFlow r i (imgRejects l) (imgAtoms l))
      lastGen := Tab.put m.lastGen (imgNum r 0 2) (imgNum r 4 1) },
    Prog.each (imgRegions l) fun r =>
      let key := imgNum r 0 4
      Prog.seq (takeRegion (key / 256)) (Prog.mill fun m => { m with
        regions := Tab.put m.regions (key / 256) (recRegion r i (flowOf (imgNum r 6 2)))
        gens := Tab.setD m.gens 0 (key / 256) (key % 256) }),
    Prog.each (List.range 64) fun j => Prog.seq
      (Prog.setn (.inst i) F.INS_MBX_H2M_DATA j (imgNum l (256 + 4 * j) 4)) (Prog.setn (.inst i) F.INS_MBX_M2H_DATA j (imgNum l (512 + 4 * j) 4)),
    Prog.setB (.inst i) F.INS_MBX_DB_H2M_FULL (bitOf fl 0),
    Prog.setB (.inst i) F.INS_MBX_DB_M2H_FULL (bitOf fl 1),
    Prog.set (.inst i) F.INS_CFG_MBX_VEC (imgNum l 64 2),
    Prog.when (bitOf fl 2) (Prog.mill fun m => { m with eqs := Tab.put m.eqs i.val {
      base := imgNum l 32 8, log := imgNum l 40 1, vec := imgNum l 42 2, head := imgNum l 44 2, tail := imgNum l 46 2,
      phase := bitOf fl 3, lost := imgNum l 48 8 } }),
    Prog.set (.inst i) F.INS_STAT_STATE 2]

/-- The 4 KiB parts of a buffer at a bus address: each begins at an address and ends at a 4 KiB boundary or with the buffer. -/
def busParts (a len : Nat) : List (Nat × Nat) :=
  ((List.range (len / 4096 + 2)).map fun k =>
    let lo := max a ((a / 4096 + k) * 4096)
    (lo, min (a + len) ((a / 4096 + k + 1) * 4096) - lo)).filter fun p => decide (0 < p.2)

/-- Headwater reads a buffer at a bus address on a host port, as function 0, by tracked reads that have returned when the command goes on (R122, R470, log entry 149). -/
def busFetch (pt : PortId) (a len : Nat) : Prog := Prog.each (busParts a len) fun p => .look fun s => ortOpen (XPort.int 7)
  { kind := .headwater, op := .ioRead, tag := BitVec.ofNat 16 pt.ix, addr := p.1, len := p.2, inst := none, srcSw := s.swid }
  pt.x none (bitOf (s.fld .root F.DEV_EPOCH_CUR) 0) false .none .skip
  fun i g _ => Prog.seq (Prog.send (.busRead pt 0 (i, g) p.1 p.2)) (ortFree i)

/-- Headwater reads bytes of pool memory, a line at a time (log entry 149). -/
def hwPoolRead (item gpa len : Nat) : Prog := Prog.each (spanLines gpa len) fun q => accTranslate {
  origin := .headwater item, op := .memRd, mv := .i, gpa := q.1 * 64, data := 0, mask := 0,
  wtype := .priv, cmode := 0, epoch := 0, tgt := none, host := none, inst := none }

/-- The reads of the buffer that INS_RESTORE names (R302, R308). -/
def imgFetch (m : ImgRead) : Prog := match m.buf with
  | .bus pt a => busFetch pt a m.len.toNat
  | .pool a => hwPoolRead 4 a m.len.toNat

/-- What the reads of the buffer bring: its bytes, or the status of a read that fails; function 0 of a port that may not master reads nothing (R283, log entry 149). -/
def State.imageRead (s : State) (m : ImgRead) : Except Nat (List Byte) := match m.buf, m.data with
  | .bus pt _, some l => if s.bme pt 0 then .ok (l.take m.len.toNat) else .error stUnavailable
  | .bus _ _, none => .error stUnavailable
  | .pool _, some l => .ok (l.take m.len.toNat)
  | .pool _, none => .error stPoisoned

/-- Whether INS_RESTORE sends the reads of its buffer. -/
def State.imageSent (s : State) (m : ImgRead) : Bool := match m.buf with
  | .bus pt _ => s.bme pt 0
  | .pool _ => true

/-- Whether an instance is empty and ACTIVE, so that an image can be restored into it (R308). -/
def State.restoreInto (s : State) (i : Fin 1024) : Bool :=
  s.instState i == 1 && s.instFlows i == 0 && (s.instRegions i).isEmpty && !Tab.has s.dev.mill.eqs i.val && !s.full i true && !s.full i false

/-- INS_RESTORE of the bytes that the buffer held (R308): everything is checked before anything changes. A FULL bit that the image sets becomes 1 as R300 has it (log
entry 137). -/
def imgRestore (h : Hdr) (i : Fin 1024) (src : Option (Fin 1024)) (l : List Byte) : Prog := .look fun s =>
  let refuse := fun (st : Nat) => Prog.seq (raise 128 (.inst i) st) (reply h st [])
  let flowBad := (imgFlows l).any fun r =>
    decide (imgNum r 0 2 ≥ 16384) || (s.flow? (imgNum r 0 2)).isSome || Tab.get? s.dev.mill.lastGen (imgNum r 0 2) == some (imgNum r 4 1)
  let nums := (imgFlows l).map fun r => imgNum r 0 2
  if !imgOk l then refuse stInvalid
  else if flowBad || nums.eraseDups.length != nums.length then refuse stInvalid
  else if !((imgRegions l).all fun r => s.regionTakeable (imgNum r 0 4 / 256) src) then refuse stBusy
  else leveeImage i (refuse stDenied) (Prog.all [
    imgInstall i l,
    raise 121 (.inst i) i.val,
    Prog.when (bitOf (imgNum l 19 1) 0 && !s.anyPending) (raise 118 (.inst i) i.val),
    Prog.when (bitOf (imgNum l 19 1) 1) (mbxVector i),
    reply h stOk []]) (imgRegions l)

/-- INS_RESTORE (R302, R308, R311): the target's check, the reads of the named buffer, then the image. -/
def insRestore (h : Hdr) (i : Fin 1024) (src : Option (Fin 1024)) (m : ImgRead) : Prog := .look fun s =>
  let refuse := fun (st : Nat) => Prog.seq (raise 128 (.inst i) st) (reply h st [])
  if !s.restoreInto i then refuse stBusy
  else Prog.seq (Prog.when (s.imageSent m) (imgFetch m)) (match s.imageRead m with
    | .error st => refuse st
    | .ok l => imgRestore h i src l)

/-! ### Instance reset (R312, R313) -/

/-- Whether what waits at an internal port is a bus-master request for an instance: of its function, or the read of one of its work items. -/
def State.masters (s : State) (i : Fin 1024) (w : Wait) : Bool := match w with
  | .out (.busWrite pt fn _ _ _) | .out (.msix pt fn _ _ _) => s.vfInst pt fn == some i
  | .mill _ id => (Tab.get? s.dev.mill.items id).any fun it => it.inst == i
  | _ => false

/-- The bus-master requests for an instance that wait at the internal ports are not issued (R313). -/
def instUnsend (i : Fin 1024) : Prog := .look fun s => Prog.flood fun f => { f with
  waiting := (Tab.mapAll f.waiting fun _ l => l.filter fun w => !s.masters i w).filter fun e => !e.2.isEmpty }

/-- A region of a reset instance is revoked (R313 step 4): the manager's REGION_REVOKE that waits for it ends as well. -/
def resetRevoke (e : Nat × Region) : Prog := Prog.opt e.2.hdr fun h => Prog.seq
  (.eff (.bgDrop fun b => b.opcode == 0x0302 && b.args == [e.1])) (reply h stOk [])

/-- Start the reset of an instance (R311, R313 step 1); one that is resetting already goes on as it was. -/
def insResetStart (i : Fin 1024) : Prog := .look fun s =>
  if s.instState i = 3 ∨ s.instState i = 0 then .skip
  else Prog.all [
    bgFinish 0x0303 (some (.inst i)) fun b => reply b.hdr stUnavailable [],
    Prog.set (.inst i) F.INS_STAT_STATE 3,
    Prog.set (.inst i) F.INS_STAT_DRAINING 1,
    instUnsend i,
    Prog.each (s.instRegions i) fun e => Prog.mill fun m => { m with
      regions := Tab.upd m.regions e.1 fun r => { r with closing := true, closedAt := if r.closing then r.closedAt else s.time } },
    Prog.each ((s.flowsOf i).filter fun e => !e.2.err) fun e => engSend e.1 (s.millHdr e.1 e.2 .abort) [] none,
    Prog.each (List.range 64) fun j => Prog.seq
      (Prog.setn (.inst i) F.INS_MBX_H2M_DATA j 0) (Prog.setn (.inst i) F.INS_MBX_M2H_DATA j 0),
    Prog.set (.inst i) F.INS_MBX_DB_H2M_FULL 0,
    Prog.set (.inst i) F.INS_MBX_DB_M2H_FULL 0]

/-- T_DRAIN is over, or nothing remains (R313 step 3): OPEN entries of the instance are squashed, their pool writes poison their
lines, and placements not issued are dropped. -/
def insSquash (i : Fin 1024) : Prog := .look fun s =>
  if s.instState i ≠ 3 ∨ s.flag (.inst i) F.INS_STAT_DRAINING = false then .skip
  else
    let mine := s.dev.ort.entries.filter fun e => e.2.isOpen && e.2.info.inst == some i
    Prog.all [
      Prog.each mine fun e => Prog.seq
        (Prog.when e.2.info.op.isWrite (psnAdd (e.2.info.addr / 64) 1))
        (Prog.seq (ortQuar e.1 none) (Prog.ort fun o => { o with
          entries := Tab.upd o.entries e.1 fun v => { v with info := { v.info with inst := some 0x3FF } } })),
      Prog.mill fun m => { m with items := Tab.keep m.items fun _ it => it.inst != i },
      Prog.opt (s.instPort i) fun p => Prog.ports fun v => { v with held := Tab.erase v.held (fnKey p.1 p.2) },
      Prog.set (.inst i) F.INS_STAT_DRAINING 0,
      Prog.ports fun v => { v with squashed := Tab.put v.squashed i.val mine.length }]

/-- The reset of an instance completes (R313 steps 4, 5): flow ends FREE, regions revoked, rings and event queue forgotten, U fields
clear; ACTIVE, or DISABLED under R294; EV122 with the counts of squashed entries and of flows. -/
def insResetDone (i : Fin 1024) : Prog := .look fun s =>
  if s.instState i ≠ 3 ∨ s.flag (.inst i) F.INS_STAT_DRAINING = true then .skip
  else
    let n := Tab.getD s.dev.ports.squashed i.val 0
    Prog.all [
      instEmpty i,
      Prog.each (s.instRegions i) resetRevoke,
      Prog.opt (s.instPort i) fun p => Prog.ports fun v => { v with
        vfBme := v.vfBme.filter fun k => k != fnKey p.1 p.2
        held := Tab.erase v.held (fnKey p.1 p.2)
        msix := Tab.keep v.msix fun k _ => k / 8192 != fnKey p.1 p.2
        msixPend := v.msixPend.filter fun k => k / 8192 != fnKey p.1 p.2 },
      Prog.ports fun v => { v with squashed := Tab.erase v.squashed i.val },
      Prog.set (.inst i) F.INS_STAT_STATE (if s.instEnabled i then 1 else 0),
      raise 122 (.inst i) (n * 2 ^ 32 + s.instFlows i),
      bgFinishAll 0x0309 (some (.inst i)) fun b => reply b.hdr stOk []]

/-- INS_RESET (R302, R312). -/
def insReset (h : Hdr) (i : Fin 1024) : Prog := .look fun s =>
  if s.instState i = 0 then reply h stUnavailable []
  else Prog.seq (bgStart h 0x0309 (some (.inst i)) []) (insResetStart i)

/-- The host sets or clears VF Enable, or changes NumVFs (R294): instances that enter the range become ACTIVE, those that leave it are
reset. -/
def vfEnable (pt : PortId) (n : Nat) : Prog := .look fun s =>
  let base := s.fld (.port pt) F.PRT_HCFG_INST_BASE
  let lim := s.fld (.port pt) F.PRT_HCFG_NUM_VFS
  Prog.seq (Prog.ports fun v => { v with numVfs := Tab.setD v.numVfs 0 pt.ix (min n lim) })
    (Prog.each (List.range lim) fun k => Prog.opt (fin? 1024 (base + k)) fun i =>
      if k < n then Prog.when (s.instState i == 0) (Prog.set (.inst i) F.INS_STAT_STATE 1)
      else insResetStart i)

/-! ### The Levee's rules (R320) -/

/-- A write of a rule's BASE or LIMIT is held for its next CTL write. -/
def leveeRange (n : Nat) (limit : Bool) (v : Nat) : Prog := .look fun s =>
  if s.fldn .root F.LEV_RULE_CTL_LOCK n = 1 then raise 127 .root n
  else Prog.io fun i => if limit then { i with ruleLimit := Tab.put i.ruleLimit n v } else { i with ruleBase := Tab.put i.ruleBase n v }

/-- A write of a rule's CTL: the rule changes together with its held range; a reserved ACTION or SPACE refuses the write and discards what
is held (R14). -/
def leveeCtl (n v : Nat) : Prog := .look fun s =>
  let drop := Prog.io fun i => { i with ruleBase := Tab.erase i.ruleBase n, ruleLimit := Tab.erase i.ruleLimit n }
  if s.fldn .root F.LEV_RULE_CTL_LOCK n = 1 then raise 127 .root n
  else if bits v 40 39 = 3 ∨ bits v 35 34 = 3 then Prog.seq drop (raise 0 .root n)
  else Prog.all [
    Prog.opt (Tab.get? s.dev.io.ruleBase n) fun b => regStore .root .LEV_RULE_BASE n b,
    Prog.opt (Tab.get? s.dev.io.ruleLimit n) fun b => regStore .root .LEV_RULE_LIMIT n b,
    drop,
    regStore .root .LEV_RULE_CTL n v]

end Sys2Proof.Machine
end

