-- ==== Sys2Proof/Machine/CrossOps.lean ====
section
/-!
DEFINITION. Machine/CrossOps.lean: registers outside the core domain: their domains (R386), writes on their way into one (R387-R391),
and registers of a domain without a clock (R393).
-/
namespace Sys2Proof.Machine

/-- The clock domain of a register (R386). -/
inductive Domain where
  | core | headwater | aon | rsv | slotDie
  | grp (g : Fin 64)
  deriving DecidableEq, Repr

/-- The group a unit lies in. -/
def unitGroup : UnitId → Option (Fin 64)
  | .group g => some g
  | .port pt => some pt.g
  | .lane ln => some ln.port.g
  | _ => none

/-- The group TX domain of a unit's group. -/
def grpDomain (u : UnitId) : Domain := match unitGroup u with
  | some g => .grp g
  | none => .core

/-- The domain of a unit's Gauge registers (R386). -/
def gaugeDomain : UnitId → Domain
  | .stack _ | .pc _ _ => .rsv
  | .slot _ => .slotDie
  | .lane ln => .grp ln.port.g
  | _ => .core

/-- The domain of a register (R386). -/
def regDomain (u : UnitId) (id : RegId) : Domain :=
  match id with
  | .HW_STAT | .HW_FW_VER | .HW_WDT | .HW_DBG_CTL | .HW_RING_CBASE | .HW_RING_RBASE | .HW_RING_CFG | .HW_RING_CTAIL
  | .HW_RING_RHEAD | .DEV_TIME => .headwater
  | .DEV_WS_HIST_W | .DEV_WS_HEAD | .DEV_RST_CAUSE | .DEV_RAIL_STAT | .DEV_CLK_STAT | .DEV_STRAP => .aon
  | .RSV_SCRUB_CTL | .RSV_CE_CTL | .RSV_MB_STAT | .RSV_SCRUB_POS | .RSV_SCRUB_LAP | .RSV_ECC_CNT | .RSV_CE_LOST
  | .RSV_CE_ROW => .rsv
  | .SLT_CFG | .SLT_ILIM | .SLT_TIME | .SLT_VTHR | .SLT_THM | .SLT_TAU | .SLT_TLIM | .SLT_NTC | .SLT_CMD | .SLT_STAT | .SLT_MEAS
  | .SLT_CNT => .slotDie
  | .LN_TXEQ | .LN_RXEQ | .LN_RXDFE | .LN_CAL_FAC | .LN_CAL_USR | .LN_STAT | .LN_ERR | .LN_MRG_CTL | .LN_MRG_RES | .GRP_FC_CFG
  | .GRP_FC_STAT | .GRP_LTEST => grpDomain u
  | .GAU_CTL | .GAU_OVF | .GAU_IVL | .GAU_CNT | .GAU_SNAP | .GAU_EVSEL | .GAU_SLOT | .GAU_SLOT_SNAP => gaugeDomain u
  | _ => .core

/-- Whether a group's PHY domain is on and its mode not OFF, so that it has clocks (R381). -/
def State.grpClocked (s : State) (g : Fin 64) : Bool := s.mode g != .off && bitOf (s.fld .root F.DEV_PD_STAT_GRP_ON) g.val

/-- Whether a domain has a clock (R381, R393). -/
def State.clocked (s : State) : Domain → Bool
  | .grp g => s.grpClocked g
  | _ => true

/-- The address of a register of a unit. -/
def regAddr (u : UnitId) (id : RegId) (n : Nat) : Nat :=
  unitBase u + (regSpec (unitClass u) id).off + n * (regSpec (unitClass u) id).stride

/-- Whether a write of a register is in flight (R388). -/
def State.inFlight (s : State) (u : UnitId) (id : RegId) (n : Nat) : Bool := Tab.has s.dev.io.crossing (regAddr u id n)

/-- The register an address of the unit register space lies in, and its entry. -/
def regOfAddr (a : Nat) : Option (UnitId × RegId × Nat) :=
  match unitAt a with
  | none => none
  | some (u, off) => (regsOf (unitClass u)).findSome? fun r => (r.hit off).map fun h => (u, r.id, h.1)

/-- The address under which the halves and the crossing of a ring register of a management port are kept (R277). -/
def ringAddr (pt : PortId) (r : RegSpec) : Nat := 0x20000000 + pt.ix * 0x1000 + r.off

/-- The ring register that an address stands for. -/
def ringOfAddr (a : Nat) : Option (PortId × RegSpec) :=
  if a < 0x20000000 then none
  else (allPorts.find? fun pt => pt.ix == (a - 0x20000000) / 0x1000).bind fun pt =>
    (regsRing.find? fun r => r.off == (a - 0x20000000) % 0x1000).map fun r => (pt, r)

/-- The domain of the register at an address: the ring registers are Headwater's (R386). -/
def addrDomain (a : Nat) : Domain :=
  if 0x20000000 ≤ a then .headwater
  else match regOfAddr a with
    | some (u, id, _) => regDomain u id
    | none => .core

/-- Whether a write of any register of a domain is in flight or held in a shadow: its bit of DEV_CDC_PEND (R390). -/
def State.domainPend (s : State) (p : Domain → Bool) : Bool := s.dev.io.crossing.any fun e => p (addrDomain e.1)

/-! ### Settings a register refuses -/

/-- FS: 64 in mode F, 63 in modes H and M (R371). -/
def State.fullScale (s : State) (g : Fin 64) : Nat := if s.mode g == .f then 64 else 63

/-- The highest preset LN_TXEQ.PRESET names: 7 in mode F, 10 in modes H and M (R372, R373). -/
def State.presetTop (s : State) (g : Fin 64) : Nat := if s.mode g == .f then 7 else 10

/-- Whether a write of LN_TXEQ leaves too small a main cursor (R371). It is judged on PRE and POST as R551 brings them into their ranges (log entry 119). -/
def State.txEqRefuses (s : State) (g : Fin 64) (v : Nat) : Bool :=
  decide (s.fullScale g < F.LN_TXEQ_PRE.bring (F.LN_TXEQ_PRE.part v) + F.LN_TXEQ_POST.bring (F.LN_TXEQ_POST.part v) + (if s.mode g == .f then 24 else 21))

/-- Whether a code is in the table of R496. -/
def gaugeCode (code : Nat) : Bool := isVolume code || (0x40 ≤ code && code ≤ 0x48)

/-- Whether GAU_EVSELj refuses a value: a code the table does not list, or a volume code on an odd counter (R496, R497). -/
def evselRefuses (j v : Nat) : Bool := !gaugeCode (v % 256) || (isVolume (v % 256) && j % 2 == 1)

/-- The event that logs the refusal of a write, by the register's chapter (R14, R74, R268, R293, R417, R512). -/
def refuseEvent : RegId → Nat
  | .PRT_WIN_BASE | .PRT_WIN_SIZE | .PRT_WIN_CTL | .PRT_WIN_GPA => 40
  | .DEV_FAB_ID | .DEV_FAB_CFG | .DEV_FAB_RT | .PRT_FAB_PEER => 101
  | .GRP_CFG | .PRT_HCFG | .PRT_MCFG => 115
  | .SLT_CFG | .SLT_ILIM | .SLT_TIME | .SLT_VTHR | .SLT_THM | .SLT_TAU | .SLT_TLIM | .SLT_NTC => 164
  | .GAU_EVSEL | .GAU_SMP_RING => 199
  | _ => 0

/-- Bring a lane's preset into the range of its group's mode (R372, R373, R551). -/
def presetBring (ln : LaneId) : Prog := .look fun s =>
  let top := s.presetTop ln.port.g
  Prog.when (decide (top < s.fld (.lane ln) F.LN_TXEQ_PRESET)) (Prog.set (.lane ln) F.LN_TXEQ_PRESET top)

/-- Store the class N fields of a write to a domain without a clock (R393). -/
def keptStore (u : UnitId) (id : RegId) (n v : Nat) : Prog :=
  Prog.each ((regSpec (unitClass u) id).fields.filter fun f => (f.acc == .rw || f.acc == .rwl) && f.keep == .N) (fldStore u n v)

/-- A write to a domain without a clock (R393): class N fields go to the group's configuration shadow, brought into their ranges; what the
register refuses in any state is refused here too (R14, R371, R496). -/
def unclockedWrite (u : UnitId) (id : RegId) (n v : Nat) : Prog :=
  match id, u with
  | .LN_TXEQ, .lane ln => .look fun s =>
      Prog.when (!s.txEqRefuses ln.port.g v) (Prog.seq (keptStore u id n v) (presetBring ln))
  | .GAU_EVSEL, _ => if evselRefuses n v then raise 199 u n else keptStore u id n v
  | _, _ => if regLegal (regSpec (unitClass u) id) v then keptStore u id n v else raise (refuseEvent id) u n

/-! ### Writes in flight -/

/-- The place whose shadow is the next that a domain takes: the oldest (R389), once nothing of its register is in flight. -/
def State.crossNext (s : State) (d : Domain) : Option (Nat × Nat) :=
  (s.dev.io.order.find? fun a => addrDomain a == d).bind fun a => (Tab.get? s.dev.io.crossing a).bind fun c =>
    if c.flight then none else c.shadow.map fun v => (a, v)

/-- Whether a write of the register at an address is taken at once: nothing of it is in flight, and no shadow of its domain waits (R388, R389). -/
def State.crossFree (s : State) (a : Nat) : Bool :=
  !Tab.has s.dev.io.crossing a && !s.dev.io.order.any fun b => addrDomain b == addrDomain a

/-- A write of the register at an address crosses into its domain (R388, R389): where nothing of the register is in flight and no older write of the domain
waits, the domain takes it now, and `take` says what it does; it is in flight until its acknowledge. Else it waits in the register's shadow, behind the
other shadows of its domain, and reads return it at once; one that it replaces there may let `pump` take those behind. -/
def crossAt (a v : Nat) (take pump : Prog) : Prog := .look fun s =>
  if s.crossFree a then Prog.seq (Prog.io fun i => { i with crossing := Tab.put i.crossing a { flight := true, shadow := none, kept := none } }) take
  else Prog.seq (Prog.io fun i => { i with
      crossing := Tab.put i.crossing a { flight := (Tab.get? i.crossing a).any Crossing.flight, shadow := some v, kept := some v }
      order := i.order.filter (fun b => b != a) ++ [a] }) pump

/-- The shadows that wait in a domain are taken in the order of their writes, as far as nothing is in flight ahead of them (R388, R389). -/
def crossPump (take : Nat → Nat → Prog) (d : Domain) : Prog := .look fun s =>
  Prog.loop s.dev.io.order.length (fun t => (t.crossNext d).isSome) (.look fun t => Prog.opt (t.crossNext d) fun e => Prog.seq
    (Prog.io fun i => { i with
      crossing := Tab.put i.crossing e.1 { flight := true, shadow := none, kept := none }
      order := i.order.filter fun b => b != e.1 })
    (take e.1 e.2))

/-- A write of a register (R386-R389, R393): the core domain takes it at once, a domain without a clock as R393 says, and any other when it has crossed. -/
def crossWrite (u : UnitId) (id : RegId) (n v : Nat) (take pump : Prog) : Prog := .look fun s =>
  if regDomain u id = .core then take
  else if !s.clocked (regDomain u id) then unclockedWrite u id n v
  else crossAt (regAddr u id n) v take pump

/-- The domain of the register at an address refuses a write (R387): the value in effect stands, and reads return the refused one until the acknowledge. -/
def crossRefuseAt (a v : Nat) : Prog := Prog.io fun i => { i with crossing := Tab.upd i.crossing a fun c => { c with kept := some v } }

/-- The register's domain refuses a write (R387). -/
def crossRefuse (u : UnitId) (id : RegId) (n v : Nat) : Prog := crossRefuseAt (regAddr u id n) v

/-- Abandon the crossings into the domain of a group that loses its clock (R393): a value that waits in a shadow is in the register path, and is
kept as a write without a clock. -/
def crossAbandon (g : Fin 64) : Prog := .look fun s =>
  let own := fun (a : Nat) => match unitAt a with
    | some (u, _) => unitGroup u == some g
    | none => false
  Prog.seq (Prog.io fun i => { i with
      crossing := Tab.keep i.crossing fun a _ => !own a
      order := i.order.filter fun a => !own a })
    (Prog.each (Tab.keep s.dev.io.crossing fun a _ => own a) fun e => Prog.opt e.2.shadow fun v =>
      Prog.opt (regOfAddr e.1) fun r => unclockedWrite r.1 r.2.1 r.2.2 v)

end Sys2Proof.Machine
end

