-- ==== Sys2Proof/Machine/LinkOps.lean ====
section
/-!
DEFINITION. Machine/LinkOps.lean: the fabric link layer as a receiver: flits, ACK and NAK, credits, CTRL messages, replay, stomping
(R325-R346), a link that goes down (R347), and pause, retrain and resume (R348-R351).
-/
namespace Sys2Proof.Machine

/-! ### Flits received (R323-R325) -/

/-- The CRC-64 of flit bytes 0-503. -/
def flitCrc (w : BitVec 4096) : Nat :=
  crc64 (w.toNat % 2 ^ 4032)

/-- Whether a flit's CRC is good. -/
def flitGood (w : BitVec 4096) : Bool := flitCrc w == w.toNat / 2 ^ 4032

/-- Payload slot k of a flit (R323). -/
def flitSlot (w : BitVec 4096) (k : Nat) : BitVec 128 := BitVec.ofNat 128 (w.toNat / 2 ^ (128 * k))

/-- The header of a flit (R324). -/
def flitHead (w : BitVec 4096) : Nat := w.toNat / 2 ^ 3968 % 2 ^ 64

/-! ### A link that goes down (R347) -/

/-- The link goes down: the Eddy, credits and CTRL state are discarded, its queues flushed and its paths lost, and it leaves the
effective sets; it comes up again through TRAIN and AUTH. -/
def linkDown (g : Fin 64) : Prog := .look fun s =>
  let p := fabPort g
  Prog.when (s.fabState g != 0) (Prog.all [
    Prog.when (decide ((s.flink g).left > 0)) (slotWaste p (s.flink g).counted),
    Prog.link fun k => { k with
      fl := Tab.erase k.fl g.val
      tx := Tab.erase k.tx g.val
      train := Tab.erase k.train g.val },
    Prog.each [F.PRT_FL_STAT_PHASE, F.PRT_FL_STAT_EXP_SEQ, F.PRT_FL_STAT_NXT_SEQ, F.PRT_FL_STAT_WIDTH, F.PRT_FL_STAT_DISCARD,
      F.PRT_FL_CRED_CTRL_CR, F.PRT_FL_CRED_SH_CR, F.PRT_FAB_STAT_STATE, F.PRT_FAB_STAT_FAIL_CODE] fun f => Prog.set p f 0,
    Prog.set (.group g) F.GRP_FC_STAT_TSTEP 0,
    Prog.fab fun f => { f with
      joining := Tab.erase f.joining g.val
      early := Tab.erase f.early g.val },
    floodDown (groupX g),
    effRecompute,
    authPump])

/-- A link protocol error (R346). -/
def linkError (g : Fin 64) : Prog := Prog.seq (raise 134 (fabPort g) 0) (linkDown g)

/-! ### Replay (R338, R340, R341) -/

/-- Retransmit the stored flits in order, with the current ACK and NAK; when the oldest has been retransmitted REPLAY_MAX times already, the
link goes down. -/
def replayAll (g : Fin 64) (ack : Nat) : Prog := .look fun s =>
  let p := fabPort g
  let l := s.flink g
  match l.eddy with
  | [] => .skip
  | o :: _ =>
    if s.fld p F.PRT_FL_CFG_REPLAY_MAX ≤ o.retx then Prog.seq (raise 132 p 0) (linkDown g)
    else
      let cur := fun (f : TxFlit) => { f with ack := (s.fld p F.PRT_FL_STAT_EXP_SEQ + 4095) % 4096, nak := l.nak }
      let n := l.eddy.length
      Prog.all [
        raise 131 p n,
        Prog.each l.eddy fun e => flitOut g (cur e.flit).header e.flit.slots,
        Prog.add p F.PRT_FL_RPL_FLITS n,
        gauge p 0x05 none n,
        slotAdd p 1 (31 * n),
        flinkUpd g fun l => { l with
          eddy := l.eddy.map fun e => { e with retx := e.retx + 1 }
          replay := some (ack, s.time) }]

/-- The rest of a step, unless the link has gone down. -/
def ifUp (g : Fin 64) (k : Prog) : Prog := .look fun s => if s.flPhase g = 0 then .skip else k

/-- Use an ACK (R337, R338): it frees the flits it covers; one outside the window is a protocol error. -/
def ackFree (g : Fin 64) (ack : Nat) (k : Prog) : Prog := .look fun s =>
  let l := s.flink g
  let oldest := match l.eddy with
    | e :: _ => e.flit.seq
    | [] => s.fld (fabPort g) F.PRT_FL_STAT_NXT_SEQ
  let n := (ack + 1 + 4096 - oldest) % 4096
  if l.eddy.length < n then linkError g
  else Prog.seq (Prog.when (decide (n > 0)) (flinkUpd g fun l => { l with
      eddy := l.eddy.drop n
      ackAt := s.time })) k

/-- Use ACK and NAK of a flit (R340): a NAK starts a replay, unless one for the same ACK has run for less than ACK_TMO. -/
def ackNak (g : Fin 64) (ack : Nat) (nak : Bool) (k : Prog) : Prog := ackFree g ack (.look fun s =>
  let l := s.flink g
  let recent := match l.replay with
    | some (a, t) => a == ack && decide (s.time < t + s.fld (fabPort g) F.PRT_FL_CFG_ACK_TMO * 10)
    | none => false
  Prog.all [
    Prog.when (nak && !l.eddy.isEmpty && !recent) (Prog.seq (Prog.add (fabPort g) F.PRT_FL_RPL_NAK_RX 1) (replayAll g ack)),
    ifUp g (linkPump g),
    ifUp g k])

/-- The peer's ACK has not advanced for ACK_TMO (R341): a replay from the oldest stored flit. -/
def ackTimeout (g : Fin 64) : Prog := .look fun s =>
  let p := fabPort g
  let l := s.flink g
  match l.eddy with
  | [] => .skip
  | o :: _ => Prog.when (s.flSends g) (Prog.seq (replayAll g ((o.flit.seq + 4095) % 4096))
    (Prog.when (s.fld p F.PRT_FL_CFG_REPLAY_MAX > o.retx) (flinkUpd g fun l => { l with ackAt := s.time })))

/-! ### Refused flits (R339, R343, R345) -/

/-- The class of a packet in reception. -/
def RxPkt.cls (r : RxPkt) : Cls := allCls.getD (bits r.hdr.toNat 3 1) .rmab

/-- The cells of a packet in reception (R329). -/
def rxCellCount (hdr : BitVec 128) : Nat := (bits hdr.toNat 28 20 + 7) / 8

/-- Whether every packet of its class that the link carried before the packet in reception has left the receive pool, so that an incomplete packet of the class in the
queues is this one. -/
def FLink.rxOwn (l : FLink) (r : RxPkt) : Bool := decide ((l.rxPool.filter fun e => e.1 == r.cls.num).length ≤ rxCellCount r.hdr)

/-- A refused flit stomps the copies of the packet in reception: what an egress has begun is completed and marked, what it has not begun is not sent, and the packet is
forwarded again whole, as new cells, when it is complete (R120, R343, R345). A cell whose credit has gone back earns none as it comes again (R335). A packet whose last cell
was accepted, or that is discarded at its ingress, is left alone. -/
def stompCopies (g : Fin 64) : Prog := .look fun s => Prog.opt (s.flink g).rxCur fun r =>
  let k := qKey (groupX g) r.cls
  let kept := (waitTail (Tab.getD s.dev.flood.waiting k [])).length
  Prog.when (decide (r.handed > 0) && !s.dev.flood.dropRest.contains k) (Prog.seq
    (dropLast (groupX g) r.cls ((s.flink g).rxOwn r) .skip)
    (flinkUpd g fun l => { l with
      rxCur := l.rxCur.map fun q => { q with handed := 0 }
      rxPaid := Tab.setD l.rxPaid 0 r.cls.num (Tab.getD l.rxPaid r.cls.num 0 + (r.handed - kept)) }))

/-- A flit is refused (R339): in RUN the receiver stomps and enters DISCARD; `nak` asks for a replay. -/
def flitRefuse (g : Fin 64) (nak : Bool) : Prog := .look fun s =>
  let p := fabPort g
  let inDiscard := s.flag p F.PRT_FL_STAT_DISCARD
  Prog.all [
    Prog.when (!inDiscard) (Prog.all [stompCopies g, Prog.set p F.PRT_FL_STAT_DISCARD 1,
      Prog.when nak (Prog.add p F.PRT_FL_RPL_NAK_TX 1)]),
    Prog.when nak (flinkUpd g fun l => { l with nak := true }),
    Prog.when (s.flPhase g != 3) (nullFlit g)]

/-! ### Accepted flits -/

/-- Returned credits (R333, R334, R336). The shared pool's returns go to its packets in the order they were charged. -/
def sharedBack : List (Bool × Nat) → Nat → List (Bool × Nat)
  | [], _ => []
  | (b, m) :: l, n => if m ≤ n then sharedBack l (n - m) else (b, m - n) :: l

/-- Take a return of n cells to a pool, and CTRL credits. -/
def creditTake (g : Fin 64) (pool n ctrl : Nat) : Prog := .look fun s =>
  let p := fabPort g
  Prog.all [
    (if pool = 7 then Prog.seq (Prog.set p F.PRT_FL_CRED_SH_CR (min 1023 (s.fld p F.PRT_FL_CRED_SH_CR + n)))
        (flinkUpd g fun l => { l with shared := sharedBack l.shared n })
      else flinkUpd g fun l => { l with
        cred := Tab.put l.cred pool (Tab.getD l.cred pool 0 + n)
        charged := Tab.put l.charged pool (Tab.getD l.charged pool 0 - n) }),
    Prog.set p F.PRT_FL_CRED_CTRL_CR (min 16 (s.fld p F.PRT_FL_CRED_CTRL_CR + ctrl))]

/-- A CTRL message in its announced slot (R331, R346): it is held until it is processed, which returns its credit (`ctrlDone`); an unknown type is discarded, and its
credit returned. -/
def ctrlTake (g : Fin 64) (m : BitVec 128) (k : Prog) : Prog := .look fun s =>
  if (s.flink g).retCtrl + (s.flink g).ctrlHeld.length ≥ 16 then linkError g
  else
    let ty := m.toNat % 256
    Prog.seq (if 0x20 ≤ ty ∧ ty ≤ 0x24 then Prog.seq (flinkUpd g fun l => { l with ctrlHeld := l.ctrlHeld ++ [m] }) (Prog.send (.ctrlIn g m))
        else Prog.seq (flinkUpd g fun l => { l with retCtrl := l.retCtrl + 1 }) (raise 133 (fabPort g) ty))
      k

/-- The tag of cell i of a packet (R99, R329): class, SOP, EOP, EPAR, PSN, ORTX, the ingress port and the valid bytes. -/
def rxTag (g : Fin 64) (hdr : BitVec 128) (i : Nat) : BitVec 64 :=
  let h := hdr.toNat
  let last := decide (i + 1 = rxCellCount hdr)
  let valid := if last then 16 * ((bits h 28 20 - 1) % 8) + bits h 32 29 else 127
  BitVec.ofNat 64 (bits h 3 1 * 2 ^ 7 + b2n (decide (i = 0)) * 2 ^ 11 + b2n last * 2 ^ 12 + bits h 6 6 * 2 ^ 14 + bits h 7 7 * 2 ^ 15
    + bits h 52 33 * 2 ^ 16 + g.val * 2 ^ 36 + valid * 2 ^ 43)

/-- Cells of a packet in reception from its content slots (R329). -/
def rxCells (g : Fin 64) (hdr : BitVec 128) (data : List (BitVec 128)) (first n : Nat) : List RxCell :=
  (List.range n).map fun i => { tag := rxTag g hdr (first + i), slots := (data.drop (8 * (first + i))).take 8 }

/-- Whether the receive pool has room for a packet (R332, R333, R346). -/
def FLink.rxRoom (l : FLink) (cls : Nat) (res : Bool) (n : Nat) : Bool :=
  let held := (l.rxPool.filter fun e => if res then e == (cls, true) else !e.2).length
  let lim := if !res then l.rxShared else if l.rxRes.isEmpty then (if cls = 4 then 33 else 0) else Tab.getD l.rxRes cls 0
  decide (held + n ≤ lim)

/-- A stomped packet ends (R344): it is discarded and its credits returned, and a copy on its way is stomped in turn; no cell of it is left to be discarded. -/
def stompedEnd (g : Fin 64) (r : RxPkt) : Prog := .look fun s =>
  let x := groupX g
  let own := (s.flink g).rxOwn r
  Prog.all [
    dropLast x r.cls own (poolLeave x r.cls),
    Prog.each (List.range (rxCellCount r.hdr - r.handed)) fun _ => poolLeave x r.cls,
    Prog.when own (Prog.flood fun f => { f with dropRest := f.dropRest.filter fun k => k != qKey x r.cls }),
    Prog.add (fabPort g) F.PRT_FL_STOMP_RX 1,
    raise 138 (fabPort g) 0,
    flinkUpd g fun l => { l with rxCur := none }]

/-- The stream slots of an accepted flit in order (R327-R329, R344, R346); `ends` counts packet ends in this flit. -/
def rxSlots (g : Fin 64) (stomp : Nat) : List (BitVec 128) → Nat → Prog → Prog
  | [], _, k => k
  | v :: l, ends, k => .look fun s =>
    match (s.flink g).rxCur with
    | some r =>
      let r' := { r with
        got := r.got + 1
        data := r.data ++ [v] }
      if r'.got = bits r.hdr.toNat 28 20 then
        if bitOf stomp ends then Prog.seq (stompedEnd g r') (rxSlots g stomp l (ends + 1) k)
        else Prog.all [
          Prog.send (.rxCells g r.hdr r.handed (rxCells g r.hdr r'.data r.handed (rxCellCount r.hdr - r.handed)) true),
          flinkUpd g fun w => { w with rxCur := none },
          rxSlots g stomp l (ends + 1) k]
      else if r'.got % 8 = 0 then Prog.all [
        Prog.send (.rxCells g r.hdr r.handed (rxCells g r.hdr r'.data r.handed (r'.got / 8 - r.handed)) false),
        flinkUpd g fun w => { w with rxCur := some { r' with handed := r'.got / 8 } },
        rxSlots g stomp l ends k]
      else Prog.seq (flinkUpd g fun w => { w with rxCur := some r' }) (rxSlots g stomp l ends k)
    | none =>
      let h := v.toNat
      let ns := bits h 28 20
      let cls := bits h 3 1
      let res := bitOf h 5
      if h = 0 then rxSlots g stomp l ends k
      else if h % 2 = 0 ∨ ns = 0 ∨ 264 < ns ∨ cls = 7 then linkError g
      else if !(s.flink g).rxRoom cls res (rxCellCount v) then linkError g
      else Prog.seq (flinkUpd g fun w => { w with
          rxCur := some { hdr := v, data := [], got := 0, handed := 0 }
          rxPool := w.rxPool ++ List.replicate (rxCellCount v) (cls, res) })
        (rxSlots g stomp l ends k)

/-- An accepted flit (R339): ACK and NAK, returns, the CTRL slot, and the stream slots. -/
def flitAccept (g : Fin 64) (w : BitVec 4096) : Prog := .look fun s =>
  let p := fabPort g
  let h := flitHead w
  let ct := (s.flink g).rxCt
  let stream := ((List.range 31).filter fun k => k != ct).map (flitSlot w)
  let rest : Prog := rxSlots g (bits h 60 45) stream 0 (Prog.all [
    flinkUpd g fun l => { l with rxCt := bits h 44 40 }, linkPump g, nullFlit g])
  Prog.all [
    Prog.set p F.PRT_FL_STAT_EXP_SEQ ((bits h 11 0 + 1) % 4096),
    Prog.set p F.PRT_FL_STAT_DISCARD 0,
    flinkUpd g fun l => { l with nak := false },
    gauge p 0x06 none 1,
    ackNak g (bits h 23 12) (bitOf h 24) (Prog.seq
      (creditTake g (bits h 28 26) (bits h 37 29) (bits h 39 38))
      (if ct < 31 then ctrlTake g (flitSlot w ct) rest else rest))]

/-- The first good flit after a retrain (R349 step 5): the stored flits are replayed from the peer's ACK + 1, and the link is in
RUN. -/
def resumeRun (g : Fin 64) (ack : Nat) : Prog := .look fun s =>
  let p := fabPort g
  match (s.flink g).retrain with
  | none => .skip
  | some r => Prog.all [
      Prog.set p F.PRT_FL_STAT_PHASE 1,
      Prog.add p F.PRT_FL_RETRAIN_COUNT 1,
      Prog.set p F.PRT_FL_RETRAIN_LAST (min 65535 ((s.time - r.since) / 10)),
      flinkUpd g fun l => { l with retrain := none },
      raise 135 p 0,
      Prog.when r.req.isNone (raise 136 p (s.fld p F.PRT_FL_STAT_WIDTH)),
      ackFree g ack (replayAll g ack)]

/-- A flit arrives (R339): accepted, or refused. In RETRAIN no whole flit is received, and one that the pause cut short is refused (R349); nothing is sent for it
then. -/
def flitArrive (g : Fin 64) (w : BitVec 4096) : Prog := .look fun s =>
  let p := fabPort g
  let h := flitHead w
  let d := (bits h 11 0 + 4096 - s.fld p F.PRT_FL_STAT_EXP_SEQ) % 4096
  if s.flPhase g = 0 ∨ (s.flPhase g = 3 ∧ flitGood w = true) then .skip
  else if !flitGood w then Prog.all [Prog.add p F.PRT_FL_ERR_CRCERR 1, raise 129 p 0, flitRefuse g true]
  else Prog.seq (Prog.when (s.flPhase g == 4) (resumeRun g (bits h 23 12))) (ifUp g
    (if bitOf h 25 then ackNak g (bits h 23 12) (bitOf h 24) (nullFlit g)
     else if d = 0 then flitAccept g w
     else Prog.all [Prog.add p F.PRT_FL_ERR_SEQERR 1, raise 130 p 0,
       (if d < 2048 then flitRefuse g true else flitRefuse g false)]))

/-- Returns have been pending for two flit times with no sequenced flit going out (R336): an idle sequenced flit carries them. -/
def creditTimer (g : Fin 64) : Prog := .look fun s =>
  let l := s.flink g
  Prog.when (s.flSends g && decide (l.eddy.length < 256) && l.left == 0 && (!l.ret.isEmpty || decide (l.retCtrl > 0))) (closeFlit g)

/-- CRINIT arrives (R333): each credit becomes what is advertised minus what is charged and not returned; the link may be UP. -/
def crinitTake (g : Fin 64) (shared : Nat) (res : List Nat) (rbMax : Nat) : Prog := .look fun s =>
  let p := fabPort g
  let out := ((s.flink g).shared.map fun e => e.2).sum
  Prog.when (s.fabState g == 2 || s.fabState g == 3 || s.fabState g == 4) (Prog.all [
    flinkUpd g fun l => { l with
      cred := (List.range 7).map fun c => (c, res.getD c 0 - Tab.getD l.charged c 0)
      rbMax := rbMax
      crinit := true },
    Prog.set p F.PRT_FL_CRED_SH_CR (min 1023 (shared - out)),
    Prog.fab fun f => { f with joining := Tab.upd f.joining g.val fun a => { a with crinitRx := true } },
    admitCheck g,
    linkPump g])

/-- A write of PRT_FL_RXCFG or PRT_FL_RXLIM (R332). -/
def rxPoolWrite (g : Fin 64) (lim : Bool) (v : Nat) : Prog := .look fun s =>
  let p := fabPort g
  let res := if lim then s.rxReserves g else [F.PRT_FL_RXCFG_RSV0.part v, F.PRT_FL_RXCFG_RSV1.part v, F.PRT_FL_RXCFG_RSV2.part v,
    F.PRT_FL_RXCFG_RSV3.part v, F.PRT_FL_RXCFG_RSV4.part v, F.PRT_FL_RXCFG_RSV5.part v, F.PRT_FL_RXCFG_RSV6.part v]
  let rb := if lim then F.PRT_FL_RXLIM_RBMAX.part v else s.fld p F.PRT_FL_RXLIM_RBMAX
  let bad := decide (735 < res.sum) || decide (res.getD 4 0 < 33) || [0, 1, 2, 3, 5].any (fun c => res.getD c 0 == 0)
    || res.getD 6 0 != 0 || decide (768 - res.sum < rb)
  if bad then raise 139 p 0 else regStore p (if lim then .PRT_FL_RXLIM else .PRT_FL_RXCFG) 0 v

/-! ### Pause, retrain, resume (R348-R351) -/

/-- Whether a width and base name a block of lanes: 1, 2, 4 or 8 of them, the first a multiple of the width (R348). -/
def Reshape.isBlock (r : Reshape) : Bool := [1, 2, 4, 8].contains r.width && r.base % r.width == 0 && decide (r.base + r.width ≤ 8)

/-- A write of PRT_FL_RESHAPE (R348): with GO, PAUSE_REQ is sent, unless the link is not UP or a pause is in progress, one that the peer asked for among them. A WIDTH or
BASE that names no block is refused in the same way (log entry 143). -/
def reshape (g : Fin 64) (v : Nat) : Prog := .look fun s =>
  let p := fabPort g
  let l := s.flink g
  let r : Reshape := { token := l.nextToken % 256, width := F.PRT_FL_RESHAPE_WIDTH.part v, base := F.PRT_FL_RESHAPE_BASE.part v,
                       rate := F.PRT_FL_RESHAPE_RATE.part v }
  if F.PRT_FL_RESHAPE_GO.part v = 0 then .skip
  else if s.fabState g ≠ 4 ∨ s.flPhase g ≠ 1 ∨ l.grant.isSome = true ∨ r.isBlock = false then raise 139 p 0
  else Prog.all [
    Prog.set p F.PRT_FL_STAT_PHASE 2,
    flinkUpd g fun l => { l with
      ask := some r
      nextToken := l.nextToken + 1 },
    ctrlPut g (0x23 + r.width * 2 ^ 16 + r.base * 2 ^ 24 + r.rate * 2 ^ 32 + r.token * 2 ^ 40)]

/-- Answer a PAUSE_REQ. -/
def pauseRsp (g : Fin 64) (result token : Nat) : Prog := ctrlPut g (0x24 + result * 2 ^ 16 + token * 2 ^ 24)

/-- A PAUSE_REQ arrives (R348, R349, R354): when both ends ask, the one with the lower switch ID proceeds; the lanes of a granted request retrain once its
answer has left. -/
def pauseReq (g : Fin 64) (r : Reshape) : Prog := .look fun s =>
  let peer := s.fld (fabPort g) F.PRT_FAB_STAT_PEER_SW
  let ok := r.isBlock && decide (r.rate ≤ 3)
  if s.fabState g ≠ 4 ∨ ¬ s.flSends g = true then .skip
  else if s.flPhase g = 2 ∧ s.swid.val < peer then pauseRsp g 1 r.token
  else if !ok then pauseRsp g 2 r.token
  else Prog.seq (flinkUpd g fun l => { l with grant := some r }) (pauseRsp g 0 r.token)

/-- A PAUSE_RSP arrives (R348, R349). -/
def pauseRspTake (g : Fin 64) (result token : Nat) : Prog := .look fun s =>
  let p := fabPort g
  match (s.flink g).ask with
  | none => .skip
  | some r => Prog.when (r.token == token) (Prog.all [
      Prog.set p F.PRT_FL_PSTAT_RSP result,
      flinkUpd g fun l => { l with ask := none },
      (if result = 0 then retrainStart g (some r)
       else Prog.seq (raise 139 p result) (Prog.when (s.flPhase g == 2) (Prog.set p F.PRT_FL_STAT_PHASE 1)))])

/-- The widest block of good lanes, aligned to its width, the lowest first lane among them (R350, R365). -/
def laneBlock (good : Nat) (widths : List Nat) : Option (Nat × Nat) :=
  (widths.flatMap fun w => (List.range (8 / w)).map fun i => (w, i * w)).find? fun b =>
    (List.range b.1).all fun i => bitOf good (b.2 + i)

/-- The logical lanes that a retrain finds good (R350, R369): of those whose phase window is wide enough, the ones that have accepted two markers in succession
since it began. -/
def State.retrained (s : State) (g : Fin 64) (wide : Nat) : Nat :=
  (List.range 8).foldl (fun m n => if bitOf wide n && (fabLanes g).any (fun ln => s.fld (.lane ln) F.LN_STAT_LLANE == n && decide ((s.lane ln).good ≥ 2))
    then m ||| 2 ^ n else m) 0

/-- The logical lanes of the block in use: only a requested change takes others back (R365). -/
def State.blockLanes (s : State) (g : Fin 64) : Nat :=
  let base := match Tab.get? s.dev.link.tx g.val with | some x => x.base | none => 0
  (2 ^ s.fld (fabPort g) F.PRT_FL_STAT_WIDTH - 1) * 2 ^ base

/-- The lanes have retrained (R349 step 4, R350, R369): the new width and rate are in use, and NULL flits go out until a good flit comes. A requested change
goes on until every lane of its block is good, and a new rate until the phase search has ended; `wide` are the lanes whose phase window spans 16 codes. -/
def retrainDone (g : Fin 64) (wide : Nat) : Prog := .look fun s =>
  let p := fabPort g
  let good := s.retrained g wide
  let resume := fun (w base : Nat) => Prog.all [
    Prog.each (fabLanes g) fun ln => Prog.when (bitOf good (s.fld (.lane ln) F.LN_STAT_LLANE)) (Prog.set (.lane ln) F.LN_STAT_ALIGN 1),
    Prog.link fun k => { k with tx := Tab.upd k.tx g.val fun x => x.block w base },
    Prog.set p F.PRT_FL_STAT_WIDTH w, Prog.set p F.PRT_FL_STAT_PHASE 4, nullFlit g]
  match s.flPhase g, (s.flink g).retrain with
  | 3, some r => match r.req with
    | some q => Prog.when (r.swept && (List.range q.width).all fun i => bitOf good (q.base + i)) (Prog.seq
        (Prog.when (q.rate != 0) (Prog.set (.group g) F.GRP_FC_STAT_RATE_CUR q.rate)) (resume q.width q.base))
    | none => match laneBlock (good &&& s.blockLanes g) [4, 2, 1] with
      | some b => resume b.1 b.2
      | none => linkDown g
  | _, _ => .skip

/-- A retrain has not ended in RT_MAX_US (R351). -/
def retrainTimeout (g : Fin 64) : Prog := .look fun s =>
  Prog.when (s.flPhase g == 3 || s.flPhase g == 4) (Prog.seq (raise 137 (fabPort g) 0) (linkDown g))

/-- A lane of an UP link has lost alignment (R350): the link degrades, also where it resumes from a retrain, or goes down. -/
def laneLost (g : Fin 64) : Prog := .look fun s =>
  if s.fabState g ≠ 4 then .skip
  else if s.flag (fabPort g) F.PRT_FL_CFG_AUTO_DEG then Prog.when (s.flSends g || s.flPhase g == 4) (retrainStart g none)
  else linkDown g

end Sys2Proof.Machine
end

