-- ==== Sys2Proof/Machine/LaneOps.lean ====
section
/-!
DEFINITION. Machine/LaneOps.lean: fabric training and lanes: markers received (R359-R362), training (R363-R369), the link test
(R370), equalization and calibration (R371-R376), and the margin monitor (R377, R378).
-/
namespace Sys2Proof.Machine

/-! ### Equalization and calibration (R371-R376) -/

/-- The fabric presets (R372): PRE and POST. -/
def fabPreset (n : Nat) : Nat × Nat := [(0, 0), (0, 6), (0, 12), (2, 8), (4, 8), (4, 14), (6, 18), (8, 24)].getD n (0, 0)

/-- The rate of a host's or module's link, as its status register shows it. -/
def State.linkRate (s : State) (pt : PortId) : Nat :=
  s.fld (.port pt) (if s.mode pt.g = .h then F.PRT_HSTAT_RATE else F.PRT_MSTAT_RATE)

/-- The base PRE and POST of a transmitter (R371, R373): in modes H and M those of PRESET, until the equalization procedure has
replaced them. -/
def State.txBase (s : State) (ln : LaneId) : Nat × Nat :=
  let u := UnitId.lane ln
  if s.mode ln.port.g ≠ .f then
    if (s.lane ln).eqDone then ((s.lane ln).pre, (s.lane ln).post)
    else Config.linkPreset (s.linkRate ln.port) (s.fld u F.LN_TXEQ_PRESET)
  else if s.flag u F.LN_TXEQ_MAN then (s.fld u F.LN_TXEQ_PRE, s.fld u F.LN_TXEQ_POST)
  else if s.flag u F.LN_TXEQ_AUTO then ((s.lane ln).pre, (s.lane ln).post)
  else fabPreset (s.fld u F.LN_TXEQ_PRESET)

/-- A base with its factory offset and the user offset in effect (R375): the field's bits in the layout of LN_CAL_FAC. -/
def State.calSum (s : State) (ln : LaneId) (fac : Fld) (base : Nat) : Int :=
  (base : Int) + signed fac.w (s.fld (.lane ln) fac) + signed fac.w (fac.part (s.lane ln).ofs)

/-- The applied values of a lane (R375): the register field, the sum, and the field's maximum. -/
def State.calList (s : State) (ln : LaneId) : List (Fld × Int × Nat) :=
  let l := s.lane ln
  let tx := s.txBase ln
  [(F.LN_STAT_A_PRE, s.calSum ln F.LN_CAL_FAC_PRE tx.1, 16), (F.LN_STAT_A_POST, s.calSum ln F.LN_CAL_FAC_POST tx.2, 24),
   (F.LN_STAT_A_SWING, s.calSum ln F.LN_CAL_FAC_SWING (s.fld (.lane ln) F.LN_TXEQ_SWING), 15),
   (F.LN_RXEQ_CTLE, s.calSum ln F.LN_CAL_FAC_CTLE l.ctle, 15), (F.LN_RXEQ_VREF_L, s.calSum ln F.LN_CAL_FAC_VL l.vl, 63),
   (F.LN_RXEQ_VREF_M, s.calSum ln F.LN_CAL_FAC_VM l.vm, 63), (F.LN_RXEQ_VREF_H, s.calSum ln F.LN_CAL_FAC_VH l.vh, 63),
   (F.LN_RXEQ_PH, s.calSum ln F.LN_CAL_FAC_PH l.ph, 63)]

/-- A sum brought into 0 to max. -/
def clampNat (v : Int) (top : Nat) : Nat := min top v.toNat

/-- Whether an applied value of a lane is clamped (R375). -/
def State.calClamps (s : State) (ln : LaneId) : Bool := (s.calList ln).any fun e => decide (e.2.1 < 0) || decide ((e.2.2 : Int) < e.2.1)

/-- Apply a lane's values (R375, R376): a clamped one sets SAT, whenever the sum leaves its range, and logs EV143 once for a write of LN_CAL_USR (log
entry 150). -/
def laneApply (ln : LaneId) : Prog := .look fun s =>
  let u := UnitId.lane ln
  Prog.all [
    Prog.each (s.calList ln) fun e => Prog.set u e.1 (clampNat e.2.1 e.2.2),
    .look fun t => Prog.set u F.LN_STAT_A_MAIN (t.fullScale ln.port.g - t.fld u F.LN_STAT_A_PRE - t.fld u F.LN_STAT_A_POST),
    Prog.when (s.calClamps ln) (Prog.set u F.LN_STAT_SAT 1),
    Prog.when (s.calClamps ln && !(s.lane ln).satTold) (Prog.seq (laneUpd ln fun v => { v with satTold := true }) (raise 143 u 0))]

/-- The user offsets that stand in LN_CAL_USR come into effect (R376). -/
def calTake (ln : LaneId) : Prog := .look fun s => Prog.seq
  (laneUpd ln fun v => { v with
    ofs := s.fld (.lane ln) F.LN_CAL_USR_OFS
    ofsDue := false })
  (laneApply ln)

/-- The transmitter's output in units of a third of 1/FS of 1 mV, with the settings in effect (R371, R533): the swing is 500 + 40 SWING mV peak to peak. -/
def State.txLevel (s : State) (ln : LaneId) (prev now next : Fin 4) : Int :=
  let u := UnitId.lane ln
  firOut (s.fullScale ln.port.g) (s.fld u F.LN_STAT_A_PRE) (s.fld u F.LN_STAT_A_POST) prev now next * (250 + 20 * s.fld u F.LN_STAT_A_SWING)

/-- A receiver's thresholds and DFE taps as they have adapted (R374): held while FREEZE is 1. -/
def laneAdapt (ln : LaneId) (v : Vrefs) (taps : BitVec 64) : Prog := .look fun s => Prog.when (!s.flag (.lane ln) F.LN_RXEQ_FREEZE) (Prog.seq
  (laneUpd ln fun w => { w with
    vl := v.vl.val
    vm := v.vm.val
    vh := v.vh.val })
  (Prog.set (.lane ln) F.LN_RXDFE_TAPS taps.toNat))

/-- A link of mode H or M has trained (R373, R374): the equalization procedure, which runs at 8 GT/s and above, has set PRE, POST and CTLE of each lane; the thresholds and
taps have adapted. -/
def lanesUp (ls : List LaneId) (rate : Nat) (tx : List LaneTx) (rx : List LaneRx) : Prog := Prog.each ls.zipIdx fun e => Prog.all [
  laneUpd e.1 fun v => { v with eqDone := false },
  Prog.when (decide (3 ≤ rate)) (Prog.seq
    (Prog.opt tx[e.2]? fun y => laneUpd e.1 fun v => { v with
      pre := y.pre.val
      post := y.post.val
      eqDone := true })
    (Prog.opt rx[e.2]? fun y => laneUpd e.1 fun v => { v with ctle := y.ctle.val })),
  Prog.opt rx[e.2]? fun y => laneAdapt e.1 y.vrefs y.taps,
  laneApply e.1]

/-- A write of LN_TXEQ (R371-R373): refused when the main cursor would be too small. -/
def txEqWrite (ln : LaneId) (v : Nat) : Prog := .look fun s =>
  let u := UnitId.lane ln
  if s.txEqRefuses ln.port.g v then crossRefuse u .LN_TXEQ 0 v
  else Prog.all [regStore u .LN_TXEQ 0 v, presetBring ln, laneApply ln]

/-- A lane of a group that comes up takes its configuration shadow (R271 step 4, R376, R452): the preset in the range of the group's mode, the user offsets, and the
applied values. -/
def laneConfig (ln : LaneId) : Prog := .look fun s => Prog.all [
  presetBring ln,
  laneUpd ln fun v => { v with satTold := decide (s.fld (.lane ln) F.LN_CAL_USR_OFS = 0) },
  calTake ln]

/-- A write of LN_CAL_USR (R375, R376): in mode F its offsets wait for the next marker. -/
def calWrite (ln : LaneId) (v : Nat) : Prog := .look fun s => Prog.all [
  regStore (.lane ln) .LN_CAL_USR 0 v,
  laneUpd ln fun w => { w with
    ofsDue := s.mode ln.port.g == .f
    satTold := false },
  Prog.when (s.mode ln.port.g != .f) (calTake ln)]

/-! ### Markers received (R359, R366, R368, R370) -/

/-- A preset request takes effect on the named transmit lane while TRAIN runs (R366). -/
def presetTake (g : Fin 64) (lane preset : Nat) : Prog := .look fun s =>
  match fin? 8 lane with
  | none => .skip
  | some l =>
    let ln : LaneId := ⟨⟨g, 0⟩, l⟩
    Prog.when (s.fabState g == 1 && s.flag (.lane ln) F.LN_TXEQ_AUTO && !s.flag (.lane ln) F.LN_TXEQ_MAN)
      (Prog.seq (laneUpd ln fun w => { w with
        pre := (fabPreset preset).1
        post := (fabPreset preset).2 }) (laneApply ln))

/-- A lane loses alignment (R368). -/
def alignLoss (ln : LaneId) : Prog := Prog.all [
  Prog.set (.lane ln) F.LN_STAT_ALIGN 0,
  laneUpd ln fun v => { v with
    good := 0
    broken := true },
  raise 141 (.lane ln) 0]

/-- A lane of a group in mode F loses alignment (R350, R368): LANE_ALIGNMENT_LOSS where no marker comes, or a second one that is not accepted. -/
def laneAlignLoss (ln : LaneId) : Prog := .look fun s =>
  Prog.when (s.mode ln.port.g == .f && s.unitExists (.lane ln) && s.flag (.lane ln) F.LN_STAT_ALIGN)
    (Prog.seq (alignLoss ln) (laneLost ln.port.g))

/-- The data symbols of a flit portion on a lane (R356): in training, those of x8. -/
def State.portion (s : State) (g : Fin 64) : Nat :=
  let w := s.fld (fabPort g) F.PRT_FL_STAT_WIDTH
  if w = 0 then 256 else 2048 / w

/-- A step of phase tracking (R368): 1 up, 2 down; the symbol count moves with a wrap. -/
def phaseStep (move : Nat) (l : Lane) : Lane :=
  if move = 1 then { l with
    ph := (l.ph + 1) % 64
    wraps := if l.ph = 63 then l.wraps + 1 else l.wraps }
  else if move = 2 then { l with
    ph := (l.ph + 63) % 64
    wraps := if l.ph = 0 then l.wraps - 1 else l.wraps }
  else l

/-- The lane's own transmitter sends its next frame of zeros in TRAIN and in a link test (R364, R370, log entry 138). -/
def zeroFrame (ln : LaneId) : Prog := .look fun s => Prog.when (s.fabState ln.port.g == 1 || s.flag (.group ln.port.g) F.GRP_LTEST_BUSY)
  (Prog.link fun k => { k with tx := Tab.upd k.tx ln.port.g.val fun x => x.zero ln.l.val })

/-- What a receiver has read of the frame before a marker: with no marker accepted yet, nothing (R359). -/
def State.frameRead (s : State) (ln : LaneId) (frame : List (Fin 4)) : RxFrame :=
  rxFrame (s.flag (.lane ln) F.LN_STAT_INV) (s.lane ln).tail frame

/-- A marker is not accepted (R359, R365, R368): the receiver goes on with its predicted seed and position, and the second in succession loses the lane. -/
def markerMiss (ln : LaneId) (w : BitVec 128) (scr foff : Nat) : Prog := .look fun s => Prog.all [
  Prog.add (.lane ln) F.LN_ERR_MRK 1,
  Prog.opt (markInv w) (Prog.setB (.lane ln) F.LN_STAT_INV),
  laneUpd ln fun v => { v with
    scr
    foff
    tail := w.toNat / 4 ^ 63 % 4
    missed := v.missed + 1
    good := 0
    broken := true },
  Prog.when (decide ((s.lane ln).missed ≥ 1)) (laneAlignLoss ln)]

/-- A marker is accepted (R359, R360, R366, R370): its seed and place in the flit stream are taken, its lane number, polarity, preset request and test
flag. -/
def markerTake (ln : LaneId) (w : BitVec 128) (m : Nat) (inv : Bool) (scr : Nat) : Prog := .look fun s =>
  let u := UnitId.lane ln
  let l := s.lane ln
  Prog.all [
    Prog.when (l.scr != 0 && m % 2 ^ 31 != scr) (Prog.add u F.LN_ERR_MRK 1),
    Prog.set u F.LN_STAT_LLANE (bits m 33 31),
    Prog.setB u F.LN_STAT_INV inv,
    Prog.when (bitOf m 48) (presetTake ln.port.g (bits m 33 31) (bits m 47 45)),
    Prog.when (bitOf m 49 && !l.test) (Prog.set u F.LN_ERR_LTEST 0),
    laneUpd ln fun v => { v with
      scr := m % 2 ^ 31
      foff := bits m 44 34
      tail := w.toNat / 4 ^ 63 % 4
      missed := 0
      good := min 2 (v.good + 1)
      test := bitOf m 49 }]

/-- A marker arrives on a lane (R358-R362, R366, R368, R370, R374, R376): `frame` are the line symbols since the last marker, `v` and `taps` what the receiver has adapted to, and
`move` is the step that phase tracking takes. A scrambler state of 0 stands for no prediction: no marker has been accepted since TRAIN began. The wrong bits
count where the frame's own marker had TEST. -/
def markerArrive (ln : LaneId) (w : BitVec 128) (frame : List (Fin 4)) (v : Vrefs) (taps : BitVec 64) (move : Nat) : Prog := .look fun s =>
  let u := UnitId.lane ln
  let l := s.lane ln
  let x := s.frameRead ln frame
  let next := scrRun x.data.length l.scr
  Prog.when (s.mode ln.port.g == .f && s.unitExists u && s.grpClocked ln.port.g) (Prog.all [
    Prog.when (l.scr != 0 && decide (x.bad > 0)) (Prog.seq (Prog.add u F.LN_ERR_STUFF x.bad) (raise 146 u x.bad)),
    Prog.when (l.scr != 0 && l.test) (Prog.addSat u F.LN_ERR_LTEST (zeroErrors l.scr x.data.reverse)),
    laneUpd ln (phaseStep move),
    laneAdapt ln v taps,
    (if l.ofsDue then calTake ln else laneApply ln),
    (match markAccept w with
      | none => markerMiss ln w next ((l.foff + x.data.length) % s.portion ln.port.g)
      | some (m, inv) => markerTake ln w m inv next),
    zeroFrame ln])

/-- FCI_OK falls (R368): every lane of the group loses alignment, and no good lane remains. -/
def fciLoss (g : Fin 64) : Prog := .look fun s =>
  Prog.when (s.mode g == .f && s.flag (.group g) F.GRP_FC_STAT_FCI_OK) (Prog.all [
    Prog.set (.group g) F.GRP_FC_STAT_FCI_OK 0,
    Prog.set (.group g) F.GRP_FC_STAT_LOCK 0,
    raise 142 (.group g) 0,
    Prog.each ((fabLanes g).filter fun ln => s.flag (.lane ln) F.LN_STAT_ALIGN) alignLoss,
    Prog.when (decide (s.fabState g ≥ 2)) (linkDown g)])

/-! ### Training (R364-R367) -/

/-- Whether a group's link may start TRAIN: no reset runs (R454), its group is in mode F with its clocks on, in no change and no link test, and its port is
not contained. -/
def State.mayTrain (s : State) (g : Fin 64) : Bool :=
  s.dev.pwr.phase == .run && s.mode g == .f && s.grpClocked g && s.fabState g == 0 && !s.flag (.group g) F.GRP_STAT_CHG
    && !s.flag (.group g) F.GRP_LTEST_BUSY && !s.isContained ⟨g, 0⟩ && !s.isFenced (.group g) && !s.dev.ws.safe

/-- TRAIN starts (R364 step 1): every lane sends frames of scrambled zeros, and none is aligned. -/
def trainStart (g : Fin 64) : Prog := .look fun s => Prog.when (s.mayTrain g) (Prog.all [
  Prog.set (fabPort g) F.PRT_FAB_STAT_STATE 1,
  Prog.set (.group g) F.GRP_FC_STAT_TSTEP 1,
  Prog.set (.group g) F.GRP_FC_STAT_RATE_CUR (s.fld (.group g) F.GRP_FC_CFG_RATE),
  Prog.link fun k => { k with
    train := Tab.put k.train g.val s.time
    tx := Tab.put k.tx g.val (txBegin g false s.time).zeros },
  Prog.each (fabLanes g) fun ln => Prog.seq (Prog.set (.lane ln) F.LN_STAT_ALIGN 0) (laneUpd ln fun v => { v with
    scr := 0
    foff := 0
    skip := 0
    good := 0
    missed := 0
    windows := [] })])

/-- The step of a training attempt that runs. -/
def State.tstep (s : State) (g : Fin 64) : Nat := s.fld (.group g) F.GRP_FC_STAT_TSTEP

/-- Whether a retrain with a new rate repeats step 2, or runs its phase search (R369): the search follows the lock. -/
def State.rateMoving (s : State) (g : Fin 64) (locked : Bool) : Bool :=
  s.flPhase g == 3 && s.flag (.group g) F.GRP_FC_STAT_LOCK == locked && ((s.flink g).retrain.any fun r => !r.swept)

/-- The forwarded clock is detected, classed and locked (R354, R364 step 2): a lower rate of the peer is taken over. A change of rate repeats the step (R369). -/
def fciLock (g : Fin 64) (code : Nat) : Prog := .look fun s =>
  let u := UnitId.group g
  let lock := Prog.seq (Prog.set u F.GRP_FC_STAT_FCI_OK 1) (Prog.set u F.GRP_FC_STAT_LOCK 1)
  if s.rateMoving g false then lock
  else Prog.when (s.fabState g == 1 && s.tstep g == 1) (Prog.all [
    lock,
    Prog.peak u F.GRP_FC_STAT_RATE_CUR code,
    Prog.set u F.GRP_FC_STAT_TSTEP 2])

/-- The phase sweeps have ended (R364 step 3): the phase code of each lane, with CTLE at code 8. The phase search of a change of rate leaves CTLE as it is, and step 4
follows it (R369). -/
def sweepDone (g : Fin 64) (codes : List (Fin 64)) : Prog := .look fun s =>
  let sweep := fun (f : Lane → Lane) => Prog.each (fabLanes g) fun ln => Prog.seq (laneUpd ln fun v => { f v with ph := (codes.getD ln.l.val 0).val })
    (laneApply ln)
  if s.rateMoving g true then Prog.seq (sweep fun v => { v with good := 0 })
    (flinkUpd g fun l => { l with retrain := l.retrain.map fun r => { r with swept := true } })
  else Prog.when (s.fabState g == 1 && s.tstep g == 2) (Prog.seq (sweep fun v => { v with ctle := 8 }) (Prog.set (.group g) F.GRP_FC_STAT_TSTEP 3))

/-- Whether a lane takes part in preset selection (R364 step 5). -/
def State.selects (s : State) (ln : LaneId) : Bool := s.flag (.lane ln) F.LN_TXEQ_AUTO

/-- A lane asks the peer's transmitter for a preset (R366, R367): the markers of the transmit lane with the number that its own markers name carry the request. -/
def presetAsk (ln : LaneId) (n : Nat) : Prog := .look fun s => Prog.seq
  (Prog.link fun k => { k with tx := Tab.upd k.tx ln.port.g.val fun x => x.ask (s.fld (.lane ln) F.LN_STAT_LLANE) n })
  (Prog.send (.presetReq ln n))

/-- The lanes are mapped and deskewed (R359, R364 step 4), once any has accepted two markers in succession: those that have are aligned, each lined up to its
next flit boundary; preset selection begins with F0 (R367). -/
def deskewDone (g : Fin 64) : Prog := .look fun s =>
  let ready := (fabLanes g).filter fun ln => decide ((s.lane ln).good ≥ 2)
  Prog.when (s.fabState g == 1 && s.tstep g == 3 && !ready.isEmpty) (Prog.all [
    Prog.each ready fun ln => Prog.seq (Prog.set (.lane ln) F.LN_STAT_ALIGN 1) (laneUpd ln fun v => { v with
      broken := false
      skip := (s.portion g - v.foff % s.portion g) % s.portion g }),
    Prog.set (.group g) F.GRP_FC_STAT_TSTEP 4,
    Prog.each ((fabLanes g).filter s.selects) fun ln => presetAsk ln 0])

/-- The preset with the widest window, the lower number on a tie (R367). -/
def bestPreset (l : List Nat) : Nat := (l.zipIdx.foldl (fun b e => if e.1 > b.1 then e else b) (0, 0)).2

/-- A preset's hold ends (R367): its window is kept, CTLE has adapted to it, and the lane asks for the next preset, or for the best after F7. -/
def presetHold (ln : LaneId) (h : PresetHold) : Prog := .look fun s =>
  let g := ln.port.g
  let ws := (s.lane ln).windows ++ [h.window.val]
  Prog.when (s.fabState g == 1 && s.tstep g == 4 && ln.port.p == 0 && s.selects ln && decide (ws.length ≤ 8)) (Prog.all [
    laneUpd ln fun v => { v with
      windows := ws
      ctle := h.ctle.val },
    laneApply ln,
    presetAsk ln (if ws.length < 8 then ws.length else bestPreset ws),
    .look fun t => Prog.when (((fabLanes g).filter t.selects).all fun k => decide ((t.lane k).windows.length ≥ 8))
      (Prog.set (.group g) F.GRP_FC_STAT_TSTEP 5)])

/-- A training attempt fails (R364, R365). -/
def trainFail (g : Fin 64) : Prog := Prog.all [
  Prog.addSat (.group g) F.GRP_FC_STAT_FAILS 1,
  raise 140 (.group g) 0,
  linkDown g]

/-- The link layer at the end of TRAIN (R326, R331, R333). -/
def linkBegin (g : Fin 64) (width base : Nat) : Prog := .look fun s =>
  let p := fabPort g
  Prog.all [
    Prog.link fun k => { k with
      fl := Tab.put k.fl g.val { FLink.empty with cred := [(4, 33)] }
      tx := Tab.put k.tx g.val ((Tab.getD k.tx g.val (txBegin g false s.time)).enter width base)
      train := Tab.erase k.train g.val },
    Prog.set p F.PRT_FL_STAT_PHASE 1,
    Prog.set p F.PRT_FL_STAT_EXP_SEQ 0,
    Prog.set p F.PRT_FL_STAT_NXT_SEQ 0,
    Prog.set p F.PRT_FL_STAT_DISCARD 0,
    Prog.set p F.PRT_FL_STAT_WIDTH width,
    Prog.set p F.PRT_FL_CRED_CTRL_CR 16,
    Prog.set p F.PRT_FL_CRED_SH_CR 0,
    floodUp (groupX g),
    authEnter g]

/-- Whether a training attempt may end (R364): step 5 is done, or no lane selects a preset and the lanes are deskewed. -/
def State.trainEnds (s : State) (g : Fin 64) : Bool :=
  s.fabState g == 1 && (s.tstep g == 5 || (s.tstep g == 4 && !(fabLanes g).any s.selects))

/-- Adaptation ends (R360, R364 step 6, R365, R374): the adapted values are in use; the width is chosen among the good lanes, or the
attempt fails. -/
def trainDone (g : Fin 64) (fits : List LaneFit) : Prog := .look fun s =>
  let fit := fun (ln : LaneId) => fits[ln.l.val]?
  let goods := (fabLanes g).filter fun ln => match fit ln with
    | some f => !(s.lane ln).broken && decide (f.window.val ≥ 16) && s.flag (.lane ln) F.LN_STAT_ALIGN
    | none => false
  let mask := goods.foldl (fun m ln => m ||| 2 ^ s.fld (.lane ln) F.LN_STAT_LLANE) 0
  let block := if s.flag (fabPort g) F.PRT_FL_CFG_AUTO_DEG then laneBlock mask [8, 4, 2, 1] else laneBlock mask [8]
  Prog.when (s.trainEnds g) (Prog.all [
    Prog.each (fabLanes g) fun ln => Prog.opt (fit ln) fun f => Prog.all [
      laneUpd ln fun v => { v with ctle := f.rx.ctle.val },
      laneAdapt ln f.rx.vrefs f.rx.taps,
      laneApply ln],
    Prog.set (.group g) F.GRP_FC_STAT_GOOD mask,
    (match block with
      | none => trainFail g
      | some b => Prog.all [
          Prog.set (.group g) F.GRP_FC_STAT_TSTEP 0,
          Prog.set (.group g) F.GRP_FC_STAT_FAILS 0,
          Prog.each (fabLanes g) fun ln => laneUpd ln fun v => { v with
            scr := 1 + s.fld (.lane ln) F.LN_STAT_LLANE * 0x01111111 },
          linkBegin g b.1 b.2])])

/-- TRAIN has not ended within its limit (R364). -/
def trainTimeout (g : Fin 64) : Prog := .look fun s => Prog.when (s.fabState g == 1) (trainFail g)

/-! ### Link test (R370) -/

/-- A write of GRP_LTEST: with GO the link goes down, and every lane sends frames of zeros whose markers have TEST set. -/
def linkTest (g : Fin 64) (v : Nat) : Prog := .look fun s =>
  let u := UnitId.group g
  Prog.seq (regStore u .GRP_LTEST 0 v)
    (Prog.when (bitOf v 31 && !s.flag u F.GRP_LTEST_BUSY && s.mode g == .f) (Prog.all [
      linkDown g,
      Prog.set u F.GRP_LTEST_BUSY 1,
      Prog.link fun k => { k with
        testing := if k.testing.contains g.val then k.testing else k.testing ++ [g.val]
        tx := Tab.put k.tx g.val (txBegin g true s.time).zeros },
      millModes]))

/-- A link test ends. -/
def linkTestEnd (g : Fin 64) : Prog := .look fun s =>
  Prog.when (s.flag (.group g) F.GRP_LTEST_BUSY) (Prog.all [
    raise 145 (.group g) 0,
    Prog.set (.group g) F.GRP_LTEST_BUSY 0,
    Prog.link fun k => { k with tx := Tab.erase k.tx g.val },
    trainStart g])

/-! ### Margin monitor (R377, R378) -/

/-- A write of LN_MRG_CTL: the reserved EYE is refused (R14); GO starts a measurement, or sets BLOCKED while a margining command is
active. -/
def marginWrite (ln : LaneId) (v : Nat) : Prog := .look fun s =>
  let u := UnitId.lane ln
  if !regLegal (regSpec .lane .LN_MRG_CTL) v then Prog.seq (crossRefuse u .LN_MRG_CTL 0 v) (raise 0 u 0)
  else Prog.seq (regStore u .LN_MRG_CTL 0 v)
    (if !bitOf v 31 || s.flag u F.LN_MRG_RES_BUSY then .skip
     else if s.mode ln.port.g != .f && (s.lane ln).margining then Prog.set u F.LN_MRG_RES_BLOCKED 1
     else Prog.all [Prog.set u F.LN_MRG_RES_DONE 0, Prog.set u F.LN_MRG_RES_BLOCKED 0, Prog.set u F.LN_MRG_RES_ERRS 0,
       Prog.set u F.LN_MRG_RES_BUSY 1])

/-- A measurement ends (R377). -/
def marginDone (ln : LaneId) (errs : Nat) : Prog := .look fun s =>
  let u := UnitId.lane ln
  Prog.when (s.flag u F.LN_MRG_RES_BUSY) (Prog.all [
    Prog.set u F.LN_MRG_RES_ERRS errs, Prog.set u F.LN_MRG_RES_BUSY 0, Prog.set u F.LN_MRG_RES_DONE 1, raise 144 u 0])

/-- A margining command starts or ends on a lane in mode H or M (R378). -/
def laneMargining (ln : LaneId) (active : Bool) : Prog := .look fun s =>
  if s.mode ln.port.g ≠ .h ∧ s.mode ln.port.g ≠ .m then .skip
  else if active && s.flag (.lane ln) F.LN_MRG_RES_BUSY then Prog.send (.marginBusy ln)
  else laneUpd ln fun v => { v with margining := active }

end Sys2Proof.Machine
end

