-- ==== Sys2Proof/Machine/PortOps.lean ====
section
/-!
DEFINITION. Machine/PortOps.lean: group mode changes (R269-R271), host ports (R273-R288), and module ports (R289-R292).
-/
namespace Sys2Proof.Machine

/-! ### Fault summary (R33) -/

/-- Whether the unit that a path code names is a unit or its descendant. -/
def codeUnder (u : UnitId) (code : Nat) : Bool := match unitOfCode code with
  | some v => isUnder u v
  | none => false

/-- The highest open fault level held by a unit or a descendant (R33): a fault counts for the unit that raised it, and for the unit of the domain that
holds it (R421, R430), as that of a bound module port does for its slot channel. -/
def State.summaryLevel (s : State) (u : UnitId) : Nat :=
  s.dev.ws.faults.foldl (fun m e => e.2.foldl (fun m c => c.list.foldl (fun m f =>
    if codeUnder u e.1 || codeUnder u f.unit then max m f.level else m) m) m) 0

/-! ### Slots and references -/

/-- The state of a slot channel (R396). -/
def State.slotState (s : State) (k : Fin 64) : Nat := s.fld (.slot k) F.SLT_STAT_STATE

/-- Whether a slot channel is off: EMPTY, OFF, COOLDOWN or FAULT (R270, R289, R403). -/
def State.slotOff (s : State) (k : Fin 64) : Bool := [0, 1, 8, 9].contains (s.slotState k)

/-- Whether a module port enumerates on PG (R290). -/
def State.mEn (s : State) (pt : PortId) : Bool := s.flag (.port pt) F.PRT_MCFG_EN

/-- Whether a target of an entry names a module port, directly or through a stripe set. -/
def State.tgtNames (s : State) (pt : PortId) : Option Tgt → Bool
  | some (.module m _) => mportOf m == pt
  | some (.stripe n _) => match Tab.get? s.dev.xlat.ssets n.val with
    | some q => q.members.any fun m => mportOf m.1 == pt
    | none => false
  | _ => false

/-- Whether a map entry names a module port. -/
def State.entryNames (s : State) (pt : PortId) (e : MapEntry) : Bool := e.home == s.swid && (s.tgtNames pt e.tgtA || s.tgtNames pt e.tgtB)

/-- Whether a committed or staged map entry, or a stripe set, names a module port (R270, R400). -/
def State.portReferenced (s : State) (pt : PortId) : Bool :=
  let v := s.dev.xlat
  let staged := fun (b : Option (Tab Staged)) => match b with
    | some t => t.any fun e => s.entryNames pt e.2.e
    | none => false
  v.map.any (fun e => s.entryNames pt e.2) || staged v.openBuf || staged v.queued
    || (match v.adv with | some a => a.sealed.any fun e => s.entryNames pt e.2 | none => false)
    || v.ssets.any fun e => e.2.members.any fun m => mportOf m.1 == pt

/-! ### Group mode and width (R270, R271) -/

/-- The mode and width a group has, or will have when an accepted change that runs takes effect (R270, R271 step 3). -/
def State.modeNext (s : State) (g : Fin 64) : Mode × Bool :=
  if Tab.getD s.dev.ports.grpStep g.val 0 = 1 then (Mode.ofNum (s.fld (.group g) F.GRP_CFG_MODE), s.flag (.group g) F.GRP_CFG_SPLIT)
  else (s.mode g, s.split g)

/-- The ports that are there in a mode when the accepted changes have taken effect. -/
def State.portsNext (s : State) (md : Mode) : List PortId :=
  allPorts.filter fun pt => (s.modeNext pt.g).1 == md && (pt.p == 0 || ((s.modeNext pt.g).2 && md != .f))

/-- Whether the bindings that the ports of a group hold would share a slot channel if the group ran in mode M (R25). -/
def State.bindBreaks (s : State) (g : Fin 64) (split : Bool) : Bool :=
  let holds := fun (pt : PortId) => s.dev.ports.bound.contains pt.ix
  let mine := ((if split then [⟨g, 0⟩, ⟨g, 1⟩] else [⟨g, 0⟩]) : List PortId).filter holds
  let others := (s.portsNext .m).filter fun pt => pt.g != g && holds pt
  mine.any fun pt => (mine ++ others).any fun q => q != pt && s.mslot q == s.mslot pt

/-- Whether a group of a mode and width would break R24, R25 or R26, beside the other groups as the changes that run leave them. -/
def State.modeBreaks (s : State) (g : Fin 64) (md : Mode) (split : Bool) : Bool :=
  let n := if split then 2 else 1
  let others := fun (k : Mode) => ((s.portsNext k).filter fun pt => pt.g != g).length
  (md == .f && split) || (md == .h && decide (32 < others .h + n))
    || (md == .m && (decide (64 < others .m + n) || s.bindBreaks g split))

/-- The first condition of R270 that refuses a change of a group; `power` for a power-off, which enabled windows do not prevent
(R451). -/
def State.groupRefuse (s : State) (g : Fin 64) (md : Mode) (split power : Bool) : Option Nat :=
  let ps := s.portsOf g
  let hBusy := ps.any fun pt => s.fld (.port pt) F.PRT_HSTAT_LSTATE != 0
    || (!power && (List.range 16).any fun n => s.winEn pt n)
  let mBusy := ps.any fun pt => (s.isBound pt).any (fun k => !s.slotOff k) || s.portReferenced pt
  let fBusy := (s.fabState g != 0 && s.fabState g != 5)
    || (List.range 16).any fun d => bitOf (s.fldn .root F.DEV_FAB_RT_MEMBERS d) g.val
  if s.flag (.group g) F.GRP_STAT_CHG then some 1
  else if s.modeBreaks g md split then some 2
  else match s.mode g with
    | .h => if hBusy then some 3 else none
    | .m => if mBusy then some 4 else none
    | .f => if fBusy then some 5 else none
    | .off => none

/-- The units of a group: itself, its ports and their lanes. -/
def inGroup (g : Fin 64) (u : UnitId) : Bool := unitGroup u == some g

/-- A refusal under R270. -/
def groupRefused (g : Fin 64) (n : Nat) : Prog :=
  Prog.seq (Prog.set (.group g) F.GRP_STAT_REFUSE n) (raise 115 (.group g) n)

/-- Step 1 of R271: the group's ports enter unit reset; `step` says what follows when its PHY domain is off. -/
def groupDown (g : Fin 64) (step : Nat) : Prog := Prog.all [
  linkDown g,
  Prog.set (.group g) F.GRP_STAT_CHG 1,
  clearFields fun u f => inGroup g u && u != .group g && f.keep == .U,
  Prog.ports fun p => { p with grpStep := Tab.put p.grpStep g.val step }]

/-- A write of GRP_CFG (R270, R271). -/
def groupModeWrite (g : Fin 64) (v : Nat) : Prog := .look fun s =>
  let md := Mode.ofNum (v % 4)
  let split := bitOf v 2
  if md = s.mode g ∧ split = s.split g ∧ ¬ s.flag (.group g) F.GRP_STAT_CHG = true then regStore (.group g) .GRP_CFG 0 v
  else match s.groupRefuse g md split false with
    | some n => groupRefused g n
    | none => Prog.seq (regStore (.group g) .GRP_CFG 0 v) (groupDown g 1)

/-- The step of a change or power-up of a group that runs: 1 a mode change and 4 a power-off wait for the PHY domain to be off, 2 a mode
change and 3 a power-up wait for it to be on. -/
def State.grpStep (s : State) (g : Fin 64) : Nat := Tab.getD s.dev.ports.grpStep g.val 0

/-- Whether the PHY domain of a group is on. -/
def setPhy (g : Fin 64) (on : Bool) : Prog := .look fun s =>
  let m := s.fld .root F.DEV_PD_STAT_GRP_ON
  Prog.set .root F.DEV_PD_STAT_GRP_ON (if on then m ||| 2 ^ g.val else maskDiff m (2 ^ g.val))

/-- The fields of class W that a group's power-off leaves as they are: the mode and width in effect and CHG, which the change itself sets (R271,
R451), STATE, which says that the group is off, and a window's LOCK, kept with the windows (R452). -/
def offKeeps (f : Fld) : Bool :=
  [F.GRP_STAT_CHG, F.GRP_STAT_CUR_SPLIT, F.GRP_STAT_CUR_MODE, F.GRP_PWR_STATE].contains f || f.reg == .PRT_WIN_CTL

/-- A group's PHY domain goes off (R393, R452): its crossings are abandoned, and its class W and U fields clear. -/
def groupOff (g : Fin 64) : Prog := Prog.all [
  setPhy g false,
  crossAbandon g,
  clearFields fun u f => inGroup g u && (f.keep == .U || f.keep == .W) && !offKeeps f,
  Prog.link fun k => { k with lanes := Tab.keep k.lanes fun c _ => match unitOfCode c with
    | some u => !inGroup g u
    | none => true }]

/-- The group PHY domain is off (R271 steps 2 and 3, R451). -/
def phyOffDone (g : Fin 64) : Prog := .look fun s =>
  let u := UnitId.group g
  let finish := Prog.seq (Prog.set u F.GRP_STAT_CHG 0) (Prog.ports fun p => { p with grpStep := Tab.erase p.grpStep g.val })
  match s.grpStep g with
  | 1 => Prog.all [
      groupOff g,
      Prog.set u F.GRP_STAT_CUR_MODE (s.fld u F.GRP_CFG_MODE),
      Prog.set u F.GRP_STAT_CUR_SPLIT (s.fld u F.GRP_CFG_SPLIT),
      Prog.set u F.GRP_PWR_STATE 0,
      (if s.fld u F.GRP_CFG_MODE = 0 then Prog.seq finish (raise 114 u 0)
       else Prog.ports fun p => { p with grpStep := Tab.put p.grpStep g.val 2 })]
  | 4 => Prog.seq (groupOff g) finish
  | _ => .skip

/-- Whether the reference clock of a group's quadrant is good (R382, R383). -/
def State.refOk (s : State) (g : Fin 64) : Bool := bitOf (s.fld .root F.DEV_CLK_STAT_REFCLK_OK) (g.val / 16)

/-- Whether an H port may train: no reset runs (R454), its PERST_L high, its link not disabled, and neither it nor its group stopped. -/
def State.hMayTrain (s : State) (pt : PortId) : Bool :=
  s.dev.pwr.phase == .run && s.portExists pt && s.mode pt.g == .h && s.grpClocked pt.g && s.refOk pt.g && !s.flag (.port pt) F.PRT_HSTAT_PERST
    && !s.dev.ports.linkDis.contains pt.ix && !s.isContained pt && !s.isFenced (.group pt.g) && !s.dev.ws.safe
    && !s.flag (.group pt.g) F.GRP_STAT_CHG

/-- An H port begins to train where it may. -/
def hostTrain (pt : PortId) : Prog := .look fun s =>
  Prog.when (s.hMayTrain pt && s.fld (.port pt) F.PRT_HSTAT_LSTATE == 0) (Prog.set (.port pt) F.PRT_HSTAT_LSTATE 1)

/-- PRT_HSTAT.PERST of a group's ports in mode H shows the level of PERST_L (R286). -/
def perstShow (g : Fin 64) : Prog := .look fun s =>
  Prog.each (s.portsOf g) fun pt => Prog.setB (.port pt) F.PRT_HSTAT_PERST (s.dev.pwr.perstLow.contains g.val)

/-- Training begins in a group that has come up (R271 step 5). -/
def groupTrain (g : Fin 64) : Prog := .look fun s =>
  match s.mode g with
  | .f => trainStart g
  | .h => Prog.seq (perstShow g) (Prog.each (s.portsOf g) hostTrain)
  | _ => .skip

/-- The group PHY domain is on, with calibration applied (R271 steps 4 and 5, R376, R452). -/
def powerUpDone (g : Fin 64) : Prog := .look fun s =>
  let step := s.grpStep g
  Prog.when (step == 2 || step == 3) (Prog.all [
    setPhy g true,
    .look fun t => Prog.each ((t.portsOf g).flatMap t.lanesOf) laneConfig,
    Prog.set (.group g) F.GRP_STAT_CHG 0,
    Prog.ports fun p => { p with grpStep := Tab.erase p.grpStep g.val },
    (if step = 2 then raise 114 (.group g) 0 else raise 183 .root g.val),
    groupTrain g])

/-! ### Host ports (R278-R288) -/

/-- The instances a port's PRT_HCFG names. -/
def State.portInsts (s : State) (pt : PortId) : List (Fin 1024) :=
  (List.range (s.fld (.port pt) F.PRT_HCFG_NUM_VFS)).filterMap fun n => fin? 1024 (s.fld (.port pt) F.PRT_HCFG_INST_BASE + n)

/-- Whether two instance ranges share an instance (R279): a range of none shares none. -/
def instsMeet (a n b m : Nat) : Bool := decide (0 < n) && decide (0 < m) && overlap a n b m

/-- A write of PRT_HCFG (R14, R279). -/
def hcfgWrite (pt : PortId) (v : Nat) : Prog := .look fun s =>
  let u := UnitId.port pt
  let base := F.PRT_HCFG_INST_BASE.part v
  let n := min 64 (F.PRT_HCFG_NUM_VFS.part v)
  let rate := F.PRT_HCFG_MAXRATE.part v
  let clash := (s.portsIn .h).any fun q => q != pt
    && instsMeet base n (s.fld (.port q) F.PRT_HCFG_INST_BASE) (s.fld (.port q) F.PRT_HCFG_NUM_VFS)
  if s.fld u F.PRT_HSTAT_LSTATE ≠ 0 ∨ 1024 < base + n ∨ clash = true ∨ rate = 0 ∨ rate = 7 then raise 115 u 0
  else regStore u .PRT_HCFG 0 v

/-- The keys of a port's functions. -/
def ownsFn (pt : PortId) (k : Nat) : Bool := k / 128 == pt.ix

/-- A port reset (R287 steps 1 to 4), but for the state of PERST_L. -/
def portResetOne (pt : PortId) (log : Bool) : Prog := .look fun s =>
  let u := UnitId.port pt
  let perst := s.fld u F.PRT_HSTAT_PERST
  let host := s.hostOf s.swid pt
  Prog.when (s.portExists pt && s.mode pt.g == .h && s.fld u F.PRT_HSTAT_LSTATE != 4) (Prog.all [
    floodDown pt.x,
    Prog.opt host fun h => Prog.all [
      Prog.set .root F.DEV_COH_LOST_LOST (s.fld .root F.DEV_COH_LOST_LOST ||| 2 ^ h.val),
      Prog.each ((List.finRange 16).filter fun d => d != s.swid && bitOf (s.fld .root F.DEV_FAB_STAT_REACH) d.val) fun d =>
        Prog.seq (Prog.coh fun c => { c with notes := c.notes ++ [{ host := h, sw := d }] }) (outGo (.containNotice h d)),
      snoopsEndFor fun k => k == h],
    Prog.each (s.portInsts pt) insResetStart,
    clearTree u,
    ringClear pt,
    Prog.set u F.PRT_HSTAT_PERST perst,
    Prog.set u F.PRT_HSTAT_LSTATE 4,
    Prog.ports fun p => { p with
      vfBme := p.vfBme.filter fun k => !ownsFn pt k
      held := Tab.keep p.held fun k _ => !ownsFn pt k
      msix := Tab.keep p.msix fun k _ => !ownsFn pt (k / 8192)
      msixPend := p.msixPend.filter fun k => !ownsFn pt (k / 8192)
      numVfs := Tab.erase p.numVfs pt.ix
      cfg := Tab.keep p.cfg fun k _ => k / 16 != pt.ix || (decide (2 ≤ k % 16) && decide (k % 16 < 5))
      cxl := Tab.keep p.cxl fun k _ => k / 2 ^ 17 != pt.ix
      mboxOut := Tab.erase p.mboxOut pt.ix },
    Prog.when (s.flag u F.PRT_HCFG_HDM_OWN) (Prog.each (List.range 16) fun n => Prog.setn u F.PRT_WIN_CTL_EN n 0),
    Prog.when log (raise 107 u 0)])

/-- PERST_L of a group goes low or high (R286): the level of a pin, whatever the group's mode. -/
def perstPin (g : Fin 64) (low : Bool) : Prog := Prog.pwr fun p => { p with
  perstLow := let l := p.perstLow.filter fun n => n != g.val
    if low then l ++ [g.val] else l }

/-- A port reset by its cause (R286, R287): PERST_L is its group's, and counts in mode H alone. -/
def portReset (pt : PortId) (c : PortResetCause) : Prog := .look fun s =>
  match c, s.mode pt.g with
  | .perst, .h => Prog.seq (perstPin pt.g true)
      (Prog.each (s.portsOf pt.g) fun q => Prog.seq (Prog.set (.port q) F.PRT_HSTAT_PERST 1) (portResetOne q true))
  | .perst, _ => perstPin pt.g true
  | .linkDisable, .h => Prog.seq (Prog.ports fun p => { p with
      linkDis := if p.linkDis.contains pt.ix then p.linkDis else p.linkDis ++ [pt.ix] }) (portResetOne pt true)
  | _, .h => portResetOne pt true
  | _, _ => .skip

/-- 100 ms of the timebase. -/
def rrsNs : Nat := 100000000

/-- Answer configuration requests with Request Retry Status for a while (R287). -/
def rrsStart (pt : PortId) : Prog := .look fun s => Prog.ports fun p => { p with rrs := Tab.put p.rrs pt.ix (s.time + rrsNs) }

/-- The instance resets and the host walk have ended (R287 step 5). -/
def portResetDone (pt : PortId) : Prog := .look fun s =>
  let u := UnitId.port pt
  let walking := match s.hostOf s.swid pt with
    | some h => bitOf (s.fld .root F.DEV_COH_LOST_LOST) h.val
    | none => false
  Prog.when (s.fld u F.PRT_HSTAT_LSTATE == 4 && !walking && (s.portInsts pt).all fun i => s.instState i != 3) (Prog.all [
    Prog.set u F.PRT_HSTAT_LSTATE 0, rrsStart pt, hostTrain pt])

/-- PERST_L of a group rises (R286, R287). -/
def perstRise (g : Fin 64) : Prog := .look fun s => Prog.seq (perstPin g false)
  (Prog.when (s.mode g == .h) (Prog.each (s.portsOf g) fun pt => Prog.when (s.flag (.port pt) F.PRT_HSTAT_PERST) (Prog.all [
    Prog.set (.port pt) F.PRT_HSTAT_PERST 0, rrsStart pt, hostTrain pt])))

/-- The host of a port enables its link again (R287 step 5). -/
def linkEnable (pt : PortId) : Prog := .look fun s =>
  Prog.when (s.mode pt.g == .h && s.dev.ports.linkDis.contains pt.ix) (Prog.all [
    Prog.ports fun p => { p with linkDis := p.linkDis.filter fun n => n != pt.ix }, rrsStart pt, hostTrain pt])

/-- What lets a port train again (R287). -/
def portRelease : PortRelease → Prog
  | .perst g => perstRise g
  | .link pt => linkEnable pt

/-- An H port's link trains (R273): at 8 GT/s or above with CXL, which takes flit mode (R272), it serves CXL.mem, else CXL.io alone; `tx` and `rx` are what equalization
and adaptation have left on its lanes (R373, R374). -/
def hostLinkUp (pt : PortId) (cxl : Bool) (rate width flit : Nat) (tx : List LaneTx) (rx : List LaneRx) : Prog := .look fun s =>
  let u := UnitId.port pt
  let r := min rate (s.fld u F.PRT_HCFG_MAXRATE)
  let l := s.fld u F.PRT_HSTAT_LSTATE
  let mem := cxl && decide (3 ≤ r) && flit != 0
  Prog.when (s.hMayTrain pt && decide (l ≤ 1)) (Prog.all [
    Prog.set u F.PRT_HSTAT_RATE r,
    Prog.set u F.PRT_HSTAT_WIDTH (if s.split pt.g then min 4 width else width),
    Prog.set u F.PRT_HSTAT_FLIT flit,
    Prog.set u F.PRT_HSTAT_LSTATE (if mem then 3 else 2),
    Prog.setB u F.PRT_HSTAT_MEM_EN mem,
    lanesUp (s.lanesOf pt) r tx rx,
    floodUp pt.x,
    raise (if mem then 106 else 108) u 0])

/-- The functions that a function's Bus Master Enable governs: itself, and for function 0 every VF (R283). -/
def State.governed (s : State) (pt : PortId) (fn : Nat) : List Nat :=
  if fn = 0 then List.range (1 + s.fld (.port pt) F.PRT_HCFG_NUM_VFS) else [fn]

/-- Set or clear a function's own Bus Master Enable. -/
def bmePut (pt : PortId) (fn : Nat) (on : Bool) : Prog :=
  if fn = 0 then Prog.setB (.port pt) F.PRT_HSTAT_BME on
  else Prog.ports fun p => { p with
    vfBme := let l := p.vfBme.filter fun k => k != fnKey pt fn
      if on then l ++ [fnKey pt fn] else l }

/-- Whether a function's own Bus Master Enable is set. -/
def State.ownBme (s : State) (pt : PortId) (fn : Nat) : Bool :=
  if fn = 0 then s.flag (.port pt) F.PRT_HSTAT_BME else s.dev.ports.vfBme.contains (fnKey pt fn)

/-- Bus Master Enable goes to 0 (R284). -/
def bmeClear (pt : PortId) (fn : Nat) : Prog := .look fun s =>
  Prog.when (s.portExists pt && s.mode pt.g == .h && s.ownBme pt fn) (Prog.seq (bmePut pt fn false) (raise 104 (.port pt) fn))

/-- A function may master again: its held writes go out in order, its pending vectors and its waiting reads follow (R284). -/
def fnResume (pt : PortId) (fn : Nat) : Prog := .look fun s =>
  let k := fnKey pt fn
  Prog.when (s.bme pt fn) (Prog.all [
    Prog.ports fun p => { p with held := Tab.erase p.held k },
    Prog.each (Tab.getD s.dev.ports.held k []) Prog.send,
    Prog.each (s.dev.ports.msixPend.filter fun e => e / 8192 == k && s.msixWord pt fn (e / 4 % 2048) 3 % 2 == 0) fun e => Prog.seq
      (Prog.ports fun p => { p with msixPend := p.msixPend.filter fun m => m != e })
      (msixSend (XPort.int 7) pt fn (e / 4 % 2048)),
    Prog.each s.dev.mill.items fun e => Prog.when (s.instPort e.2.inst == some (pt, fn)) (itemIssue e.1)])

/-- Bus Master Enable returns to 1 (R284). -/
def bmeSet (pt : PortId) (fn : Nat) : Prog := .look fun s =>
  Prog.when (s.portExists pt && s.mode pt.g == .h) (Prog.seq (bmePut pt fn true) (Prog.each (s.governed pt fn) (fnResume pt)))

/-- The hold limit has passed with Bus Master Enable still 0 (R285). -/
def bmeExpiry (pt : PortId) (fn : Nat) : Prog := .look fun s =>
  Prog.when (s.portExists pt && s.mode pt.g == .h && !s.ownBme pt fn) (Prog.seq
    (Prog.each ((s.portInsts pt).filter fun i => match s.instPort i with
      | some p => fn == 0 || p.2 == fn
      | none => false) fun i => millBmeExpired pt i)
    (raise 105 (.port pt) fn))

/-! ### Module ports (R289-R292) -/

/-- A port holds a binding to the slot channel its PRT_MCFG names. -/
def bindPort (pt : PortId) : Prog := Prog.ports fun p => { p with bound := p.bound.filter (fun n => n != pt.ix) ++ [pt.ix] }

/-- Whether a port other than the given one holds a binding to a channel: one in mode M, or one of a group that an accepted change brings into it. -/
def State.slotTaken (s : State) (pt : PortId) (k : Fin 64) : Bool :=
  (s.portsIn .m ++ s.portsNext .m).any fun q => q != pt && s.dev.ports.bound.contains q.ix && s.mslot q == k

/-- A write of PRT_MCFG (R14, R25, R289): refused where it binds to a channel bound to another port, or changes the binding while the channel it
had or the one it names is not off. -/
def mcfgWrite (pt : PortId) (v : Nat) : Prog := .look fun s =>
  let u := UnitId.port pt
  let k : Fin 64 := ⟨v % 64, Nat.mod_lt _ (by decide)⟩
  let rate := F.PRT_MCFG_MAXRATE.part v
  let taken := s.slotTaken pt k
  let live := s.isBound pt != some k && ((s.isBound pt).any (fun j => !s.slotOff j) || !s.slotOff k)
  if taken || live || rate == 0 || rate == 7 then raise 115 u k.val else Prog.seq (regStore u .PRT_MCFG 0 v) (bindPort pt)

/-- The enumeration step of a module port: 1 link training, 3 Memory_Active, 4 the identify commands. -/
def State.enumStep (s : State) (pt : PortId) : Nat := Tab.getD s.dev.ports.enumStep pt.ix 0

/-- Set the enumeration step. -/
def setEnum (pt : PortId) (n : Nat) : Prog := Prog.ports fun p => { p with enumStep := Tab.setD p.enumStep 0 pt.ix n }

/-- The reads of a command through a module's mailbox take one entry of the tracker (R122, log entry 124). -/
def mboxOpen (pt : PortId) (full : Prog) (k : Nat → Prog) : Prog := .look fun s => ortOpen (XPort.int 7)
  { kind := .headwater, op := .ioRead, tag := BitVec.ofNat 16 pt.ix, addr := 0, len := 0, inst := none, srcSw := s.swid }
  pt.x none (bitOf (s.fld .root F.DEV_EPOCH_CUR) 0) false (.mbox pt) full fun i _ _ => k i

/-- A command goes to a module's mailbox; where the tracker has no room it waits at Headwater's port (R117, R123). -/
def mboxSend (pt : PortId) (op : Nat) (data : List Nat) : Prog :=
  mboxOpen pt (waitAt (XPort.int 7) .iotx (.mbox pt op data)) fun _ => Prog.send (.moduleCmd pt op data)

/-- The reads of a module's mailbox have ended. -/
def mboxFree (pt : PortId) : Prog := .look fun s =>
  Prog.each (s.dev.ort.entries.filter fun e => e.2.isOpen && e.2.ctx == .mbox pt) fun e => ortFree e.1

/-- Whether what waits is a command for a port's module mailbox. -/
def Wait.isMbox (w : Wait) (pt : PortId) : Bool := match w with | .mbox q _ _ => q == pt | _ => false

/-- What waits for a module's mailbox does not go out, and what is out brings nothing. -/
def mboxForget (pt : PortId) : Prog := Prog.seq
  (Prog.flood fun f => { f with waiting := Tab.keep (Tab.mapAll f.waiting fun _ l => l.filter fun w => !w.isMbox pt) fun _ l => !l.isEmpty })
  (Prog.ort fun o => { o with entries := Tab.mapAll o.entries fun _ e => if e.ctx = .mbox pt then { e with ctx := .none } else e })

/-- The MOD_MBOX commands of a port end without an answer of the module. -/
def mboxDrop (pt : PortId) : Prog := .look fun s => Prog.all [
  mboxForget pt,
  bgFinish 0x0501 (some (.port pt)) fun b => reply b.hdr stUnavailable [],
  Prog.each (Tab.getD s.dev.ports.mboxWait pt.ix []) fun w => reply w.1 stUnavailable [],
  Prog.ports fun p => { p with mboxWait := Tab.erase p.mboxWait pt.ix }]

/-- A module port leaves service (R127, R292): lost paths, and PRT_MSTAT shows EMPTY or CONTAINED. -/
def moduleDown (pt : PortId) (st : Nat) : Prog := .look fun s =>
  let u := UnitId.port pt
  Prog.when (s.mode pt.g == .m) (Prog.all [
    floodDown pt.x,
    movPortLost pt,
    setEnum pt 0,
    Prog.set u F.PRT_MSTAT_CAP_X 0,
    Prog.set u F.PRT_MSTAT_RATE 0,
    Prog.set u F.PRT_MSTAT_WIDTH 0,
    Prog.set u F.PRT_MSTAT_FAIL_CODE 0,
    Prog.set u F.PRT_MSTAT_STATE st,
    mboxDrop pt])

/-- Enumeration ends without success (R290). -/
def enumFail (pt : PortId) (code : Nat) : Prog := Prog.all [
  setEnum pt 0,
  Prog.set (.port pt) F.PRT_MSTAT_STATE 4,
  Prog.set (.port pt) F.PRT_MSTAT_FAIL_CODE code,
  raise 111 (.port pt) code]

/-- Headwater starts to enumerate the module of a port whose slot asserts PG, while no reset runs (R290, R292, R454). -/
def enumStart (pt : PortId) : Prog := .look fun s =>
  let u := UnitId.port pt
  let st := s.fld u F.PRT_MSTAT_STATE
  Prog.when (s.dev.pwr.phase == .run && s.portExists pt && s.mode pt.g == .m && s.grpClocked pt.g && s.refOk pt.g && s.mEn pt && s.flag (.slot (s.mslot pt)) F.SLT_STAT_PG
      && (st == 0 || st == 4) && !s.isContained pt && !s.isFenced (.slot (s.mslot pt)) && !s.dev.ws.safe && s.enumStep pt == 0) (Prog.all [
    setEnum pt 1,
    Prog.set u F.PRT_MSTAT_FAIL_CODE 0,
    Prog.set u F.PRT_MSTAT_STATE 1])

/-- The module link has trained (R273, R290 steps 1 and 2): CXL takes flit mode (R272). The module's Bus Master Enable is set to 0 with its configuration space read; its
MSI-X, disabled at reset, is left so (R289). -/
def moduleTrained (pt : PortId) (l : LinkCxl) (rate width : Nat) (classOk : Bool) (tx : List LaneTx) (rx : List LaneRx) : Prog := .look fun s =>
  let u := UnitId.port pt
  let r := min rate (s.fld u F.PRT_MCFG_MAXRATE)
  Prog.when (s.enumStep pt == 1) (Prog.all [
    Prog.set u F.PRT_MSTAT_RATE r,
    Prog.set u F.PRT_MSTAT_WIDTH (if s.split pt.g then min 4 width else width),
    lanesUp (s.lanesOf pt) r tx rx,
    floodUp pt.x,
    (if !l.cxl || !l.flit || decide (r < 3) then Prog.seq (raise 108 u 0) (enumFail pt 2)
     else Prog.seq (Prog.set u F.PRT_MSTAT_STATE 2)
      (if classOk then Prog.seq (Prog.send (.moduleCfg pt .bmeOff)) (setEnum pt 3) else enumFail pt 1))])

/-- The module reports Memory_Active (R290 steps 3 and 4). -/
def memoryActive (pt : PortId) : Prog := .look fun s => Prog.when (s.enumStep pt == 3) (Prog.all [
  setEnum pt 4, mboxSend pt 0x4000 [], mboxSend pt 0x4100 []])

/-- The capacity that is used of a module (R290): whole 256 MiB, at most 4 TiB, in 2 MiB units. -/
def usableUnits (cap : Nat) : Nat := min (2 ^ 42) (cap / 2 ^ 28 * 2 ^ 28) / 2 ^ 21

/-- Start the MOD_MBOX command that waits first, when the mailbox is free (R292). -/
def mboxNext (pt : PortId) : Prog := .look fun s =>
  match Tab.getD s.dev.ports.mboxWait pt.ix [] with
  | [] => .skip
  | w :: r => Prog.when ((s.bgOf 0x0501 (some (.port pt))).isNone) (Prog.all [
      Prog.ports fun p => { p with mboxWait := if r.isEmpty then Tab.erase p.mboxWait pt.ix else Tab.put p.mboxWait pt.ix r },
      bgStart w.1 0x0501 (some (.port pt)) [],
      mboxSend pt w.2.1 w.2.2])

/-- A command through the module's mailbox returns (R290 steps 4 to 6, R292): the volatile capacity and whether decoder 0 committed; or the
answer of a MOD_MBOX. A module that becomes READY has Mem_Enable set; its CDAT is read (R272, log entry 148). -/
def mailboxResponse (pt : PortId) (cap : Nat) (commit : Bool) (data : List Nat) : Prog := Prog.seq (mboxFree pt) (.look fun s =>
  let u := UnitId.port pt
  if s.enumStep pt = 4 then
    if cap < 2 ^ 28 then enumFail pt 4
    else if !commit then Prog.seq (Prog.send (.moduleHdm pt (usableUnits cap * 2 ^ 21))) (enumFail pt 5)
    else Prog.all [
      Prog.send (.moduleHdm pt (usableUnits cap * 2 ^ 21)),
      Prog.send (.moduleCfg pt .memOn),
      Prog.send (.moduleCfg pt .cdat),
      setEnum pt 0,
      Prog.set u F.PRT_MSTAT_CAP_X (usableUnits cap),
      Prog.set u F.PRT_MSTAT_STATE 3,
      raise 110 u (usableUnits cap)]
  else Prog.seq (bgFinish 0x0501 (some u) fun b => reply b.hdr stOk data) (mboxNext pt))

/-- The path of a read of a module's mailbox is lost (R128): its command ends with an error, or the enumeration as at a timeout. -/
def mboxLost (pt : PortId) : Prog := .look fun s =>
  if s.enumStep pt = 4 then enumFail pt 3
  else Prog.seq (bgFinish 0x0501 (some (.port pt)) fun b => reply b.hdr stUnavailable []) (mboxNext pt)

/-- An enumeration step has passed its limit (R290). -/
def enumTimeout (pt : PortId) : Prog := .look fun s =>
  match s.enumStep pt with
  | 1 => enumFail pt 2
  | 3 => enumFail pt 7
  | 4 => enumFail pt 3
  | _ => .skip

/-- Headwater polls a module's event records, relays and clears them (R291), and reads and clears its AER (R272); a poll that finds no tracker entry is not made. -/
def eventPoll (pt : PortId) (records : List (Nat × Nat)) : Prog := .look fun s =>
  Prog.when (s.fld (.port pt) F.PRT_MSTAT_STATE == 3 && s.mode pt.g == .m) (mboxOpen pt .skip fun i => Prog.all [
    ortFree i,
    Prog.send (.moduleCmd pt 0x0100 []),
    Prog.each records fun r => raise 112 (.port pt) (r.1 * 2 ^ 16 + r.2),
    Prog.when (!records.isEmpty) (Prog.send (.moduleCmd pt 0x0101 (records.map fun r => r.2))),
    Prog.send (.moduleCfg pt .aer)])

/-- A module reports a fatal error or viral (R291): EV113 contains its port. -/
def moduleFatal (pt : PortId) : Prog := .look fun s =>
  Prog.when (s.fld (.port pt) F.PRT_MSTAT_STATE == 3 && s.mode pt.g == .m)
    (Prog.seq (raise 113 (.port pt) 0) (moduleDown pt 5))

/-- MOD_MBOX (R292): a command for the mailbox of a READY module. -/
def modMbox (h : Hdr) (pt : PortId) (op : Nat) (data : List Nat) : Prog := .look fun s =>
  if s.mode pt.g ≠ .m then reply h stInvalid []
  else if s.fld (.port pt) F.PRT_MSTAT_STATE ≠ 3 then reply h stUnavailable []
  else Prog.seq (Prog.ports fun p => { p with
      mboxWait := Tab.put p.mboxWait pt.ix (Tab.getD p.mboxWait pt.ix [] ++ [(h, op, data)]) }) (mboxNext pt)

/-- The ports of a group go down with their clock (R383): port resets, and module links down. -/
def groupClockLost (g : Fin 64) : Prog := .look fun s =>
  match s.mode g with
  | .h => Prog.each (s.portsOf g) fun pt => portResetOne pt true
  | .m => Prog.each (s.portsOf g) fun pt => moduleDown pt 0
  | .f => linkDown g
  | .off => .skip

end Sys2Proof.Machine
end

