-- ==== Sys2Proof/Machine/SlotOps.lean ====
section
/-!
DEFINITION. Machine/SlotOps.lean: slot channels (spec 14): states, admissibility, refusals, power-good, removal, protection, the thermal model
and the LEDs; the containment of a module port.
-/
namespace Sys2Proof.Machine

/-! ### The states of a channel (R398) -/

/-- The states of R398 by their codes. -/
inductive SlotSt where
  | empty | off | armOn | ramp | on | armOff | reqOff | discharge | cooldown | fault | fenced
  deriving DecidableEq, Repr

/-- The code of a state. -/
def SlotSt.num : SlotSt → Nat
  | .empty => 0 | .off => 1 | .armOn => 2 | .ramp => 3 | .on => 4 | .armOff => 5 | .reqOff => 6 | .discharge => 7
  | .cooldown => 8 | .fault => 9 | .fenced => 10

/-- The state a code stands for. -/
def SlotSt.ofNum : Nat → SlotSt
  | 1 => .off | 2 => .armOn | 3 => .ramp | 4 => .on | 5 => .armOff | 6 => .reqOff | 7 => .discharge
  | 8 => .cooldown | 9 => .fault | 10 => .fenced | _ => .empty

/-- Whether a state drives the gate (R398). -/
def SlotSt.drives : SlotSt → Bool
  | .ramp | .on | .armOff | .reqOff => true
  | _ => false

/-- Whether PG may be asserted in a state (R405). -/
def SlotSt.pgState : SlotSt → Bool
  | .on | .armOff | .reqOff => true
  | _ => false

/-- The state of a channel. -/
def State.slotSt (s : State) (k : Fin 64) : SlotSt := SlotSt.ofNum (s.slotState k)

/-- Whether PG is asserted. -/
def State.slotPg (s : State) (k : Fin 64) : Bool := s.flag (.slot k) F.SLT_STAT_PG

/-- Record the cause of a stop. -/
def slotCause (k : Fin 64) (c : Nat) : Prog := Prog.set (.slot k) F.SLT_STAT_CAUSE c

/-! ### Containment of a module port (R424, R432) -/

/-- Whether the slot of a module port's channel is empty. -/
def State.moduleGone (s : State) (pt : PortId) : Bool := (s.isBound pt).any fun k => !s.flag (.slot k) F.SLT_STAT_PRSNT

/-- Contain a module port: lost paths, and PRT_MSTAT shows CONTAINED, or EMPTY where the module has been removed (R292). -/
def moduleContain (pt : PortId) : Prog := .look fun s => Prog.seq
  (Prog.ws fun w => { w with contained := if w.contained.contains (.port pt) then w.contained else w.contained ++ [.port pt] })
  (moduleDown pt (if s.moduleGone pt then 0 else 5))

/-- End the containment of a module port (R432). -/
def moduleRelease (pt : PortId) : Prog := .look fun s => Prog.when (s.isContained pt) (Prog.seq
  (Prog.ws fun w => { w with contained := w.contained.filter fun u => u != .port pt })
  (Prog.when (s.fld (.port pt) F.PRT_MSTAT_STATE == 5) (Prog.set (.port pt) F.PRT_MSTAT_STATE 0)))

/-- Contain the port bound to a channel (R406, R410); the device safe state has already taken every port down. -/
def slotContain (k : Fin 64) : Prog := .look fun s => Prog.when (!s.dev.ws.safe) (Prog.opt (s.boundPort k) moduleContain)

/-! ### Entering a state -/

/-- The gate turns off (R398, R405 rule 4): PG falls with it, and the module of the bound port, which is in reset while PG is low (R289), loses
its link. -/
def slotGateOff (k : Fin 64) : Prog := .look fun s => Prog.all [
  Prog.set (.slot k) F.SLT_STAT_GATE 0,
  Prog.set (.slot k) F.SLT_STAT_PG 0,
  Prog.set (.slot k) F.SLT_STAT_INLIM 0,
  Prog.when (s.slotPg k) (Prog.opt (s.boundPort k) fun pt => moduleDown pt 0)]

/-- A channel enters a state: the gate follows it, and a bound port contained by its slot is released in OFF and EMPTY (R398, R432). -/
def slotEnter (k : Fin 64) (st : SlotSt) : Prog := Prog.all [
  Prog.set (.slot k) F.SLT_STAT_STATE st.num,
  (if st.drives then Prog.set (.slot k) F.SLT_STAT_GATE 1 else slotGateOff k),
  Prog.when (st == .off || st == .empty) (.look fun s => Prog.opt (s.boundPort k) moduleRelease)]

/-- 2 s of the timebase. -/
def flashNs : Nat := 2000000000

/-- A refused press or power-on shows on ATTNLED for 2 s (R415). -/
def slotFlash (k : Fin 64) : Prog := .look fun s => Prog.slot fun v => { v with flash := Tab.put v.flash k.val (s.time + flashNs) }

/-- Record a refusal (R399). -/
def slotRefuse (k : Fin 64) (code : Nat) : Prog := Prog.seq (Prog.set (.slot k) F.SLT_STAT_REFUSE code) (slotFlash k)

/-- The thermal model at cold reset (R412). -/
def SlotHeat.cold : SlotHeat :=
  { t1 := ⟨0, 1⟩, t2 := ⟨0, 1⟩, t3 := ⟨0, 1⟩, tj := ⟨0, 1⟩, hot := false }

/-- The thermal model of a channel. -/
def State.slotHeat (s : State) (k : Fin 64) : SlotHeat := Tab.getD s.dev.slot.heat k.val SlotHeat.cold

/-- Whether an exact temperature is at or above a whole number of degrees. -/
def fracGe (a : Frac) (n : Nat) : Bool := decide ((n : Int) * (a.den : Int) ≤ a.num)

/-- The first condition of R399 that refuses a power-on, in the order of its list; no channel powers its slot in the device safe state. -/
def State.slotAdmit (s : State) (k : Fin 64) : Option Nat :=
  let u := UnitId.slot k
  if s.dev.ws.safe then some 1
  else if !s.flag u F.SLT_STAT_PRSNT then some 3
  else if s.flag u F.SLT_CFG_MRL_EN && !s.flag u F.SLT_STAT_MRL then some 4
  else if (s.boundPort k).isNone then some 2
  else if fracGe (s.slotHeat k).tj (s.fld u F.SLT_TLIM_TJ_WARN) then some 6
  else none

/-! ### Presence, removal and latch (R400, R406, R407) -/

/-- Presence has been stable for 100 ms (R400, R407). -/
def slotPresent (k : Fin 64) (latch : Bool) : Prog := .look fun s =>
  let u := UnitId.slot k
  Prog.seq (Prog.setB u F.SLT_STAT_MRL latch) (Prog.when (!s.flag u F.SLT_STAT_PRSNT) (Prog.all [
    Prog.set u F.SLT_STAT_PRSNT 1,
    Prog.addSat u F.SLT_CNT_INSERT 1,
    (match s.slotSt k with
      | .empty => Prog.seq (slotEnter k .off) (raise 152 u 0)
      | .cooldown => Prog.seq (Prog.set u F.SLT_STAT_REINS 1) (raise 155 u 0)
      | _ => .skip)]))

/-- A removal, latch opening or forced press with the gate driven (R406): the bound port is contained with it. -/
def slotSurprise (k : Fin 64) (cause : Nat) : Prog := Prog.all [
  slotCause k cause,
  Prog.when (cause != 7) (Prog.addSat (.slot k) F.SLT_CNT_SURPRISE 1),
  slotEnter k (if cause = 5 then .cooldown else .discharge),
  slotContain k,
  raise 154 (.slot k) cause]

/-- The module is removed (R406, R407). -/
def slotRemoval (k : Fin 64) : Prog := .look fun s =>
  let u := UnitId.slot k
  let st := s.slotSt k
  Prog.when (s.flag u F.SLT_STAT_PRSNT) (Prog.seq (Prog.set u F.SLT_STAT_PRSNT 0) (
    if st.drives then slotSurprise k 5
    else Prog.seq (Prog.when (st != .fenced && st != .empty) (slotEnter k .cooldown)) (raise 153 u 0)))

/-- The latch opens (R406): with the gate off the state does not change. -/
def slotLatchOpen (k : Fin 64) : Prog := .look fun s => Prog.seq
  (Prog.set (.slot k) F.SLT_STAT_MRL 0)
  (Prog.when ((s.slotSt k).drives && s.flag (.slot k) F.SLT_CFG_MRL_EN) (slotSurprise k 6))

/-- COOLDOWN ends (R407). -/
def slotCooldownEnd (k : Fin 64) : Prog := .look fun s => Prog.when (s.slotSt k == .cooldown)
  (slotEnter k (if s.flag (.slot k) F.SLT_STAT_PRSNT then .off else .empty))

/-! ### Buttons (R400, R414) -/

/-- The states in which every press is ignored (R414). -/
def pressIgnored : SlotSt → Bool
  | .empty | .cooldown | .discharge | .ramp | .fenced => true
  | _ => false

/-- An ignored press flashes ATTNLED, and in COOLDOWN records code 5 (R414). -/
def slotPressIgnored (k : Fin 64) (st : SlotSt) : Prog := Prog.seq (slotFlash k)
  (Prog.when (st == .cooldown) (Prog.set (.slot k) F.SLT_STAT_REFUSE 5))

/-- A short press is released (R400); EV163 gives the request: 1 on, 2 off, 3 cancel. -/
def slotShortPress (k : Fin 64) : Prog := .look fun s =>
  let st := s.slotSt k
  Prog.seq (Prog.set (.slot k) F.SLT_STAT_BTN 0) (match st with
    | .off =>
      if !s.flag (.slot k) F.SLT_CFG_BTN_ON then raise 163 (.slot k) 1
      else match s.slotAdmit k with
        | some c => slotRefuse k c
        | none => slotEnter k .armOn
    | .armOn => slotEnter k .off
    | .on => slotEnter k .armOff
    | .armOff => slotEnter k .on
    | .reqOff => Prog.seq (slotEnter k .on) (raise 163 (.slot k) 3)
    | .fault => slotEnter k .discharge
    | _ => slotPressIgnored k st)

/-- The button has been held for 5 s (R400, R414). -/
def slotLongPress (k : Fin 64) : Prog := .look fun s =>
  let st := s.slotSt k
  Prog.seq (Prog.set (.slot k) F.SLT_STAT_BTN 1) (
    if pressIgnored st then slotPressIgnored k st
    else Prog.when (st.pgState && s.flag (.slot k) F.SLT_CFG_FORCE_EN) (slotSurprise k 7))

/-! ### Manager commands (R400, R402) -/

/-- The refusal code of SLOT ON, or none where it powers the slot or finds it on: code 7 in FENCED (R411), code 2 unbound (R397), code 5 in
COOLDOWN, code 1 in any other state that does not accept it. -/
def State.slotOnCode (s : State) (k : Fin 64) : Option Nat :=
  match s.slotSt k with
  | .on => none
  | .off | .armOn => s.slotAdmit k
  | .fenced => some 7
  | st => if (s.boundPort k).isNone then some 2 else if st = .cooldown then some 5 else some 1

/-- Refuse an operation (R402). -/
def slotOpRefuse (k : Fin 64) (code : Nat) (flash : Bool) (ret : Nat → Prog) : Prog := Prog.all [
  Prog.set (.slot k) F.SLT_STAT_REFUSE code,
  Prog.when flash (slotFlash k),
  raise 164 (.slot k) code,
  ret code]

/-- SLOT ON; `ret` takes the refusal code, 0 for none. -/
def slotOn (k : Fin 64) (ret : Nat → Prog) : Prog := .look fun s =>
  match s.slotOnCode k with
  | some c => slotOpRefuse k c true ret
  | none => Prog.seq (Prog.when (s.slotSt k != .on) (slotEnter k .ramp)) (ret 0)

/-- SLOT OFF (R400, R403, R410). -/
def slotOffOp (k : Fin 64) (ret : Nat → Prog) : Prog := .look fun s =>
  match s.slotSt k with
  | .off => ret 0
  | .armOn => Prog.seq (slotEnter k .off) (ret 0)
  | .ramp | .on | .armOff | .reqOff | .fault => Prog.seq (slotEnter k .discharge) (ret 0)
  | _ => slotOpRefuse k 1 false ret

/-- SLOT ABORT (R400). -/
def slotAbort (k : Fin 64) (ret : Nat → Prog) : Prog := .look fun s =>
  match s.slotSt k with
  | .armOn => Prog.seq (slotEnter k .off) (ret 0)
  | .armOff => Prog.seq (slotEnter k .on) (ret 0)
  | .reqOff => Prog.all [slotEnter k .on, raise 163 (.slot k) 3, ret 0]
  | _ => slotOpRefuse k 1 false ret

/-- IDENT_ON and IDENT_OFF (R415). -/
def slotIdent (k : Fin 64) (on : Bool) (ret : Nat → Prog) : Prog := Prog.seq (Prog.setB (.slot k) F.SLT_STAT_IDENT on) (ret 0)

/-- An operation by its number (R402); no operation for 0. -/
def slotOp (k : Fin 64) (op : Nat) (ret : Nat → Prog) : Prog :=
  match op with
  | 1 => slotOn k ret
  | 2 => slotOffOp k ret
  | 3 => slotAbort k ret
  | 4 => slotIdent k true ret
  | 5 => slotIdent k false ret
  | _ => ret 0

/-- The status of SLOT_CMD for a refusal code (R402). -/
def slotStatus : Nat → Nat
  | 0 => stOk
  | 2 | 7 => stUnavailable
  | 3 | 4 => stDenied
  | _ => stBusy

/-- An operation that stood in a channel's shadow has been taken: a SLOT_CMD that waits for it has its status, and is answered with the last one. -/
def slotTaken (k : Fin 64) (st : Nat) : Prog := .look fun s => Prog.opt s.dev.hw.slot fun w => Prog.when (w.left.contains k.val) (
  let w' : SlotWait := { w with
    left := w.left.filter fun n => n != k.val
    tally := w.tally.add (.slot k) st }
  if w'.left.isEmpty then Prog.seq (Prog.hw fun h => { h with slot := none }) (tallyReply w'.hdr w'.tally)
  else Prog.hw fun h => { h with slot := some w' })

/-- A write of SLT_CMD as the slot die takes it (R402); OP 6 and 7 are reserved. -/
def slotCmdTake (k : Fin 64) (op : Nat) : Prog :=
  if 5 < op then Prog.seq (raise 164 (.slot k) 0) (slotTaken k stInvalid) else slotOp k op fun code => slotTaken k (slotStatus code)

/-! ### Power-on, power-good, discharge (R400, R404, R405) -/

/-- The cancel window ends (R400). -/
def slotArmEnd (k : Fin 64) : Prog := .look fun s =>
  match s.slotSt k with
  | .armOn => match s.slotAdmit k with
    | none => slotEnter k .ramp
    | some c => Prog.seq (slotRefuse k c) (slotEnter k .off)
  | .armOff => Prog.seq (slotEnter k .reqOff) (raise 163 (.slot k) 2)
  | _ => .skip

/-- VOUT reaches PG_THR in RAMP (R400). -/
def slotRampEnd (k : Fin 64) : Prog := .look fun s => Prog.when (s.slotSt k == .ramp) (slotEnter k .on)

/-- A channel enters FAULT with a cause, through the path of R406 for the bound port (R410). -/
def slotFault (k : Fin 64) (cause ev : Nat) : Prog := Prog.all [
  slotCause k cause, slotEnter k .fault, slotContain k, raise ev (.slot k) cause]

/-- RAMP_MS has passed in RAMP (R400). -/
def slotRampTimeout (k : Fin 64) : Prog := .look fun s => Prog.when (s.slotSt k == .ramp) (slotFault k 4 165)

/-- VOUT has held through t_PGDLY with the fault timer idle (R405 rules 1 and 2): PG asserts, and the bound port's module is enumerated. -/
def slotPgAssert (k : Fin 64) : Prog := .look fun s =>
  Prog.when ((s.slotSt k).pgState && !s.slotPg k && !s.flag (.slot k) F.SLT_STAT_INLIM) (Prog.all [
    Prog.set (.slot k) F.SLT_STAT_PG 1,
    raise 156 (.slot k) 0,
    Prog.opt (s.boundPort k) enumStart])

/-- VOUT drops below PG_THR with the gate on (R405 rule 3). -/
def slotPgLost (k : Fin 64) : Prog := .look fun s => Prog.when ((s.slotSt k).drives && s.slotPg k) (Prog.all [
  Prog.set (.slot k) F.SLT_STAT_PG 0,
  raise 166 (.slot k) 0,
  Prog.opt (s.boundPort k) fun pt => moduleDown pt 0])

/-- DISCHARGE ends by its threshold or its limit (R400, R411): EV157 reports the residual voltage. -/
def slotDischarged (k : Fin 64) (vout : Nat) : Prog := .look fun s => Prog.when (s.slotSt k == .discharge) (Prog.all [
  Prog.set (.slot k) F.SLT_MEAS_VOUT (min 2047 (vout / 10)),
  slotEnter k .off,
  raise 157 (.slot k) (min 2047 (vout / 10))])

/-- AUTO_OFF in REQ_OFF with the bound port unreferenced (R400). -/
def slotAutoOff (k : Fin 64) : Prog := .look fun s => Prog.opt (s.boundPort k) fun pt =>
  Prog.when (s.slotSt k == .reqOff && s.flag (.slot k) F.SLT_CFG_AUTO_OFF && !s.portReferenced pt) (slotEnter k .discharge)

/-! ### Protection (R408-R411) -/

/-- The current reaches ILIM with the gate driven (R408): the fault timer runs while INLIM is set. -/
def slotLimit (k : Fin 64) : Prog := .look fun s =>
  Prog.when (s.slotSt k).drives (Prog.set (.slot k) F.SLT_STAT_INLIM 1)

/-- The current falls below ILIM with the gate driven (R408): the fault timer clears. -/
def slotLimitEnd (k : Fin 64) : Prog := .look fun s =>
  Prog.when (s.slotSt k).drives (Prog.set (.slot k) F.SLT_STAT_INLIM 0)

/-- The fault timer reaches FT_US (R408). -/
def slotTimerExpiry (k : Fin 64) : Prog := .look fun s =>
  Prog.when ((s.slotSt k).drives && s.flag (.slot k) F.SLT_STAT_INLIM)
    (Prog.seq (Prog.addSat (.slot k) F.SLT_CNT_LIMIT 1) (slotFault k 1 158))

/-- The hard-short comparator trips (R409). -/
def slotHardShort (k : Fin 64) : Prog := .look fun s =>
  Prog.when (s.slotSt k).drives (Prog.seq (Prog.addSat (.slot k) F.SLT_CNT_SHORT 1) (slotFault k 2 159))

/-- A channel is fenced until cold reset (R411): gate off, PG low, the bound port contained. -/
def slotFence (k : Fin 64) : Prog := Prog.all [
  slotCause k 9,
  slotEnter k .fenced,
  Prog.ws fun w => { w with fenced := w.fenced ++ [.slot k] },
  slotContain k]

/-- The pass transistor has failed (R411): the channel is fenced; in the safe state no fencing fires (R427). -/
def slotPassFailure (k : Fin 64) : Prog := .look fun s =>
  Prog.when (!(s.slotSt k).drives && s.slotSt k != .fenced)
    (Prog.seq (Prog.when (!s.dev.ws.safe) (slotFence k)) (raise 162 (.slot k) 9))

/-- The device safe state turns a gate off (R410, R426). -/
def slotSafe (k : Fin 64) : Prog := .look fun s =>
  if (s.slotSt k).drives then Prog.seq (slotCause k 8) (slotEnter k .fault) else slotGateOff k

/-- A write of SLT_ILIM as the slot die takes it (R408): ILIM 500-20,000 mA and ILIM times RSHUNT 5-50 mV. -/
def slotIlimTake (k : Fin 64) (v : Nat) : Prog :=
  let ma := F.SLT_ILIM_ILIM_MA.part v
  let nv := ma * F.SLT_ILIM_RSHUNT_UOHM.bring (F.SLT_ILIM_RSHUNT_UOHM.part v)
  if ma < 500 ∨ 20000 < ma ∨ nv < 5000000 ∨ 50000000 < nv then
    Prog.seq (crossRefuse (.slot k) .SLT_ILIM 0 v) (raise 164 (.slot k) 0)
  else regStore (.slot k) .SLT_ILIM 0 v

/-! ### The thermal model (R412, R413) -/

/-- A fraction in lowest terms; one over nothing stands for zero. -/
def frac (n d : Int) : Frac :=
  if d = 0 then ⟨0, 1⟩
  else
    let m : Int := if d < 0 then -n else n
    let g := Nat.gcd m.natAbs d.natAbs
    ⟨m / (g : Int), d.natAbs / g⟩

/-- A sum of fractions. -/
def fracAdd (a b : Frac) : Frac := frac (a.num * b.den + b.num * a.den) (a.den * b.den)

/-- A difference of fractions. -/
def fracSub (a b : Frac) : Frac := frac (a.num * b.den - b.num * a.den) (a.den * b.den)

/-- A product of fractions. -/
def fracMul (a b : Frac) : Frac := frac (a.num * b.num) (a.den * b.den)

/-- A quotient of fractions. -/
def fracDiv (a b : Frac) : Frac := frac (a.num * b.den) (a.den * b.num)

/-- A whole number. -/
def fracOf (n : Int) : Frac := ⟨n, 1⟩

/-- Twice the sum of the first n terms of y + y^3/3 + y^5/5 + ...: the logarithm of (1+y)/(1-y). -/
def atanhSum : Nat → Frac → Frac
  | 0, _ => fracOf 0
  | n + 1, y => fracAdd (atanhSum n y) (frac (2 * y.num ^ (2 * n + 1)) ((2 * (n : Int) + 1) * (y.den : Int) ^ (2 * n + 1)))

/-- The logarithm of a positive ratio, halved or doubled into 2/3 to 4/3 first (log entry 50). -/
def lnRatio : Nat → Nat → Nat → Frac
  | 0, _, _ => fracOf 0
  | f + 1, a, b =>
    let ln2 := atanhSum 12 ⟨1, 3⟩
    if 4 * b < 3 * a then fracAdd ln2 (lnRatio f a (2 * b))
    else if 3 * a < 2 * b then fracSub (lnRatio f (2 * a) b) ln2
    else atanhSum 12 (frac ((a : Int) - b) ((a : Int) + b))

/-- The thermistor temperature in °C by the B-parameter equation (R412), or none where it lies outside -40 to +200 °C or has no value. -/
def ntcTemp (ohms r26 b : Nat) : Option Frac :=
  if ohms = 0 ∨ r26 = 0 ∨ b = 0 then none
  else
    let inv := fracAdd (frac 20 5963) (fracDiv (lnRatio 64 ohms (r26 * 10)) (fracOf b))
    let t := fracSub (fracDiv (fracOf 1) inv) (frac 5463 20)
    if inv.num ≤ 0 || t.num < -40 * (t.den : Int) || 200 * (t.den : Int) < t.num then none else some t

/-- One update of a pole: t + (p·r − t)·1 µs/τ, with p in µW, r in 0.01 K/W and τ in 10 µs. A pole whose τ is 0 has no value in the spec. -/
def poleStep (p : Int) (r tau : Nat) (t open_ : Frac) : Frac :=
  if tau = 0 then open_
  else fracAdd t (fracMul (fracSub (frac (p * (r : Int)) 100000000) t) (frac 1 (10 * (tau : Int))))

/-- A fraction as a number of tenths, rounded down or up as a free bit says: the spec gives no rounding for SLT_MEAS.TJ. -/
def tenths (a : Frac) (up : Bool) : Int :=
  let n := a.num * 10
  let d : Int := a.den
  if up && n % d != 0 then n / d + 1 else n / d

/-- The update of a channel's junction estimate and measurements (R412, R413). -/
def slotThermal (k : Fin 64) (m : SlotSample) : Prog := .look fun s =>
  let u := UnitId.slot k
  let old := s.slotHeat k
  let p := ((m.vin : Int) - m.vout) * m.iout
  let src := s.fld u F.SLT_CFG_TSRC
  let ntc := if src = 0 then none else m.ntc.bind fun r => ntcTemp r (s.fld u F.SLT_NTC_R26) (s.fld u F.SLT_NTC_B)
  let bad := src != 0 && ntc.isNone
  let tAmb := fracOf (signed 8 (s.fld u F.SLT_TLIM_T_AMB))
  let was := s.flag u F.SLT_STAT_NTC_BAD
  Prog.free fun n =>
    let v := Config.freeValue n
    let free : Frac := ⟨v.toInt, 65536⟩
    let t1 := poleStep p (s.fld u F.SLT_THM_R1) (s.fld u F.SLT_TAU_TAU1) old.t1 free
    let t2 := poleStep p (s.fld u F.SLT_THM_R2) (s.fld u F.SLT_TAU_TAU2) old.t2 free
    let t3 := poleStep p (s.fld u F.SLT_THM_R3) (s.fld u F.SLT_TAU_TAU3) old.t3 free
    let amb := match ntc with
      | some t => if src = 2 then t else tAmb
      | none => tAmb
    let model := fracAdd amb (fracAdd t1 (fracAdd t2 t3))
    let tj := match ntc with
      | some t => if src = 1 then t else model
      | none => model
    let hot := fracGe tj (s.fld u F.SLT_TLIM_TJ_WARN)
    Prog.all [
      Prog.slot fun w => { w with heat := Tab.put w.heat k.val { t1, t2, t3, tj, hot } },
      Prog.set u F.SLT_MEAS_VOUT (min 2047 (m.vout / 10)),
      Prog.set u F.SLT_MEAS_IOUT (min 32767 m.iout),
      Prog.set u F.SLT_MEAS_TJ (unsigned 16 (tenths tj (v.getLsbD 0))),
      Prog.setB u F.SLT_STAT_MRL m.latch,
      Prog.setB u F.SLT_STAT_BTN m.button,
      Prog.setB u F.SLT_STAT_NTC_BAD bad,
      Prog.when (bad && !was) (raise 161 u 1),
      Prog.when (hot && !old.hot) (raise 161 u 0),
      Prog.when (fracGe tj (s.fld u F.SLT_TLIM_TJ_MAX) && (s.slotSt k).drives)
        (Prog.seq (Prog.addSat u F.SLT_CNT_THERM 1) (slotFault k 3 160))]

/-! ### The LEDs (R415) -/

/-- The patterns of an LED (R415). -/
inductive Led where
  | dark | lit | slow | fast
  deriving DecidableEq, Repr

/-- The patterns of PWRLED and ATTNLED by state (R415). -/
def ledTable (present : Bool) : SlotSt → Led × Led
  | .empty | .off => (.dark, .dark)
  | .armOn | .ramp | .armOff | .discharge => (.slow, .dark)
  | .on => (.lit, .dark)
  | .reqOff => (.fast, .dark)
  | .cooldown => (.dark, if present then .slow else .dark)
  | .fault => (.dark, .lit)
  | .fenced => (.lit, .fast)

/-- The patterns a channel shows (R415): a refusal before the identify pattern, and PWRLED never dark at or above VOFF_THR. -/
def State.leds (s : State) (k : Fin 64) : Led × Led :=
  let u := UnitId.slot k
  let l := ledTable (s.flag u F.SLT_STAT_PRSNT) (s.slotSt k)
  let attn := if l.2 ≠ .dark then l.2
    else if s.time < Tab.getD s.dev.slot.flash k.val 0 then .fast
    else if s.flag u F.SLT_STAT_IDENT then .slow
    else .dark
  let pwr := if l.1 = .dark ∧ s.fld u F.SLT_VTHR_VOFF_THR ≤ s.fld u F.SLT_MEAS_VOUT then .slow else l.1
  (pwr, attn)

end Sys2Proof.Machine
end

