-- ==== Sys2Proof/Machine/SafeOps.lean ====
section
/-!
DEFINITION. Machine/SafeOps.lean: safe actions (R424), the device safe state (R426), acknowledgement and release (R431, R432), engine faults
(R434), ALIVE (R436) and fault injection (R440, R441).
-/
namespace Sys2Proof.Machine

/-! ### ALIVE (R436) -/

/-- Half a period of ALIVE: 50 µs. -/
def aliveHalf : Nat := 50000

/-- The level of ALIVE: a wave of 10 kHz from its start, or the level at which it stopped. -/
def State.alive (s : State) : Bool :=
  if s.dev.ws.aliveOn then (s.time - s.dev.ws.aliveSince) / aliveHalf % 2 == 0 else s.dev.ws.aliveLevel

/-- ALIVE stops and holds its level. -/
def aliveStop : Prog := .look fun s => Prog.ws fun w => { w with
  aliveOn := false
  aliveLevel := s.alive }

/-- ALIVE starts. -/
def aliveStart : Prog := .look fun s => Prog.when (!s.dev.ws.aliveOn) (Prog.ws fun w => { w with
  aliveOn := true
  aliveSince := s.time })

/-! ### Safe actions of ports, slots and groups (R424) -/

/-- The safe action of a port by its mode: steps 2 to 4 of R287 for an H port, R347 for an F port, R292 for an M port; the port is held contained. -/
def portContain (pt : PortId) : Prog := .look fun s => Prog.when (s.portExists pt) (
  match s.mode pt.g with
  | .m => moduleContain pt
  | .h => Prog.seq (Prog.ws fun w => { w with contained := w.contained.filter (fun u => u != .port pt) ++ [.port pt] })
      (portResetOne pt false)
  | .f => Prog.seq (Prog.ws fun w => { w with contained := w.contained.filter (fun u => u != .port pt) ++ [.port pt] })
      (linkDown pt.g)
  | .off => .skip)

/-- The safe action of a slot for a fault of its channel: gate discharged, PG low, and the bound port contained. A gate that still drives goes to
FAULT with the last cause. -/
def slotAction (k : Fin 64) : Prog := .look fun s => Prog.seq
  (Prog.when (s.slotSt k).drives (slotEnter k .fault)) (slotContain k)

/-- The port a unit is or lies in. -/
def unitPort : UnitId → Option PortId
  | .port pt => some pt
  | .lane ln => some ln.port
  | _ => none

/-! ### The device safe state (R426) -/

/-- What leaves by Headwater's own paths and not by a port. -/
def Out.byHeadwater : Out → Bool
  | .reply _ | .regValue _ _ | .debugData _ => true
  | _ => false

/-- Every transmitter goes to electrical idle and all ingress is discarded (R426, R454 step 2): the host links first, and nothing that a port would send meanwhile leaves, so
that no outstanding request is answered. -/
def allIdle : Prog := .look fun s => Prog.all [
  Prog.each (s.portsIn .h) fun pt => Prog.all [
    floodDown pt.x,
    Prog.set (.port pt) F.PRT_HSTAT_LSTATE 0,
    Prog.set (.port pt) F.PRT_HSTAT_MEM_EN 0],
  Prog.each (s.portsIn .m) fun pt => moduleDown pt (if s.isContained pt then 5 else 0),
  Prog.each (s.portsIn .f) fun pt => linkDown pt.g,
  .look fun t => Prog.seq (.eff .sendClear)
    (Prog.each (s.out ++ (t.out.drop s.out.length).filter Out.byHeadwater) Prog.send)]

/-- The merge buffers and write queues are drained (R170): what waits on them is discarded, an old line that has not come counts as poisoned, and
every merged line is written. -/
def rsvDrain : Prog := Prog.all [
  Prog.rsv fun r => { r with
    merge := Tab.mapAll r.merge fun _ m => { m with reads := [], late := [] }
    mergeWait := [] },
  .look fun s => Prog.each s.dev.rsv.merge fun e => Prog.seq (mergeOld e.1 0 true) (mergeDone true e.1)]

/-- The stacks are in self-refresh (R170, R426). -/
def selfRefresh (on : Bool) : Prog := Prog.rsv fun r => { r with selfRefresh := on }

/-- The device safe state (R426): all gates off, every transmitter idle, ALIVE stopped, the stacks drained and in self-refresh; CAUSE_EV takes the
event, where an event caused it (R444). -/
def enterSafe (cause : Option Nat) : Prog := .look fun s => Prog.when (!s.dev.ws.safe) (Prog.all [
  Prog.ws fun w => { w with safe := true },
  Prog.opt cause fun ev => Prog.set .root F.DEV_WS_STAT_CAUSE_EV ev,
  Prog.each (List.finRange 64) slotSafe,
  allIdle,
  aliveStop,
  rsvDrain,
  selfRefresh true])

/-- The internal port a number names, X0 to X7. -/
def internalX (n : Nat) : XPort := XPort.int ⟨n % 8, Nat.mod_lt _ (by decide)⟩

/-- A safe action that has fired (R423, R424): L3 the device safe state, L2 that of its domain. EV058 of an internal port, which its argument names, flushes that port. -/
def fireOne (f : Fire) : Prog :=
  if 3 ≤ f.level then Prog.seq (enterSafe (some f.ev)) (Prog.when (f.ev == 58 && f.dom == .root) (internalStall (internalX f.arg)))
  else match f.dom, f.unit with
    | .root, _ => Prog.when (f.ev == 58) (internalStall (internalX f.arg))
    | .slot k, .slot _ => slotAction k
    | .slot _, u => Prog.opt (unitPort u) portContain
    | .port pt, _ => portContain pt
    | .group g, _ => .look fun s => Prog.each (s.portsOf g) portContain
    | _, _ => .skip

/-- Run the safe actions that have fired, with those they fire in turn. -/
def fireLoop : Nat → Prog
  | 0 => Prog.ws fun w => { w with fire := [] }
  | n + 1 => .look fun s => match s.dev.ws.fire with
    | [] => .skip
    | f :: fs => Prog.all [Prog.ws fun w => { w with fire := fs }, fireOne f, fireLoop n]

/-! ### Acknowledgement and release (R431, R432) -/

/-- Close every open fault of a class in a domain: its history entries are marked, and the oldest queued class leads. -/
def ackClass (dom : UnitId) (cls : Nat) : Prog := .look fun s =>
  let l := Tab.getD s.dev.ws.faults (pathCode dom) []
  let seqs := (l.filter fun c => c.cls == cls).flatMap fun c => c.list.filterMap fun f => f.seq
  let rest := l.filter fun c => c.cls != cls
  Prog.all [
    Prog.ws fun w => { w with faults := if rest.isEmpty then Tab.erase w.faults (pathCode dom) else Tab.put w.faults (pathCode dom) rest },
    .eff (.histMap fun e => if seqs.contains e.seq then { e with ack := true } else e)]

/-- FAULT_ACK (R431, R463): it acts on every unit's domain. -/
def faultAck (h : Hdr) (cls : Nat) : Prog :=
  unitCmd h 0x0010 fun u k => if 14 < cls then k stInvalid
    else Prog.seq (.look fun s => ackClass (s.domainOf u) cls) (k stOk)

/-- A write of DEV_WS_ACK (R431): a sequence number that names no open fault changes nothing. -/
def ackSeq (q : Nat) : Prog := .look fun s => Prog.each s.dev.ws.faults fun e => Prog.each e.2 fun c =>
  Prog.when (c.list.any fun f => f.seq == some q) (Prog.opt (unitOfCode e.1) fun u => ackClass u c.cls)

/-- FAULT_QUERY (R431): the domain's open classes, the active one first: class, level and the history sequence numbers. -/
def faultQuery (h : Hdr) : Prog :=
  singleCmd h 0x0011 (fun _ => true) fun u => .look fun s =>
    reply h stOk ((Tab.getD s.dev.ws.faults (pathCode (s.domainOf u)) []).flatMap fun c =>
      [c.cls, c.level, c.list.length] ++ c.list.map fun f => f.seq.getD (2 ^ 32))

/-- Whether the host walk holds back the release of a host port (R192). -/
def State.walkHolds (s : State) (pt : PortId) : Bool := match s.hostOf s.swid pt with
  | some h => bitOf (s.fld .root F.DEV_COH_LOST_LOST) h.val
  | none => false

/-- FAULT_RELEASE of a port (R432). A port bound to a slot channel is released by its channel alone. -/
def releasePort (h : Hdr) (pt : PortId) : Prog := .look fun s =>
  if (s.isBound pt).isSome then reply h stInvalid []
  else if !(Tab.getD s.dev.ws.faults (pathCode (.port pt)) []).isEmpty || s.walkHolds pt
      || (s.mode pt.g == .h && (s.portInsts pt).any fun i => s.instState i == 3) then reply h stBusy []
  else Prog.all [
    (match s.mode pt.g with
      | .m => moduleRelease pt
      | _ => Prog.ws fun w => { w with contained := w.contained.filter fun u => u != .port pt }),
    raise 172 (.group pt.g) pt.p.val,
    (match s.mode pt.g with
      | .h => Prog.seq (portResetDone pt) (hostTrain pt)
      | .f => trainStart pt.g
      | _ => .skip),
    reply h stOk []]

/-- FAULT_RELEASE (R432): a single command that accepts ports. -/
def faultRelease (h : Hdr) : Prog :=
  singleCmd h 0x0012 (fun u => match u with | .port _ => true | _ => false) fun u => Prog.opt (unitPort u) (releasePort h)

/-! ### Fencing of a group (R425) -/

/-- The group PHY domain goes off and the group is fenced (R425). -/
def groupCut (g : Fin 64) : Prog := .look fun s => Prog.all [
  Prog.each (s.portsOf g) portContain,
  groupOff g,
  Prog.ws fun w => { w with fenced := w.fenced ++ [.group g] }]

/-- A transmitter has not reached idle 500 ns after its safe action (R425); in the safe state no fencing fires (R427). -/
def groupFence (g : Fin 64) : Prog := .look fun s => Prog.when (s.mode g != .off && !s.dev.ws.fenced.contains (.group g))
  (Prog.seq (raise 167 (.group g) 0) (Prog.when (!s.dev.ws.safe) (groupCut g)))

/-! ### Engine faults (R434) -/

/-- Change the engine state register. -/
def engState (e : Fin 8) (n : Nat) : Prog := Prog.set (.engine e) F.ENG_STAT_STATE n

/-- e0 and e1 restart: contexts are reloaded, and every packet in progress is taken as due for a resend under R229. -/
def millRestart (e : Nat) : Prog := .look fun s => Prog.mill fun m => { m with
  flows := Tab.mapAll m.flows fun i w => if (flowEngine i).val = e then { w with pkts := w.pkts.map fun p => { p with sentAt := s.time } } else w }

/-- e2 restarts: an operation whose write was not issued is executed again, one whose write was issued returns code 6, its line poisoned with reason 1 (R198). -/
def atomRestart : Prog := .look fun s => Prog.each s.dev.coh.atoms fun e => match e.2.step with
  | .writing _ => atomWrote e.1 false
  | .reading | .got _ _ => atomRead e.1
  | _ => .skip

/-- e4 restarts: outstanding snoops are sent again. -/
def cohRestart : Prog := Prog.seq
  (Prog.coh fun c => { c with busy := Tab.mapAll c.busy fun _ b =>
    { b with snoops := b.snoops.map fun n => { n with sent := none } } }) snoopPump

/-- e3 restarts: a hold is aborted, and every pass begins again. -/
def movRestart : Prog := Prog.seq holdAbort (Prog.mov fun m => { m with
  slots := Tab.mapAll m.slots fun _ v => if v.copying then { v with
    todo := if v.firstDone then v.todo ||| v.writing else allLines } else v })

/-- The restart of an engine from its state (R434). -/
def engRestart (e : Fin 8) : Prog :=
  match e.val with
  | 0 => millRestart 0
  | 1 => millRestart 1
  | 2 => atomRestart
  | 3 => movRestart
  | 4 => cohRestart
  | 6 => Prog.gau fun v => { v with samples := [], flight := 0 }
  | _ => .skip

/-- Whether what waits at an ingress belongs to an operation of the atomic unit. -/
def Wait.ofAtomic : Wait → Bool
  | .park a | .forward a _ | .target a => match a.origin with
    | .atomic _ => true
    | _ => false
  | _ => false

/-- An engine is fenced until cold reset (R434): e0 and e1 put their flow ends in ERROR with EV087, and their ports X4 and X5 go down; e2 answers every atomic with code 5, and what its
operations wait to send at X6 is gone, where e3's stays (R422); e3 stops copying, e6 stops sampling. -/
def engFence (e : Fin 8) : Prog := .look fun s => Prog.all [
  engState e 3,
  Prog.ws fun w => { w with fenced := w.fenced ++ [.engine e] },
  Prog.set .root F.DEV_PD_STAT2_ENG_ON (maskDiff (s.fld .root F.DEV_PD_STAT2_ENG_ON) (2 ^ e.val)),
  (match e.val with
    | 0 | 1 => Prog.seq (Prog.each (Tab.keep s.dev.mill.flows fun i _ => (flowEngine i).val == e.val) fun f => Prog.seq
          (flowUpd f.1 fun w => { w with err := true })
          (evWrite f.2.inst 0x0001 f.1 0 0))
        (raise 87 (.engine e) 0)
    | 2 => Prog.seq (Prog.flood fun v => { v with
          waiting := (Tab.mapAll v.waiting fun k l => if k / 8 = (XPort.int 6).key then l.filter fun w => !w.ofAtomic else l).filter fun e => !e.2.isEmpty })
        (Prog.each s.dev.coh.atoms fun a => atomFinish a.1 5 0)
    | 3 => holdStop
    | 6 => Prog.gau fun v => { v with samples := [], flight := 0, gens := [] }
    | _ => .skip),
  Prog.when (decide (e.val ≤ 1)) (floodDown (XPort.int ⟨4 + e.val % 2, by omega⟩))]

/-- An engine is restarted, and the restart is counted (R434). -/
def engAgain (e : Fin 8) : Prog := Prog.seq (Prog.addSat (.engine e) F.ENG_STAT_RESTARTS 1) (engRestart e)

/-- Whether an engine that faults again is fenced; e4, e5 and e7 bring the device safe state (R434). -/
def fences (e : Fin 8) : Bool := !([4, 5, 7].contains e.val)

/-- A fault inside an engine (R434): restarted, or, while it restarts or before its EV168 is acknowledged, fenced; e4, e5 and e7 are not fenced and
bring the device safe state. In the safe state no restart or fencing fires (R427). -/
def engineFault (e : Fin 8) : Prog := .look fun s =>
  let again := s.fld (.engine e) F.ENG_STAT_STATE == 2
    || (Tab.getD s.dev.ws.faults (pathCode (.engine e)) []).any fun c => c.cls == 12
  if s.isFenced (.engine e) then .skip
  else if s.dev.ws.safe then raise 168 (.engine e) 0
  else if again then Prog.seq (raise 169 (.engine e) 0)
    (Prog.when (fences e) (engFence e))
  else Prog.seq (raise 168 (.engine e) 0) (engAgain e)

/-! ### Fault injection (R440, R441) -/

/-- What an injected event brings beside its safe action, as its detector would (R411, R425, R434): the fencing of its unit, or the restart of an engine. None of it fires in the
safe state (R427), nor at a unit that is fenced already. -/
def injectReact (ev : Nat) (u : UnitId) : Prog := .look fun s => Prog.when (!s.dev.ws.safe && !s.isFenced u) (match u with
  | .slot k => Prog.when (ev == 162 && s.slotSt k != .fenced) (slotFence k)
  | .group g => Prog.when (ev == 167) (groupCut g)
  | .engine e => Prog.seq (Prog.when (ev == 168) (engAgain e)) (Prog.when (ev == 169 && fences e) (engFence e))
  | _ => .skip)

/-- The unit that a write of DEV_WS_INJ names, where it exists and has the event. -/
def State.injectAt (s : State) (v : Nat) : Option UnitId :=
  (unitOfCode (F.DEV_WS_INJ_PATH.part v)).filter fun u => eventAt (F.DEV_WS_INJ_EVENT.part v) (unitClass u) && s.unitExists u

/-- A write of DEV_WS_INJ: outside factory test mode, and of a GO that names a unit without the event, it is ignored with EV174; a GO raises the event at the unit as if its
detector had fired (R440, R441). -/
def injectWrite (v : Nat) : Prog := .look fun s =>
  let ev := F.DEV_WS_INJ_EVENT.part v
  if !s.flag .root F.HW_STAT_FTM then raise 174 .root 0
  else if !bitOf v 63 then regStore .root .DEV_WS_INJ 0 v
  else match s.injectAt v with
    | none => raise 174 .root 0
    | some u => Prog.all [
        regStore .root .DEV_WS_INJ 0 v,
        Prog.ws fun w => { w with injecting := true },
        raise ev u 0,
        Prog.ws fun w => { w with injecting := false },
        injectReact ev u]

end Sys2Proof.Machine
end

