-- ==== Sys2Proof/Machine/Contain.lean ====
section
/-!
DEFINITION. Machine/Contain.lean: the wrap of a command that may raise faults.
-/
namespace Sys2Proof.Machine

/-- Run the safe actions that have fired, with those they fire in turn: a fault of a class already open escalates and does not queue, so
few rounds follow one another. -/
def fireAll : Prog := fireLoop 256

/-- A command starts: nothing is sent yet, and no safe action has fired. -/
def Prog.start : Prog := .seq (.eff .sendClear) (Prog.ws fun w => { w with fire := [] })

/-- A command: the records of what is sent and of the safe actions fired start anew, the program runs, and the safe actions it fired
follow (R423). -/
def act (p : Prog) (s : State) : Host.Outcome State Fault Refusal :=
  .next ((Prog.all [Prog.start, p, fireAll]).run s)

end Sys2Proof.Machine
end

