-- ==== Sys2Proof/Machine/PwrOps.lean ====
section
/-!
DEFINITION. Machine/PwrOps.lean: clock loss (R383), rails and droop (R445, R446), the power cap (R447), temperatures (R448), group power (R451), and
what each reset clears (R453-R457, R552).
-/
namespace Sys2Proof.Machine

/-! ### Reference clocks (R383) -/

/-- SYSCLK or the lock of a main PLL is lost. -/
def mainClockLost (c : MainClock) : Prog := Prog.seq
  (match c with
    | .sysclk => Prog.set .root F.DEV_CLK_STAT_SYSCLK_OK 0
    | .corePll => Prog.set .root F.DEV_CLK_STAT_LOCK_CORE 0
    | .hwPll => Prog.set .root F.DEV_CLK_STAT_LOCK_HW 0
    | .rsvPll => Prog.set .root F.DEV_CLK_STAT_LOCK_RSV 0)
  (raise 147 .root 0)

/-- The reference clock of a quadrant is lost: each port in mode H or M of the quadrant raises EV148, whose safe action takes it down. -/
def refClockLost (q : Fin 4) : Prog := .look fun s => Prog.seq
  (Prog.set .root F.DEV_CLK_STAT_REFCLK_OK (maskDiff (s.fld .root F.DEV_CLK_STAT_REFCLK_OK) (2 ^ q.val)))
  (Prog.each ((groupsOf q).filter fun g => s.mode g == .h || s.mode g == .m) fun g => Prog.each (s.portsOf g) fun pt =>
    raise 148 (.port pt) 0)

/-- A group PLL loses lock. -/
def groupPllLost (g : Fin 64) : Prog := .look fun s => Prog.when (s.mode g != .off) (raise 151 (.group g) 0)

/-- AUXCLK is lost: the always-on domain and the slot die run on the internal oscillator. -/
def auxClockLost : Prog := Prog.all [
  Prog.set .root F.DEV_CLK_STAT_AUXCLK_OK 0,
  Prog.set .root F.DEV_CLK_STAT_AUX_INT 1,
  raise 149 .root 0]

/-- A reference clock, or AUXCLK, is taken back into use; ports of the quadrant may train again. -/
def clockRestored (c : Option (Fin 4)) : Prog := .look fun s =>
  match c with
  | some q => Prog.when (!bitOf (s.fld .root F.DEV_CLK_STAT_REFCLK_OK) q.val) (Prog.all [
      Prog.set .root F.DEV_CLK_STAT_REFCLK_OK (s.fld .root F.DEV_CLK_STAT_REFCLK_OK ||| 2 ^ q.val),
      raise 150 .root q.val,
      Prog.each ((groupsOf q).filter fun g => s.mode g == .h) fun g => Prog.each (s.portsOf g) hostTrain])
  | none => Prog.when (s.fld .root F.DEV_CLK_STAT_AUXCLK_OK == 0) (Prog.all [
      Prog.set .root F.DEV_CLK_STAT_AUXCLK_OK 1,
      Prog.set .root F.DEV_CLK_STAT_AUX_INT 0,
      raise 150 .root 4])

/-! ### Rails (R445) -/

/-- The supervisors' sample of which rails are below their warning level: a rail that has come below it raises EV176. VDD_CORE and VDD_SRAM, bits 0 and 1, are not theirs: the
droop sensors watch these two. -/
def railSample (below : Nat) : Prog := .look fun s =>
  let old := s.fld .root F.DEV_RAIL_STAT_BELOW
  let now := below / 4 * 4 + old % 4
  Prog.all [
    Prog.set .root F.DEV_RAIL_STAT_BELOW now,
    Prog.set .root F.DEV_RAIL_STAT_WARNED (s.fld .root F.DEV_RAIL_STAT_WARNED ||| now),
    Prog.each ((List.range 12).filter fun r => bitOf now r && !bitOf old r) fun r => raise 176 .root r]

/-- A rail is below its warning level. -/
def railBelow (r : Nat) : Prog := .look fun s => Prog.seq
  (Prog.set .root F.DEV_RAIL_STAT_BELOW (s.fld .root F.DEV_RAIL_STAT_BELOW ||| 2 ^ r))
  (Prog.set .root F.DEV_RAIL_STAT_WARNED (s.fld .root F.DEV_RAIL_STAT_WARNED ||| 2 ^ r))

/-- A rail of the core group falls below its fault level: EV177. VDD_AUX, VDDIO_AUX and VIN_SLOT have their own rows. -/
def railFault (r : Nat) : Prog := Prog.when (!([8, 9, 11].contains r)) (Prog.seq (railBelow r) (raise 177 .root r))

/-- VIN_SLOT falls below its fault level: EV178; PG falls on the channels whose VOUT it takes below PG_THR (R405). -/
def vinFault (lost : List (Fin 64)) : Prog := Prog.all [railBelow 11, raise 178 .root 0, Prog.each lost slotPgLost]

/-! ### The core clock (R446-R448) -/

/-- The core clock in 150 MHz steps above 1.2 GHz: the lower of the ceiling and the droop frequency. -/
def State.coreSteps (s : State) : Nat := min s.dev.pwr.steps (s.fld .root F.DEV_PWR_CAP_STEP)

/-- Whether the core clock is below 2.4 GHz (DEV_CLK_STAT.DROOP). -/
def State.coreSlow (s : State) : Bool := decide (s.coreSteps < 8)

/-- A droop sensor reads a rail below the warning level, VDD_SRAM or else VDD_CORE: DEV_RAIL_STAT shows the rail (R445), the core clock halves, and a halving is counted. -/
def droop (sensor : Nat) (sram : Bool) : Prog := .look fun s => Prog.all [
  railBelow (b2n sram),
  Prog.pwr fun p => { p with
    droop := if p.droop.contains sensor then p.droop else p.droop ++ [sensor]
    since := some (p.since.getD s.time)
    steps := 0
    rising := false },
  Prog.when s.dev.pwr.droop.isEmpty (Prog.seq (Prog.add .root F.DEV_DROOP_STAT_COUNT 1) (raise 175 .root 0))]

/-- The last droop sensor reads above the warning level, and the hold before the step-up starts. -/
def droopHold : Prog := .look fun s => Prog.opt s.dev.pwr.since fun t => Prog.all [
  Prog.peak .root F.DEV_DROOP_STAT_MAX_NS (min 65535 (s.time - t)),
  Prog.set .root F.DEV_RAIL_STAT_BELOW (s.fld .root F.DEV_RAIL_STAT_BELOW / 4 * 4),
  Prog.pwr fun p => { p with
    droop := []
    since := none
    rising := true }]

/-- The core clock takes one step up, where no droop sensor and no throttled sensor holds it. -/
def droopStep : Prog := .look fun s =>
  let p := s.dev.pwr
  Prog.when (p.rising && p.droop.isEmpty && p.throttled.isEmpty && decide (p.steps < 8)) (Prog.pwr fun p => { p with
    steps := p.steps + 1
    rising := decide (p.steps + 1 < 8) })

/-- Headwater compares the average power with CAP_W (R447). -/
def capAdjust (est : Nat) : Prog := .look fun s =>
  let cap := s.fld .root F.DEV_PWR_CAP_CAP_W
  let step := s.fld .root F.DEV_PWR_CAP_STEP
  Prog.seq (Prog.set .root F.DEV_PWR_CAP_EST_W (min 511 est)) (
    if cap < est then Prog.seq (Prog.set .root F.DEV_PWR_CAP_STEP (step - 1)) (Prog.when (step == 8) (raise 179 .root est))
    else Prog.when (decide (est + 10 < cap) && decide (step < 8)) (Prog.set .root F.DEV_PWR_CAP_STEP (step + 1)))

/-! ### Temperatures (R448): sensors 0-15 switch die, 16-19 stacks, 20 slot die, in 0.1 °C -/

/-- The hottest sensor of a range and its temperature. -/
def State.hottest (s : State) (lo hi : Nat) : Nat × Int :=
  ((List.range (hi - lo)).map (· + lo)).foldl (fun b n =>
    if Tab.getD s.dev.pwr.temps n 0 > b.2 then (n, Tab.getD s.dev.pwr.temps n 0) else b) (lo, Tab.getD s.dev.pwr.temps lo 0)

/-- A sensor is read: DEV_TEMP follows the hottest sensor of each kind. -/
def tempRead (n : Nat) (t : Int) (k : Prog) : Prog := Prog.all [
  Prog.pwr fun p => { p with temps := Tab.put p.temps n t },
  .look fun s => Prog.all [
    Prog.set .root F.DEV_TEMP_DIE (unsigned 16 (s.hottest 0 16).2),
    Prog.set .root F.DEV_TEMP_DIE_SENS (s.hottest 0 16).1,
    Prog.set .root F.DEV_TEMP_STK (unsigned 16 (s.hottest 16 20).2),
    Prog.set .root F.DEV_TEMP_SLOT (unsigned 16 (s.hottest 20 21).2)],
  k]

/-- The limit of a sensor in 0.1 °C. -/
def State.tempLimit (s : State) (n : Nat) (die stk : Fld) : Int :=
  (s.fld .root (if 16 ≤ n ∧ n < 20 then stk else die) : Int) * 10

/-- A sensor at or above WARN: EV180 once per crossing. -/
def tempWarn (n : Nat) (t : Int) : Prog := tempRead n t (.look fun s =>
  let hot := decide (s.tempLimit n F.DEV_THERM_CFG_DIE_WARN F.DEV_THERM_CFG_STK_WARN ≤ t)
  let was := s.dev.pwr.warned.contains n
  Prog.seq (Prog.pwr fun p => { p with warned := p.warned.filter (fun m => m != n) ++ (if hot then [n] else []) })
    (Prog.when (hot && !was) (raise 180 .root n)))

/-- A switch-die or stack sensor at or above THROT: the core holds at 1.2 GHz, and a stack's refresh interval is halved while its sensor is throttled. -/
def tempThrottle (n : Nat) (t : Int) : Prog := tempRead n t (.look fun s =>
  Prog.when (decide (n < 20) && decide (s.tempLimit n F.DEV_THERM_CFG_DIE_THROT F.DEV_THERM_CFG_STK_THROT ≤ t)
      && !s.dev.pwr.throttled.contains n) (Prog.seq
    (Prog.pwr fun p => { p with
      throttled := p.throttled ++ [n]
      steps := 0
      rising := false })
    (raise 181 .root n)))

/-- A sensor has fallen 3 °C below THROT: the last one's release begins the step-up, without the hold of R446. -/
def throttleRelease (n : Nat) (t : Int) : Prog := tempRead n t (.look fun s =>
  Prog.when (s.dev.pwr.throttled.contains n
      && decide (t + 30 ≤ s.tempLimit n F.DEV_THERM_CFG_DIE_THROT F.DEV_THERM_CFG_STK_THROT)) (Prog.seq
    (Prog.pwr fun p => { p with
      throttled := p.throttled.filter fun m => m != n
      rising := true })
    droopStep))

/-- Whether a stack's refresh interval is halved (R448). -/
def State.refreshHalved (s : State) (st : Fin 4) : Bool := s.dev.pwr.throttled.contains (16 + st.val)

/-- A sensor at or above TRIP: THERMTRIP_L goes low, and EV182 brings the device safe state. -/
def tempTrip (n : Nat) (t : Int) : Prog := tempRead n t (.look fun s =>
  Prog.when (decide (s.tempLimit n F.DEV_THERM_CFG_DIE_TRIP F.DEV_THERM_CFG_STK_TRIP ≤ t)) (Prog.seq
    (Prog.pwr fun p => { p with trip := true }) (raise 182 .root n)))

/-! ### Group power (R451) -/

/-- A write of GRP_PWR (R451). In a group of mode OFF it only stores OFF. -/
def groupPowerWrite (g : Fin 64) (v : Nat) : Prog := .look fun s =>
  let u := UnitId.group g
  let off := bitOf v 0
  if s.flag u F.GRP_PWR_OFF = off then .skip
  else if s.mode g = .off then Prog.setB u F.GRP_PWR_OFF off
  else if off then match s.groupRefuse g (s.mode g) (s.split g) true with
    | some n => groupRefused g n
    | none => Prog.all [
        groupDown g 4,
        Prog.set u F.GRP_PWR_OFF 1,
        Prog.set u F.GRP_PWR_STATE 1,
        raise 183 .root g.val]
  else if s.flag u F.GRP_STAT_CHG then groupRefused g 1
  else Prog.all [
    Prog.set u F.GRP_PWR_OFF 0,
    Prog.set u F.GRP_PWR_STATE 0,
    Prog.when (!s.isFenced u) (Prog.seq
      (Prog.set u F.GRP_STAT_CHG 1)
      (Prog.ports fun p => { p with grpStep := Tab.put p.grpStep g.val 3 }))]

/-! ### What a warm or cold reset clears (R457) -/

/-- The fields that show what the always-on domain measures all the time: the clocks (R383) and the rails below warning (R445). It reports them again as soon as a warm reset has
cleared them. -/
def liveStatus (f : Fld) : Bool := f.reg == .DEV_CLK_STAT || f == F.DEV_RAIL_STAT_BELOW

/-- The fields that a warm reset clears or brings back: classes W, U and N, but for those of the slot channels (R416) and the live status of clocks and rails. -/
def warmClears (u : UnitId) (f : Fld) : Bool := !liveStatus f &&
  let slot := match u with
    | .slot _ => true
    | _ => false
  match f.keep with
  | .U => true
  | .W | .N => !(slot && [RegId.SLT_CFG, .SLT_ILIM, .SLT_TIME, .SLT_VTHR, .SLT_THM, .SLT_TAU, .SLT_TLIM, .SLT_NTC, .SLT_STAT, .SLT_MEAS,
      .SLT_CNT].contains f.reg)
  | _ => false

/-- Bring back the fields that a test picks, and every ring register. -/
def resetFields (p : UnitId → Fld → Bool) : Prog := .eff (.dropRegs fun k => match keyField k with
  | some (u, f) => p u f
  | none => true)

/-- The register path's state at reset: every held half is discarded, and no crossing is in flight. -/
def RegIo.none : RegIo := { low := [], high := [], gauge := [], ruleBase := [], ruleLimit := [], crossing := [], order := [] }

/-- Translation after a warm reset (R73): each sealed entry of an advance that e5 has not written holds its old or its new value. -/
def warmXlat : Prog := .look fun s => Prog.seq
  (Prog.opt s.dev.xlat.adv fun a => Prog.when (!a.written) (Prog.each a.sealed fun e => Prog.free fun n =>
    Prog.when ((Config.freeValue n).getLsbD 0) (Prog.xlat fun v => { v with map := Tab.setD v.map MapEntry.unmapped e.1 e.2 })))
  (Prog.xlat fun v => { v with
    cached := []
    hurt := []
    misses := []
    heldMiss := []
    openBuf := some []
    queued := none
    adv := none
    heldReply := none })

/-- Moves after a warm reset (R97): every extent whose committed entry is MOVING starts again from WAIT with its bitmap zeroed. -/
def warmMov : Prog := .look fun s => Prog.mov fun m => { m with
  hold := none
  marks := []
  slots := (Tab.keep s.dev.xlat.map fun _ e => e.type == .moving && e.home == s.swid).foldl (fun t e =>
    Tab.put t e.2.trk.val
      { x := e.1, state := .wait, passes := 0, tries := 0, firstDone := false, word := 512, todo := 0, writing := 0, hotLogged := false, stopped := false }) [] }

/-- The most owed notices the queue holds (R131). -/
def noticeMax : Nat := 16384

/-- The tracker after a warm reset (R131): owed notices of QUAR entries join the queue, and those that do not fit are lost and counted. -/
def warmOrt : Prog := .look fun s =>
  let owed := s.dev.ort.entries.filterMap fun e => if e.2.isOpen then none else e.2.owed.map fun d =>
    ({ line := e.2.info.addr / 64, lines := max 1 (e.2.info.len / 64), home := d, sent := false } : Notice)
  let all := (s.dev.ort.notices ++ owed).map fun n => { n with sent := false }
  Prog.seq (Prog.addSat .root F.DEV_ORT_STAT_PNLOST (all.length - noticeMax)) (Prog.ort fun o => {
    entries := []
    gens := o.entries.foldl (fun t e => Tab.setD t 0 e.1 (if e.2.isOpen then (e.2.gen + 1) % 16 else e.2.gen)) o.gens
    notices := all.take noticeMax
    lostX := [] })

/-- A line whose write-back a warm reset cuts off stays in the cache as a dirty line: in its way, in an invalid one or in one with a clean line that is not pinned. Where its
set has none of these it is added to the poison list as a lost write-back is (R128, R170, log entry 130). -/
def wbKeep (la : Nat) (d : Line) : Prog := .look fun s =>
  let set := s.cacheSet la
  let room := (List.range 16).find? fun w => match s.way? set w with
    | some y => !y.dirty && !y.pin && !y.pu && !y.lost
    | none => true
  match s.findWay set la, room with
  | some w, _ => Prog.opt (s.way? set w) fun y => Prog.when (!y.pu) (putWay set w { y with dirty := true })
  | none, some w => if s.unitNamed (set / 2048) then psnAdd la 6
      else putWay set w { la, dirty := true, pin := false, pu := false, lost := false, data := d }
  | none, none => psnAdd la 6

/-- The write queues of the stack controllers are drained to the Reservoir: the write-backs that a warm reset cuts off, sent or waiting for the tracker (R170). -/
def warmWriteBacks : Prog := .look fun s =>
  let sent := s.dev.ort.entries.filterMap fun e => match e.2.ctx with | .wb la d => if e.2.isOpen then some (la, d) else none | _ => none
  let held := s.dev.flood.waiting.flatMap fun e => e.2.filterMap fun w => match w with | .wb la d => some (la, d) | _ => none
  Prog.each (held ++ sent) fun e => wbKeep e.1 e.2

/-- The Reservoir after a warm reset (R170): the regions survive; the tag-hint cache and what was in progress are gone, a resize in progress among them, which leaves
the partition that then stands (log entry 130). -/
def warmRsv : Prog := Prog.rsv fun r => { r with
  hint := []
  hintHurt := []
  reads := []
  merge := []
  mergeWait := []
  resize := none
  withdraw := Tab.mapAll r.withdraw fun _ _ => []
  scrub := []
  selfRefresh := false }

/-- The coherence engine after a warm reset (R194): the entry cache and the busy lines are cleared, and the snoops that were outstanding are sent again, each line's
entry following what they leave. -/
def warmCoh : Prog := Prog.seq (Prog.coh fun c => { c with
  cached := []
  setWait := []
  noBusy := []
  atoms := []
  atomWait := []
  touched := []
  busy := Tab.mapAll (Tab.keep c.busy fun _ b => !b.snoops.isEmpty) fun _ b =>
    { cur := .again (b.snoops.foldl (fun v n => if n.inv then v ||| hostBit n.host else v) 0), served := true,
      snoops := b.snoops.map (fun n => { n with sent := none }), queue := [], room := none } }) snoopPump

/-- Millrace after a warm reset (R455): every flow end is FREE, its last generation kept, and every region revoked, its GEN one higher. -/
def warmMill : Prog := .look fun s => Prog.seq
  (Prog.each (Tab.keep s.dev.mill.regions fun _ r => r.v) fun e => regionFree e.1)
  (Prog.mill fun m => { m with
    flows := []
    items := []
    eqs := [] })

/-- The fabric state after a reset: the trust list stays at a warm reset, and every advertisement and bring-up starts anew. -/
def warmFab : Prog := Prog.fab fun f => { f with
  advRx := []
  advTx := []
  advMask := []
  joining := []
  early := []
  lostDst := []
  auth := []
  passed := [] }

/-- The ports' state after a reset. -/
def Ports.empty : Ports := {
  vfBme := [], held := [], msix := [], msixPend := [], numVfs := [], rrs := [], linkDis := [], enumStep := [], mboxWait := [],
  records := [], bound := [], cfg := [], cxl := [], mboxOut := [], grpStep := [], squashed := [] }

/-- The crossbar's buffer after a reset. -/
def Flood.empty : Flood := {
  resUsed := [], shUsed := [], queues := [], egress := [], waiting := [], rr := [], dropRest := [], downX := [] }

/-- Step 4 of a warm reset (R454, R457): what it clears, keeps and brings back. -/
def warmClear : Prog := Prog.all [
  warmXlat,
  warmMov,
  warmWriteBacks,
  warmOrt,
  warmRsv,
  warmMill,
  warmFab,
  Prog.dev fun d => { d with
    io := RegIo.none
    flood := Flood.empty
    ports := Ports.empty
    link := { fl := [], tx := [], train := [], testing := [], lanes := [] }
    gau := { gens := [], samples := [], flight := 0, seq := 0, half := false }
    hw := { d.hw with rings := [], act := none, spdm := [], eid := 0, addr := none, pool := [], slot := none, dbgSeen := false } },
  Prog.ws fun w => { w with
    faults := []
    stamps := []
    supp := []
    safe := false
    contained := []
    fire := []
    injecting := false },
  .eff .cmdClear,
  .eff (.bgDrop fun _ => true),
  resetFields warmClears,
  Prog.each (List.finRange 8) fun e => .look fun s => Prog.when (s.fld (.engine e) F.ENG_STAT_STATE == 1) (Prog.set (.engine e) F.ENG_STAT_STATE 0),
  warmCoh]

/-! ### Warm reset (R453, R454) -/

/-- Whether the safe state absorbs a warm reset (R427). -/
def State.warmAbsorbed (s : State) : Bool := s.dev.ws.safe && [147, 177, 182].contains (s.fld .root F.DEV_WS_STAT_CAUSE_EV)

/-- Whether a warm reset may start: none is absorbed by a wider or running reset (R453) or by the safe state (R427). -/
def State.mayWarm (s : State) : Bool := s.dev.pwr.phase == .run && !s.warmAbsorbed

/-- Steps 1 and 2 of a warm reset: ALIVE stops, Headwater takes in no command, and every transmitter is idle; a Headwater restart is superseded. -/
def warmStart (src : Nat) : Prog := .look fun s => Prog.when s.mayWarm (Prog.all [
  aliveStop,
  Prog.set .root F.DEV_RST_CAUSE_SRC src,
  Prog.addSat .root F.DEV_RST_CAUSE_WARMS 1,
  Prog.set .root F.HW_STAT_READY 0,
  .eff .cmdClear,
  .eff (.bgDrop fun _ => true),
  Prog.io fun _ => RegIo.none,
  Prog.hw fun h => { h with
    pool := []
    slot := none },
  allIdle,
  Prog.pwr fun p => { p with
    phase := .drain
    warm := true
    restart := false }])

/-! ### Headwater at boot and restart (R455, R473, R474) -/

/-- A firmware image runs: its slot, version and SVN. -/
def fwRun (slot : Fin 2) (f : Fw) : Prog := Prog.all [
  Prog.set .root F.HW_STAT_SLOT slot.val,
  Prog.set .root F.HW_FW_VER_VER f.ver.toNat,
  Prog.set .root F.HW_FW_VER_SVN f.svn.toNat,
  Prog.hw fun h => { h with run := f }]

/-- The microcode of an engine is loaded (R479). -/
def ucodeLoad (e : Fin 8) (f : Fw) : Prog := Prog.set (.engine e) F.ENG_STAT_UCODE (f.ucode.getD e.val 0).toNat

/-- The boot ROM verifies the active slot, then the other one (R473): the slot booted is recorded as active, or Headwater enters recovery; `a` and
`b` are the valid images it finds there. -/
def bootRom (a b : Option Fw) : Prog := .look fun s =>
  let one := s.dev.hw.fwSlot
  let two : Fin 2 := if one = 0 then 1 else 0
  let go := fun (n : Fin 2) (f : Fw) => Prog.all [
    Prog.hw fun h => { h with
      fwSlot := n
      boot := f
      cold := if s.dev.pwr.warm then h.cold else f },
    fwRun n f,
    Prog.each (List.finRange 8) fun e => ucodeLoad e f]
  match a, b with
  | some f, _ => go one f
  | none, some f => Prog.seq (raise 186 .root one.val) (go two f)
  | none, none => Prog.seq (raise 186 .root one.val) (Prog.set .root F.HW_STAT_RECOVERY 1)

/-- Step 4 of a warm reset: fields clear, and Headwater starts from the boot ROM. -/
def warmStep4 (a b : Option Fw) : Prog := Prog.all [
  warmClear,
  Prog.pwr fun p => { p with phase := .boot },
  bootRom a b]

/-- The stacks are drained and in self-refresh (R454 step 3); step 4 waits for the rise of RESET_L. -/
def warmDrained (a b : Option Fw) : Prog := .look fun s => Prog.when (s.dev.pwr.phase == .drain) (Prog.all [
  rsvDrain,
  selfRefresh true,
  (if s.dev.pwr.resetLow then Prog.pwr fun p => { p with phase := .drained } else warmStep4 a b)])

/-- RESET_L goes low (R427, R453, R454). -/
def resetAssert : Prog := Prog.seq (Prog.pwr fun p => { p with resetLow := true }) (warmStart 4)

/-- RESET_L rises (R454). -/
def resetRelease (a b : Option Fw) : Prog := .look fun s => Prog.seq
  (Prog.pwr fun p => { p with resetLow := false })
  (Prog.when (s.dev.pwr.phase == .drained) (warmStep4 a b))

/-- A Headwater restart begins (R455, R436, R262): READY clears, ALIVE stops, commands without a reply get none, those of CMD words end with "firmware
error", and links in AUTH or ADMIT fail. An activation ends with it: Headwater reloads the image of the active slot (R474), so ACT reads 0, and past the activation point
the old image runs again (log entry 141). -/
def restartStart : Prog := .look fun s => Prog.when (s.dev.pwr.phase == .run && !s.dev.pwr.restart) (Prog.all [
  aliveStop,
  Prog.set .root F.HW_STAT_READY 0,
  Prog.set .root F.HW_STAT_ACT 0,
  Prog.pwr fun p => { p with restart := true },
  Prog.opt s.dev.hw.act fun a => Prog.when (a.step == 2) (fwRun s.dev.hw.fwSlot a.old),
  Prog.hw fun h => { h with
    act := none
    pool := []
    slot := none
    spdm := [] },
  Prog.each (s.cmdq.map (fun q => q.hdr) ++ s.dev.hw.slot.toList.map (fun w => w.hdr) ++ s.bg.map (fun b => b.hdr) ++ s.dev.hw.pool.filterMap (fun c => c.2.hdr)) fun h => match h.path with
    | .unit u => Prog.all [Prog.set u F.CMD_RES_STATUS stFirmware, Prog.set u F.CMD_RES_BUSY 0]
    | _ => .skip,
  .eff .cmdClear,
  .eff (.bgDrop fun _ => true),
  Prog.xlat fun x => { x with heldReply := none },
  Prog.each (List.finRange 64) fun g => Prog.when (s.fabState g == 2 || s.fabState g == 3) (linkFail g 7)])

/-- New firmware logs EV170 for a watchdog expiry, its entry with the time of the expiry (R436). -/
def watchdogLog : Prog := .look fun s => Prog.opt s.dev.pwr.expiry fun t => Prog.all [
  Prog.pwr fun p => { p with expiry := none },
  raise 170 .root t,
  .eff (.histMap fun e => if e.seq = s.fld .root F.DEV_WS_HEAD_NEXT_SEQ && e.event = 170 then { e with time := t } else e)]

/-- The restarted firmware, or that of a boot, reports ready (R474); so does the running one where a unit reset of the root has cleared READY
(R15, log entry 65). -/
def fwReady : Prog := .look fun s =>
  if s.flag .root F.HW_STAT_RECOVERY then .skip
  else if s.dev.pwr.phase = .boot ∨ s.dev.pwr.phase = .run ∧ s.dev.pwr.restart = false then Prog.set .root F.HW_STAT_READY 1
  else Prog.when (s.dev.pwr.phase == .run && s.dev.pwr.restart) (Prog.all [
    Prog.set .root F.HW_STAT_READY 1,
    Prog.pwr fun p => { p with restart := false },
    watchdogLog,
    authPump,
    Prog.when (!s.dev.ws.safe) aliveStart])

/-- The watchdog expires (R436, R475): Headwater restarts, and its new firmware is to log the expiry. -/
def watchdog : Prog := .look fun s => Prog.when (s.dev.pwr.phase == .run && !s.dev.pwr.restart) (Prog.all [
  Prog.addSat .root F.HW_WDT_EXPIRED 1,
  restartStart,
  Prog.pwr fun p => { p with expiry := some s.time }])

/-- A write of DEV_RST_CMD (R456). -/
def rstCmdWrite (v : Nat) : Prog :=
  if F.DEV_RST_CMD_KEY.part v ≠ 0x5752 then raise 115 .root 0
  else match F.DEV_RST_CMD_KIND.part v with
    | 1 => warmStart 5
    | 2 => restartStart
    | _ => .skip

/-- DEV_RESET (R454). -/
def devReset (h : Hdr) : Prog := devCmd h 0x0005 (.look fun s =>
  if s.warmAbsorbed then reply h stSafe [] else Prog.seq (reply h stOk []) (warmStart 6))

/-- HW_RESTART (R454): it replies before the restart begins. -/
def hwRestart (h : Hdr) : Prog := devCmd h 0x0006 (Prog.seq (reply h stOk []) restartStart)

/-! ### Cold reset (R444, R449) -/

/-- Run a program that raises no event: the history queue, its head, the open faults and the rate limits stay as they were, and no safe action fires. -/
def Prog.hushed (p : Prog) : Prog := .look fun s => Prog.all [
  p,
  .eff .histClear,
  Prog.each s.hist fun e => .eff (.hist e),
  Prog.each [F.DEV_WS_HEAD_NEXT_SEQ, F.DEV_WS_HEAD_OVW] fun f => Prog.set .root f (s.fld .root f),
  Prog.ws fun w => { w with
    faults := s.dev.ws.faults
    stamps := s.dev.ws.stamps
    supp := s.dev.ws.supp
    fire := s.dev.ws.fire }]

/-- A cold reset is held, by its cause: 2 PWROK low, 3 a VDD_AUX fault (R444, R445); the safe state begins without an event and without a history entry, and THERMTRIP_L is
released. -/
def coldHold (src : Nat) : Prog := .look fun s => Prog.when (s.dev.pwr.phase != .held) (Prog.all [
  Prog.hushed (enterSafe none),
  aliveStop,
  Prog.set .root F.HW_STAT_READY 0,
  Prog.pwr fun p => { p with
    phase := .held
    warm := false
    restart := false
    src := src
    tripped := s.dev.pwr.trip
    trip := false }])

/-- The always-on domain leaves power-on reset (R444 step 1): the cold reset that follows is a power-up. -/
def porRelease : Prog := .look fun s => Prog.when (s.dev.pwr.phase == .held && s.dev.pwr.src != 3) (Prog.seq
  (Prog.pwr fun p => { p with src := 1 })
  (Prog.set .root F.DEV_CLK_STAT_AUXCLK_OK 1))

/-- PWROK falls (R444). -/
def pwrokFall : Prog := coldHold 2

/-- VDD_AUX or VDDIO_AUX falls below its fault level (R445). -/
def auxRailFault : Prog := coldHold 3

/-- What every unit holds after a cold reset: class F fields are kept. -/
def coldClear (cold : Dev) : Prog := .look fun s => Prog.all [
  .eff .restart,
  .eff .histClear,
  .eff .cmdClear,
  .eff (.bgDrop fun _ => true),
  .eff (.dropMem fun _ => true),
  resetFields fun _ f => f.keep != .F,
  Prog.dev fun d => { cold with
    pwr := { cold.pwr with resetLow := d.pwr.resetLow, perstLow := d.pwr.perstLow, src := d.pwr.src, tripped := d.pwr.tripped }
    hw := { cold.hw with flash := d.hw.flash, fwSlot := d.hw.fwSlot, cfgSlot := d.hw.cfgSlot } },
  Prog.set .root F.DEV_RST_CAUSE_SRC s.dev.pwr.src,
  Prog.setB .root F.DEV_RST_CAUSE_TRIPPED s.dev.pwr.tripped]

/-- PWROK rises (R444 steps 3 and 4, R522): cold reset releases, the straps are sampled, the PLLs lock, and the boot ROM verifies the firmware. -/
def pwrokRise (cold : Dev) (pmode pid refclk : Nat) (a b : Option Fw) : Prog := .look fun s =>
  Prog.when (s.dev.pwr.phase == .held) (Prog.all [
    coldClear cold,
    Prog.set .root F.DEV_STRAP_PMODE pmode,
    Prog.set .root F.DEV_STRAP_PID pid,
    Prog.set .root F.DEV_CLK_STAT_REFCLK_OK refclk,
    Prog.each [F.DEV_CLK_STAT_SYSCLK_OK, F.DEV_CLK_STAT_AUXCLK_OK, F.DEV_CLK_STAT_LOCK_CORE, F.DEV_CLK_STAT_LOCK_HW,
      F.DEV_CLK_STAT_LOCK_RSV] fun f => Prog.set .root f 1,
    Prog.pwr fun p => { p with
      phase := .boot
      warm := false },
    bootRom a b])

/-! ### Unit reset (R453, R552) -/

/-- The class U fields of one unit clear. -/
def unitClear (u : UnitId) : Prog := clearFields fun v f => v == u && f.keep == .U && !resetKeeps f

/-- A unit reset of one unit: its class U fields, and the link of a port (R552); an instance is reset under R313. A port or instance whose own reset
runs absorbs it (R453). -/
def unitReset (u : UnitId) : Prog := .look fun s =>
  match u with
  | .port pt => match s.mode pt.g with
    | .h => portResetOne pt true
    | .f => Prog.all [linkDown pt.g, unitClear u, trainStart pt.g]
    | .m => Prog.all [unitClear u, moduleDown pt (if s.isContained pt then 5 else 0), enumStart pt]
    | .off => unitClear u
  | .inst i => Prog.when (s.instState i != 3) (Prog.seq (unitClear u) (insResetStart i))
  | .group g => Prog.seq (unitClear u) (Prog.link fun k => { k with testing := k.testing.filter fun n => n != g.val })
  | _ => unitClear u

/-- UNIT_RESET (R453, R463). -/
def unitResetCmd (h : Hdr) : Prog := unitCmd h 0x0004 fun u k => Prog.seq (unitReset u) (k stOk)

end Sys2Proof.Machine
end

