-- ==== Sys2Proof/Machine/GaugeOps.lean ====
section
/-!
DEFINITION. Machine/GaugeOps.lean: Gauge's own commands: selectors, clears, measurement intervals and the sample ring (R495-R511).
-/
namespace Sys2Proof.Machine

/-! ### Counters -/

/-- A write of GAU_EVSELj (R496, R497): a code the table does not list, or a volume code on an odd counter, is refused. -/
def evselTake (u : UnitId) (j v : Nat) : Prog :=
  if evselRefuses j v then Prog.seq (crossRefuse u .GAU_EVSEL j v) (raise 199 u j)
  else regStore u .GAU_EVSEL j v

/-- Zero a unit's counters, slot accounts and overflow bits (R500). -/
def gaugeClear (u : UnitId) : Prog := Prog.all [
  Prog.each (List.range 8) fun j => Prog.setn u F.GAU_CNT_COUNT j 0,
  Prog.each (List.range 4) fun m => Prog.setn u F.GAU_SLOT_COUNT m 0,
  Prog.set u F.GAU_OVF_OVF 0]

/-- A write of GAU_CTL (R500). -/
def gauCtlTake (u : UnitId) (v : Nat) : Prog := Prog.seq (regStore u .GAU_CTL 0 v) (Prog.when (bitOf v 1) (gaugeClear u))

/-! ### Intervals -/

/-- A boundary: the next number, and its time (R502). -/
def ivlBoundary : Prog := .look fun s => Prog.all [
  Prog.add .root F.GAU_IVL_SEQ 1,
  Prog.set .root F.GAU_IVL_TIME_TIME s.time]

/-- The timebase is at a multiple of the interval (R502). -/
def ivlPeriodic : Prog := .look fun s => Prog.when (s.flag .root F.GAU_IVL_CFG_EN
  && s.time % (s.fld .root F.GAU_IVL_CFG_PERIOD_US * 1000) == 0) ivlBoundary

/-- A write of GAU_IVL_CFG (R502). -/
def ivlCfgTake (v : Nat) : Prog := Prog.seq (regStore .root .GAU_IVL_CFG 0 v) (Prog.when (bitOf v 30) ivlBoundary)

/-- A unit copies its counters and slot accounts and takes the boundary's number (R503). -/
def snapCopy (u : UnitId) : Prog := .look fun s => Prog.all [
  Prog.each (List.range 8) fun j => Prog.setn u F.GAU_SNAP_COUNT j (s.fldn u F.GAU_CNT_COUNT j),
  Prog.each (List.range 4) fun m => Prog.setn u F.GAU_SLOT_SNAP_COUNT m (s.fldn u F.GAU_SLOT_COUNT m),
  Prog.set u F.GAU_IVL_SEQ (s.fld .root F.GAU_IVL_SEQ)]

/-! ### Samples -/

/-- The records of the ring (R510). -/
def State.smpSize (s : State) : Nat := 2 ^ (s.fld .root F.GAU_SMP_RING_LOG2SZ - 6)

/-- The ring's fill is looked at: EV197 once as it reaches half the ring (R510). -/
def smpHalf : Prog := .look fun s =>
  let n := s.smpSize
  let fill := (s.fld .root F.GAU_SMP_PTR_TAIL + n - s.fld .root F.GAU_SMP_PTR_HEAD % n) % n
  let now := decide (n / 2 ≤ fill)
  Prog.seq (Prog.gau fun g => { g with half := now }) (Prog.when (now && !s.dev.gau.half) (raise 197 .root 0))

/-- A write of GAU_SMP_CFG (R507): as EN rises every LFSR is seeded anew, every gap loaded, and the ring starts at 0. -/
def smpCfgTake (v : Nat) : Prog := .look fun s => Prog.seq (regStore .root .GAU_SMP_CFG 0 v)
  (Prog.when (bitOf v 31 && !s.flag .root F.GAU_SMP_CFG_EN) (.look fun t => Prog.all [
    Prog.set .root F.GAU_SMP_PTR_HEAD 0,
    Prog.set .root F.GAU_SMP_PTR_TAIL 0,
    Prog.gau fun g => { g with
      gens := (List.range 72).map fun ix =>
        (ix, smpLoad (t.fld .root F.GAU_SMP_CFG_LOG2N) (smpSeed (t.fld .root F.GAU_SMP_CFG_SEED) ix))
      flight := 0
      seq := 0
      half := false }]))

/-- A write of GAU_SMP_RING (R510): refused while EN is 1 and for a ring that extends past the area of 1 GiB. -/
def smpRingTake (v : Nat) : Prog := .look fun s =>
  let log := F.GAU_SMP_RING_LOG2SZ.bring (F.GAU_SMP_RING_LOG2SZ.part v)
  if s.flag .root F.GAU_SMP_CFG_EN ∨ 2 ^ 30 < F.GAU_SMP_RING_BASE.part v * 4096 + 2 ^ log then
    Prog.seq (crossRefuse .root .GAU_SMP_RING 0 v) (raise 199 .root 0)
  else regStore .root .GAU_SMP_RING 0 v

/-- A write of GAU_SMP_PTR: the manager's HEAD. -/
def smpPtrTake (v : Nat) : Prog := Prog.seq (regStore .root .GAU_SMP_PTR 0 v) smpHalf

/-- FAM of a class (R509). -/
def smpFam : Cls → Nat
  | .mreq | .mrsp => 0
  | .iotx => 1
  | .rmac | .rmab => 2
  | .bisn | .birs => 3

/-- The SRC or DST of a record: a crossbar port and a switch. -/
def smpPlace (x : XPort) (sw : Fin 16) : Nat := x.ix.val + (if x.sub then 128 else 0) + sw.val * 256

/-- A stage field: ns, saturating (R509). -/
def smpStage (ns : Nat) : Nat := min 0xFFFF ns

/-- A sample record (R509); `dst` is the destination of a packet that found no egress, which the spec does not give. -/
def smpRecord (k : Sample) (e : SmpEnd) (seq now dst : Nat) : List Byte :=
  let total := now - k.tIn
  let a := min e.entry total
  let b := min (max a e.out) total
  let c := if bitOf e.flags.toNat 0 then min (max b e.resp) total else b
  let d := match e.stack, k.egr with
    | some st, _ => smpPlace (XPort.int ⟨st.val, by omega⟩) e.dstSw
    | none, some x => smpPlace x e.dstSw
    | none, none => dst
  let flags := e.flags.toNat / 4 * 4 + (if e.stack.isSome then 2 else 0) + e.flags.toNat % 2
  leBytes 1 1 ++ leBytes 1 flags ++ leBytes 1 k.cell.cls.num ++ leBytes 1 (k.cell.opc.val + smpFam k.cell.cls * 64)
    ++ leBytes 4 seq ++ leBytes 2 (smpPlace k.cell.ing k.cell.srcSw) ++ leBytes 2 d
    ++ leBytes 2 (match e.inst with | some i => i.val | none => 0x3FF) ++ leBytes 2 e.lenM1.val
    ++ leBytes 8 e.addr.toNat ++ leBytes 8 k.tIn ++ leBytes 8 (k.tIn + b)
    ++ leBytes 2 (smpStage a) ++ leBytes 2 (smpStage (b - a)) ++ leBytes 2 (smpStage (c - b)) ++ leBytes 2 (smpStage (total - c))
    ++ leBytes 4 total ++ leBytes 4 e.epoch.toNat ++ leBytes 8 0

/-- A sampled transaction ends (R508, R510): its record goes to the Reservoir, behind those not yet acknowledged, or is dropped where the
ring is full. -/
def smpEnd (k : Nat) (e : SmpEnd) : Prog := .look fun s => Prog.opt (Tab.get? s.dev.gau.samples k) fun p =>
  let n := s.smpSize
  let at_ := s.fld .root F.GAU_SMP_PTR_TAIL + s.dev.gau.flight
  let drop := Prog.gau fun g => { g with samples := Tab.erase g.samples k }
  if !s.flag .root F.GAU_SMP_CFG_WRAP && (at_ + 1) % n == s.fld .root F.GAU_SMP_PTR_HEAD % n then
    Prog.all [drop, Prog.add .root F.GAU_SMP_LOST_FULL 1, raise 198 .root 0]
  else
    let o := 0xC0000000 + s.fld .root F.GAU_SMP_RING_BASE * 4096 + at_ % n * 64
    Prog.free fun f => Prog.all [
      drop,
      Prog.each (smpRecord p e s.dev.gau.seq s.time ((Config.freeValue f).toNat % 4096)).zipIdx fun b => .eff (.mem (o + b.2) b.1),
      Prog.gau fun g => { g with flight := g.flight + 1, seq := (g.seq + 1) % 2 ^ 32 }]

/-- The Reservoir has acknowledged the oldest record (R510). -/
def smpAck : Prog := .look fun s =>
  if s.dev.gau.flight = 0 then .skip
  else Prog.all [
    Prog.gau fun g => { g with flight := g.flight - 1 },
    Prog.set .root F.GAU_SMP_PTR_TAIL ((s.fld .root F.GAU_SMP_PTR_TAIL + 1) % s.smpSize),
    smpHalf]

end Sys2Proof.Machine
end

