-- ==== Sys2Proof/Machine/RingOps.lean ====
section
/-!
DEFINITION. Machine/RingOps.lean: the in-band rings of a management port: fetching command entries, writing the replies that wait, and what the domain
of Headwater does with a write of a ring register (R277, R470).
-/
namespace Sys2Proof.Machine

/-- The entries of a port's command ring. -/
def State.cmdSlots (s : State) (pt : PortId) : Nat := 2 ^ s.ring pt F.HW_RING_CFG_CLOG2

/-- Change a port's rings. -/
def ringUpd (pt : PortId) (f : Ring → Ring) : Prog := .look fun s =>
  Prog.hw fun h => { h with rings := Tab.put h.rings pt.ix (f (s.ringOf pt)) }

/-- Whether the fetch of a command entry of a port is outstanding. -/
def State.ringBusy (s : State) (pt : PortId) : Bool :=
  s.dev.ort.entries.any fun e => e.2.isOpen && (match e.2.ctx with | .hw k => k == pt.ix | _ => false)

/-- Whether a port's rings run: a management port in service with the rings enabled (R277, R278). -/
def State.ringOn (s : State) (pt : PortId) : Bool :=
  s.portExists pt && s.mode pt.g == .h && s.mgmt pt && !s.xDown pt.x && s.ring pt F.HW_RING_CFG_EN != 0

/-- Whether the next command entry of a port may be fetched: Headwater takes commands in, its queue has room (R465), function 0 may master
(R283), and an entry is there. -/
def State.ringDue (s : State) (pt : PortId) : Bool :=
  s.ringOn pt && s.flag .root F.HW_STAT_READY && s.bme pt 0 && decide (s.cmdq.length < cmdMax)
    && (s.ringOf pt).cNext % s.cmdSlots pt != (s.ringOf pt).cTail % s.cmdSlots pt && !s.ringBusy pt
    && !(Tab.getD s.dev.flood.waiting (qKey (XPort.int 7) .iotx) []).contains (.ring pt)

/-- Fetch the next command entry of a port where one is due, as a tracked bus-master read of function 0; where the tracker has no room the fetch waits at Headwater's
port (R117, R123). -/
def ringPump (pt : PortId) : Prog := .look fun s =>
  let addr := s.ring pt F.HW_RING_CBASE_BASE * 4096 + (s.ringOf pt).cNext % s.cmdSlots pt * 64
  Prog.when (s.ringDue pt) (ortOpen (XPort.int 7)
    { kind := .headwater, op := .ioRead, tag := BitVec.ofNat 16 pt.ix, addr, len := 64, inst := none, srcSw := s.swid }
    pt.x none (bitOf (s.fld .root F.DEV_EPOCH_CUR) 0) false (.hw pt.ix) (waitAt (XPort.int 7) .iotx (.ring pt))
    fun i g _ => Prog.send (.busRead pt 0 (i, g) addr 64))

/-- Fetch where anything may be fetched, rings in ascending port order (R465). -/
def ringPumpAll : Prog := .look fun s => Prog.each (s.portsIn .h) ringPump

/-- A write of HW_RING_CTAIL. -/
def ringTail (pt : PortId) (v : Nat) : Prog := .look fun s => Prog.seq
  (ringUpd pt fun r => { r with cTail := v % 2 ^ 16 % s.cmdSlots pt })
  (ringPump pt)

/-- Write the replies that wait for a free slot, as far as there are slots (R470). -/
def ringFlush (pt : PortId) : Prog := .look fun s => Prog.seq
  (ringUpd pt fun r => { r with waiting := [] })
  (Prog.each (s.ringOf pt).waiting (ringReply pt))

/-- A write of HW_RING_RHEAD. -/
def ringHead (pt : PortId) (v : Nat) : Prog := .look fun s => Prog.seq
  (ringUpd pt fun r => { r with rHead := v % 2 ^ 16 % s.replySlots pt })
  (ringFlush pt)

/-- A write of HW_RING_CFG: refused where it changes a size while the rings are enabled. Rings that are enabled start at entry 0. -/
def ringCfgTake (pt : PortId) (v : Nat) : Prog := .look fun s =>
  let now := fun (f : Fld) => f.bring (f.part v)
  let on : Bool := s.ring pt F.HW_RING_CFG_EN != 0
  if on && (now F.HW_RING_CFG_CLOG2 != s.ring pt F.HW_RING_CFG_CLOG2 || now F.HW_RING_CFG_RLOG2 != s.ring pt F.HW_RING_CFG_RLOG2) then
    Prog.seq (crossRefuseAt (0x20000000 + pt.ix * 0x1000 + 0x10) v) (raise 0 (.port pt) 0x10)
  else Prog.all [
    Prog.each [F.HW_RING_CFG_EN, F.HW_RING_CFG_VEC, F.HW_RING_CFG_RLOG2, F.HW_RING_CFG_CLOG2] fun f => Prog.setRing pt f (now f),
    Prog.when (!on && now F.HW_RING_CFG_EN != 0) (Prog.seq (ringUpd pt fun r => { Ring.empty with waiting := r.waiting }) (ringFlush pt)),
    ringPump pt]

/-- Headwater's domain takes a write of a whole ring register. -/
def ringTake (pt : PortId) (id : RegId) (v : Nat) : Prog := .look fun s =>
  let base := fun (f : Fld) (off : Nat) =>
    if s.ring pt F.HW_RING_CFG_EN ≠ 0 then Prog.seq (crossRefuseAt (0x20000000 + pt.ix * 0x1000 + off) v) (raise 0 (.port pt) off)
    else Prog.setRing pt f (f.part v)
  match id with
  | .HW_RING_CBASE => base F.HW_RING_CBASE_BASE 0
  | .HW_RING_RBASE => base F.HW_RING_RBASE_BASE 8
  | .HW_RING_CFG => ringCfgTake pt v
  | .HW_RING_CTAIL => ringTail pt v
  | .HW_RING_RHEAD => ringHead pt v
  | _ => .skip

end Sys2Proof.Machine
end

