-- ==== Sys2Proof/Machine/RegFile.lean ====
section
/-!
DEFINITION. Machine/RegFile.lean: the register path: where registers stand (R542, R548, R490), what each reads (R9-R12, R33, R387, R433, R499,
R545), and what a write of each does (R9, R14, R546).
-/
namespace Sys2Proof.Machine

/-! ### Places -/

/-- Whether a register of a class stands in a unit: the Millrace registers in e0 and e1, the fabric registers in a port of mode F (R548). -/
def State.regHere (s : State) (u : UnitId) (id : RegId) : Bool :=
  match id, u with
  | .MRC_CFG, .engine e | .MRC_RTO, .engine e | .MRC_RNR, .engine e | .MRC_REC, .engine e | .MRC_STAT, .engine e | .MRC_TX, .engine e
  | .MRC_RTX, .engine e | .MRC_RX_DISC, .engine e => decide (e.val < 2)
  | .PRT_FAB_PEER, .port pt | .PRT_FAB_STAT, .port pt | .PRT_FL_CFG, .port pt | .PRT_FL_RESHAPE, .port pt | .PRT_FL_RXCFG, .port pt
  | .PRT_FL_RXLIM, .port pt | .PRT_FL_CRED, .port pt | .PRT_FL_STAT, .port pt | .PRT_FL_PSTAT, .port pt | .PRT_FL_ERR, .port pt
  | .PRT_FL_RPL, .port pt | .PRT_FL_STOMP, .port pt | .PRT_FL_RETRAIN, .port pt => s.mode pt.g == .f
  | _, _ => true

/-- What stands at an offset of a unit's block: a register, with its entry and the byte in it, or a word of the key store or of the OTP (R490). -/
inductive RegPlace where
  | reg (r : RegSpec) (n b : Nat)
  | keys
  | otp (word : Nat)
  deriving DecidableEq, Repr

/-- What stands at an offset of a unit's block; nothing in a unit that is absent (R542). -/
def State.regAt (s : State) (u : UnitId) (off : Nat) : Option RegPlace :=
  if !s.unitExists u then none
  else if u = .root ∧ 0x8000 ≤ off ∧ off < 0x9000 then some .keys
  else if u = .root ∧ 0x9000 ≤ off ∧ off < 0xA000 then some (.otp ((off - 0x9000) / 4))
  else (regsOf (unitClass u)).findSome? fun r => (r.hit off).bind fun h =>
    if s.regHere u r.id then some (.reg r h.1 h.2) else none

/-! ### Identity and summaries -/

/-- Whether a unit of its class holds keys (R35, R483). -/
def keyedClass : UnitId → Bool
  | .root | .quadrant _ | .group _ | .port _ | .stack _ | .engine _ => true
  | _ => false

/-- Whether a unit holds a key now (R493). -/
def State.keyed (s : State) (u : UnitId) : Bool := keyedClass u && s.dev.hw.ident

/-- The SHA-384 of a unit's public key (R482); crypto function 1 (log entry 11). -/
def State.keyDigest (s : State) (u : UnitId) : Nat := Config.crypto 1 (pathCode u :: s.dev.hw.cold.nums) % 2 ^ 384

/-- A word of the identity slot (R545): the digest, KEYED, and for the root what the OTP holds beside 0x5120: the four bits of the silicon
revision, and the ordering code as the letters "AC" or "LC" (R2). -/
def State.identWord (s : State) (u : UnitId) (n : Nat) : Nat :=
  if n < 12 then (if s.keyed u then bits (s.keyDigest u) (32 * n + 31) (32 * n) else 0)
  else if n = 12 then b2n (s.keyed u)
  else if u ≠ .root then 0
  else if n = 13 then (Config.otp 13).toNat % 2 ^ 16 + 0x5120 * 2 ^ 16
  else if n = 14 then (Config.otp 14).toNat % 2 ^ 4 + (if Config.lidless then 0x4C else 0x41) * 2 ^ 8 + 0x43 * 2 ^ 16
  else (Config.otp 15).toNat % 2 ^ 32

/-- The children of a unit: count, stride and the address of the first (R542). -/
def State.children (s : State) (u : UnitId) : Nat × Nat × Nat :=
  match u with
  | .root => (1104, 0, 0)
  | .quadrant q => (16, 0x00200000, unitBase (.group ⟨(q.val * 16) % 64, Nat.mod_lt _ (by decide)⟩))
  | .group g => ((s.portsOf g).length, 0x00040000, unitBase (.port ⟨g, 0⟩))
  | .port pt => ((s.lanesOf pt).length, 0x00002000, unitBase (.lane ⟨pt, 0⟩))
  | .stack st => (32, 0x00010000, unitBase (.pc st 0))
  | _ => (0, 0, 0)

/-- The units that are down or contained: contained ports, ports whose crossbar port is down, and slot channels in FAULT (R33, R134, R432). -/
def State.downUnits (s : State) : List UnitId :=
  s.dev.ws.contained ++ (allPorts.filter fun pt => s.xDown pt.x).map UnitId.port
    ++ ((List.finRange 64).filter fun k => s.slotState k == 9).map UnitId.slot

/-- Whether a unit is a group in mode OFF, whose ports and lanes do not exist. -/
def State.unitOff (s : State) (u : UnitId) : Bool :=
  match u with
  | .group g => s.mode g == .off
  | _ => false

/-- The status summary of a unit (R33): 0 ACTIVE, 1 DEGRADED, 2 FENCED, 3 OFF. A descendant that is OFF does not degrade it. -/
def State.statusOf (s : State) (u : UnitId) : Nat :=
  if s.isFenced u then 2
  else if s.unitOff u then 3
  else if (s.dev.ws.fenced ++ s.downUnits).any fun v => isUnder u v && s.unitExists v && !s.unitOff v then 1
  else 0

/-! ### Reading -/

/-- The open faults of all domains. -/
def State.openFaults (s : State) : List OpenFault := s.dev.ws.faults.flatMap fun e => e.2.flatMap fun c => c.list

/-- A history entry as its 32 bytes (R433). -/
def HistEntry.num (e : HistEntry) : Nat :=
  e.time % 2 ^ 64 + e.path * 2 ^ 64 + e.event * 2 ^ 96 + e.level % 4 * 2 ^ 112 + e.cls % 16 * 2 ^ 114 + b2n e.esc * 2 ^ 118
    + b2n e.inj * 2 ^ 119 + b2n e.ack * 2 ^ 120 + b2n e.queued * 2 ^ 121 + b2n e.safe * 2 ^ 122 + b2n e.fenced * 2 ^ 123
    + e.seq % 2 ^ 32 * 2 ^ 128 + e.supp % 2 ^ 32 * 2 ^ 160 + e.arg % 2 ^ 64 * 2 ^ 192

/-- A word of the history queue: word j of the entry whose SEQ is n mod 32 (R433); a place that holds no entry reads zero. -/
def State.histWord (s : State) (n : Nat) : Nat :=
  match s.hist.find? fun e => e.seq % 32 == n / 4 with
  | some e => e.num / 2 ^ (64 * (n % 4)) % 2 ^ 64
  | none => 0

/-- The dirty lines a resize has still to write back (R146): write-backs outstanding, and those that wait for the tracker. -/
def State.resizeLeft (s : State) : Nat :=
  Tab.count s.dev.ort.entries (fun _ e => e.isOpen && (match e.ctx with | .wb _ _ => true | _ => false))
    + (s.dev.flood.waiting.map fun e => (e.2.filter fun w => match w with | .wb _ _ => true | _ => false).length).sum
    + Tab.count s.dev.rsv.ways (fun _ y => y.dirty)

/-- The flow ends of an engine of Millrace that a test picks (R200). -/
def State.engFlows (s : State) (u : UnitId) (p : Flow → Bool) : Nat :=
  match u with
  | .engine e => Tab.count s.dev.mill.flows fun f w => decide (f % 2 = e.val) && p w
  | _ => 0

/-- The fields whose value is computed at the read. -/
def State.liveFields (s : State) (u : UnitId) (id : RegId) (n : Nat) : List (Fld × Nat) :=
  let pend := b2n (s.inFlight u id n)
  match id with
  | .DEV_EPOCH_STAT => [
      (F.DEV_EPOCH_STAT_OPEN_COUNT, match s.dev.xlat.openBuf with | some b => b.length | none => 0),
      (F.DEV_EPOCH_STAT_NO_OPEN, b2n s.dev.xlat.openBuf.isNone),
      (F.DEV_EPOCH_STAT_QUEUED, b2n s.dev.xlat.queued.isSome)]
  | .DEV_MOV_STAT => [(F.DEV_MOV_STAT_HOLDING, b2n s.dev.mov.hold.isSome), (F.DEV_MOV_STAT_ACTIVE, s.dev.mov.slots.length)]
  | .DEV_FP_OCC => [
      (F.DEV_FP_OCC_RMAB, Tab.getD s.dev.flood.resUsed 6 0 + Tab.getD s.dev.flood.shUsed 6 0),
      (F.DEV_FP_OCC_TOTAL, s.fpTotal)]
  | .DEV_ORT_STAT => [
      (F.DEV_ORT_STAT_QUAR, Tab.count s.dev.ort.entries fun _ e => !e.isOpen),
      (F.DEV_ORT_STAT_PNQ, s.dev.ort.notices.length),
      (F.DEV_ORT_STAT_INUSE, s.dev.ort.entries.length)]
  | .DEV_RSV_RSZ => [(F.DEV_RSV_RSZ_LEFT, if s.dev.rsv.resize.isSome then (s.resizeLeft + 1023) / 1024 else 0)]
  | .DEV_RSV_SUSPECT => [
      (F.DEV_RSV_SUSPECT_FULL, b2n s.dev.rsv.suspectAll), (F.DEV_RSV_SUSPECT_COUNT, s.dev.rsv.suspect.length)]
  | .DEV_PL_STAT => [
      (F.DEV_PL_STAT_ALLS, Tab.count s.dev.rsv.poison fun _ e => e.all),
      (F.DEV_PL_STAT_LINES, Tab.count s.dev.rsv.poison fun _ e => !e.all)]
  | .RSV_MB_STAT => [(F.RSV_MB_STAT_INUSE, match u with | .stack st => s.mergeCount st | _ => 0)]
  | .DEV_COH_STAT => [
      (F.DEV_COH_STAT_WALK, b2n (s.fld .root F.DEV_COH_LOST_LOST != 0 || s.fld .root F.DEV_RSV_RSZ_STATE != 0)),
      (F.DEV_COH_STAT_SUSPECT, if s.dev.coh.suspectAll then 256 else s.dev.coh.suspect.length),
      (F.DEV_COH_STAT_BUSY, s.dev.coh.busy.length)]
  | .MRC_STAT => [
      (F.MRC_STAT_DEPARTED, s.engFlows u fun w => w.departed),
      (F.MRC_STAT_ERROR, s.engFlows u fun w => w.err),
      (F.MRC_STAT_OPEN, s.engFlows u fun w => !w.err)]
  | .PRT_HSTAT => [(F.PRT_HSTAT_HELD, match u with
      | .port pt => b2n (s.dev.ports.held.any fun e => ownsFn pt e.1 && !e.2.isEmpty)
      | _ => 0)]
  | .INS_STAT => [(F.INS_STAT_FLOWS, match u with | .inst i => s.instFlows i | _ => 0)]
  | .DEV_MBX_PEND => [(F.DEV_MBX_PEND_PEND, ((List.range 64).map fun b =>
      b2n (s.full ⟨(64 * n + b) % 1024, Nat.mod_lt _ (by decide)⟩ true) * 2 ^ b).sum)]
  | .LEV_STAT => [
      (F.LEV_STAT_ENABLED, s.rules.length),
      (F.LEV_STAT_LOCKED, ((List.range 4096).filter fun k => s.fldn .root F.LEV_RULE_CTL_LOCK k == 1).length)]
  | .PRT_FL_CRED => [(F.PRT_FL_CRED_EMPTY, match u with
      | .port pt => ((List.range 7).map fun k => b2n (Tab.getD (s.flink pt.g).cred k 0 == 0) * 2 ^ k).sum
      | _ => 0)]
  | .PRT_FL_PSTAT => [(F.PRT_FL_PSTAT_EDDY_INUSE, match u with | .port pt => (s.flink pt.g).eddy.length | _ => 0)]
  | .DEV_CLK_STAT => [(F.DEV_CLK_STAT_DROOP, b2n s.coreSlow)]
  | .DEV_CDC_PEND => [
      (F.DEV_CDC_PEND_GRP, b2n (s.domainPend fun d => match d with | .grp _ => true | _ => false)),
      (F.DEV_CDC_PEND_SLOT, b2n (s.domainPend fun d => d == .slotDie)),
      (F.DEV_CDC_PEND_AON, b2n (s.domainPend fun d => d == .aon)),
      (F.DEV_CDC_PEND_RSV, b2n (s.domainPend fun d => d == .rsv)),
      (F.DEV_CDC_PEND_HW, b2n (s.domainPend fun d => d == .headwater))]
  | .DEV_TIME => [(F.DEV_TIME_NS, s.time % 2 ^ 64)]
  | .SLT_CFG => [(F.SLT_CFG_PEND, pend)]
  | .SLT_ILIM => [(F.SLT_ILIM_PEND, pend)]
  | .SLT_TIME => [(F.SLT_TIME_PEND, pend)]
  | .SLT_VTHR => [(F.SLT_VTHR_PEND, pend)]
  | .SLT_THM => [(F.SLT_THM_PEND, pend)]
  | .SLT_TAU => [(F.SLT_TAU_PEND, pend)]
  | .SLT_TLIM => [(F.SLT_TLIM_PEND, pend)]
  | .SLT_NTC => [(F.SLT_NTC_PEND, pend)]
  | .SLT_CMD => [(F.SLT_CMD_PEND, pend)]
  | .LN_CAL_USR => [(F.LN_CAL_USR_PEND, pend)]
  | .GAU_CTL => [(F.GAU_CTL_PEND, pend)]
  | .SLT_STAT => [(F.SLT_STAT_BOUND, match u with | .slot k => b2n (s.boundPort k).isSome | _ => 0)]
  | .DEV_WS_STAT => [
      (F.DEV_WS_STAT_SAFE, b2n s.dev.ws.safe),
      (F.DEV_WS_STAT_INJ_EN, s.fld .root F.HW_STAT_FTM),
      (F.DEV_WS_STAT_ALIVE, b2n s.alive),
      (F.DEV_WS_STAT_LEVEL, s.openFaults.foldl (fun m f => max m f.level) 0),
      (F.DEV_WS_STAT_OPEN, min 255 s.openFaults.length),
      (F.DEV_WS_STAT_HCOUNT, s.hist.length)]
  | .DEV_WS_HIST_W => [(F.DEV_WS_HIST_W_ENTRY, s.histWord n)]
  | .HW_STAT => [(F.HW_STAT_BG, s.bg.length), (F.HW_STAT_QDEPTH, s.cmdq.length)]
  | .ID => [(F.ID_CLASS, unitClassNum u), (F.ID_INDEX, unitIndex u)]
  | .PATH => [(F.PATH_CODE, pathCode u)]
  | .CHILD => [(F.CHILD_STRIDE, (s.children u).2.1), (F.CHILD_COUNT, (s.children u).1)]
  | .CHILD_BASE => [(F.CHILD_BASE_ADDR, (s.children u).2.2)]
  | .SUMMARY => [(F.SUMMARY_FAULT, s.summaryLevel u), (F.SUMMARY_STATUS, s.statusOf u)]
  | .IDENT => [(F.IDENT_WORD, s.identWord u n)]
  | _ => []

/-- The value a field of a list overrides another with, where it does. -/
def liveOf (l : List (Fld × Nat)) (f : Fld) : Option Nat := (l.find? fun e => e.1 == f).map Prod.snd

/-- The value that reads of a field return while a write of its register is in flight and the register store does not hold it (R387). -/
def State.keptPart (s : State) (u : UnitId) (r : RegSpec) (n : Nat) (f : Fld) : Option Nat :=
  if f.acc = .rw ∨ f.acc = .rwl then
    ((Tab.get? s.dev.io.crossing (regAddr u r.id n)).bind Crossing.kept).map fun v => match u with
      | .lane ln => if f = F.LN_TXEQ_PRESET then min (s.presetTop ln.port.g) (f.part v) else f.bring (f.part v)
      | _ => f.bring (f.part v)
  else none

/-- The value of a register (R10, R11, R387): WO and reserved bits read zero. -/
def State.regValue (s : State) (u : UnitId) (r : RegSpec) (n : Nat) : Nat :=
  let live := s.liveFields u r.id n
  (r.fields.map fun f => (match liveOf live f with
    | some v => v % 2 ^ f.w
    | none => if f.acc = .wo then 0 else (s.keptPart u r n f).getD (s.fldn u f n)) * 2 ^ f.lo).sum

/-- Clear the RC fields of the part of a register that is read (R11, R12). -/
def rcClear (u : UnitId) (r : RegSpec) (n : Nat) (part : RegPart) : Prog :=
  Prog.each (r.fields.filter fun f => f.acc == .rc && (match part with
    | .whole => true
    | .low => decide (f.lo < 32)
    | .high => decide (32 ≤ f.lo))) fun f => Prog.setn u f n 0

/-- The half a master holds for a register, by the register's address. -/
def halfOf (l : List Half) (m : Master) (a : Nat) : Option Nat := (l.find? fun h => h.master == m && h.addr == a).map Half.value

/-- Without the half a master holds for a register. -/
def halfDrop (l : List Half) (m : Master) (a : Nat) : List Half := l.filter fun h => !(h.master == m && h.addr == a)

/-- What a read of a Gauge counter or slot account latches (R499): the odd counter behind an even one, accounts 1 to 3 behind account 0. -/
def gaugeLatch (id : RegId) (n : Nat) : List Nat :=
  match id with
  | .GAU_CNT => if n % 2 = 0 then [n + 1] else []
  | .GAU_SLOT => if n = 0 then [1, 2, 3] else []
  | _ => []

/-- Read a register, or a half of a 64-bit one (R9, R11, R499), and go on with the value. -/
def regRead (m : Master) (u : UnitId) (r : RegSpec) (n : Nat) (part : RegPart) (k : Nat → Prog) : Prog := .look fun s =>
  let a := regAddr u r.id n
  let v := (halfOf s.dev.io.gauge m a).getD (s.regValue u r n)
  let latch := Prog.io fun i => { i with
    gauge := (gaugeLatch r.id n).foldl (fun l j =>
      halfDrop l m (regAddr u r.id j) ++ [{ master := m, addr := regAddr u r.id j, value := s.regValue u r j }]) (halfDrop i.gauge m a) }
  match part with
  | .whole => Prog.all [latch, rcClear u r n .whole, k v]
  | .low => Prog.all [
      latch,
      Prog.io fun i => { i with high := halfDrop i.high m a ++ [{ master := m, addr := a, value := v / 2 ^ 32 }] },
      rcClear u r n .low,
      k (v % 2 ^ 32)]
  | .high => Prog.all [
      Prog.io fun i => { i with high := halfDrop i.high m a },
      rcClear u r n .high,
      k ((halfOf s.dev.io.high m a).getD (v / 2 ^ 32))]

/-! ### Writing -/

/-- A write that no rule of its own governs: refused where it places a reserved encoding, stored by access codes otherwise (R11, R14). -/
def regPlain (u : UnitId) (id : RegId) (n v : Nat) : Prog :=
  if regLegal (regSpec (unitClass u) id) v then regStore u id n v
  else Prog.seq (crossRefuse u id n v) (raise (refuseEvent id) u n)

/-- A write of a window's base, size or GPA (R42, R44). -/
def winFieldTake (pt : PortId) (id : RegId) (n v : Nat) : Prog := .look fun s =>
  if s.fldn (.port pt) F.PRT_WIN_CTL_LOCK n = 1 ∨ s.winEn pt n = true then raise 40 (.port pt) n
  else regStore (.port pt) id n v

/-- The command a CMD write issues, where its OPC is one of the table (R546). -/
def cmdOf (opc param : Nat) : Option AsrynCmd :=
  match opc with
  | 0x0004 => some (if param = 0 then .unitReset else .badParam 0x0004)
  | 0x0010 => some (if param ≤ 14 then .faultAck (BitVec.ofNat 8 param) else .badParam 0x0010)
  | 0x0500 => some (if 1 ≤ param ∧ param ≤ 5 then .slotCmd (BitVec.ofNat 8 param) else .badParam 0x0500)
  | _ => none

/-- A write of CMD (R546). -/
def cmdTake (u : UnitId) (v : Nat) : Prog := .look fun s =>
  let opc := F.CMD_OPC.part v
  if opc = 0 then .skip
  else match cmdOf opc (F.CMD_PARAM.part v), !s.flag u F.CMD_RES_BUSY && s.flag .root F.HW_STAT_READY with
    | some c, true =>
      if cmdMax ≤ s.cmdq.length then Prog.set u F.CMD_RES_STATUS stBusy
      else Prog.seq (Prog.set u F.CMD_RES_BUSY 1) (.eff (.cmdPush {
        hdr := { path := .unit u, opcode := BitVec.ofNat 16 opc, seq := 0, ctx := 0, quiet := false, target := BitVec.ofNat 32 (pathCode u), buf := 0, blen := 0 },
        cmd := c }))
    | _, _ => raise 2 u opc

/-- The domain of a register takes a write of the whole register: what its chapter says, or the plain rule. -/
def regTake (m : Master) (u : UnitId) (id : RegId) (n v : Nat) : Prog :=
  match id, u with
  | .PRT_WIN_BASE, .port pt | .PRT_WIN_SIZE, .port pt | .PRT_WIN_GPA, .port pt => winFieldTake pt id n v
  | .PRT_WIN_CTL, .port pt => winCtlWrite pt n v
  | .DEV_XC_CTL, _ => Prog.when (bitOf v 0) xcInvalidate
  | .DEV_MOV_CTL, _ => Prog.seq (regPlain u id n v) movUnready
  | .DEV_FP_CLS_CFG, _ => fpCfgWrite n v
  | .DEV_FP_CLS_SH, _ => fpShWrite n v
  | .DEV_COH_HOST, _ => cohHostWrite n v
  | .MRC_ICMD_CTL, .inst i => icmd i (F.MRC_ICMD_CTL_OPC.part v)
  | .MRC_EQ_DB, .inst i => eqDoorbell i (F.MRC_EQ_DB_HEAD.part v)
  | .MRC_SQ_DB, .inst i => sqDoorbell i n (F.MRC_SQ_DB_TAIL.part v)
  | .MRC_CQ_DB, .inst i => cqDoorbell i n (F.MRC_CQ_DB_HEAD.part v)
  | .DEV_FAB_ID, _ => fabIdWrite v
  | .DEV_FAB_RT, _ => fabRtWrite n v
  | .GRP_CFG, .group g => groupModeWrite g v
  | .PRT_HCFG, .port pt => hcfgWrite pt v
  | .PRT_MCFG, .port pt => mcfgWrite pt v
  | .INS_MBX_DB, .inst i => mbxDbWrite m i v
  | .INS_MBX_H2M, .inst i => mbxWrite m i true n v
  | .INS_MBX_M2H, .inst i => mbxWrite m i false n v
  | .LEV_RULE_BASE, _ => leveeRange n false v
  | .LEV_RULE_LIMIT, _ => leveeRange n true v
  | .LEV_RULE_CTL, _ => leveeCtl n v
  | .PRT_FL_RXCFG, .port pt => rxPoolWrite pt.g false v
  | .PRT_FL_RXLIM, .port pt => rxPoolWrite pt.g true v
  | .PRT_FL_RESHAPE, .port pt => reshape pt.g v
  | .GRP_LTEST, .group g => linkTest g v
  | .LN_TXEQ, .lane ln => txEqWrite ln v
  | .LN_CAL_USR, .lane ln => calWrite ln v
  | .LN_MRG_CTL, .lane ln => marginWrite ln v
  | .SLT_ILIM, .slot k => slotIlimTake k v
  | .SLT_CMD, .slot k => slotCmdTake k (F.SLT_CMD_OP.part v)
  | .DEV_WS_ACK, _ => ackSeq (F.DEV_WS_ACK_SEQ.part v)
  | .DEV_WS_INJ, _ => injectWrite v
  | .DEV_RST_CMD, _ => rstCmdWrite v
  | .GRP_PWR, .group g => groupPowerWrite g v
  | .GAU_CTL, _ => gauCtlTake u v
  | .GAU_EVSEL, _ => evselTake u n v
  | .GAU_IVL_CFG, _ => ivlCfgTake v
  | .GAU_SMP_CFG, _ => smpCfgTake v
  | .GAU_SMP_RING, _ => smpRingTake v
  | .GAU_SMP_PTR, _ => smpPtrTake v
  | .CMD, _ => cmdTake u v
  | _, _ => regPlain u id n v

/-- The domain of the register at an address takes a write that has waited in its shadow. -/
def addrTake (a v : Nat) : Prog :=
  match ringOfAddr a, regOfAddr a with
  | some e, _ => ringTake e.1 e.2.id v
  | none, some r => regTake .headwater r.1 r.2.1 r.2.2 v
  | none, none => .skip

/-- The shadows of a domain are taken as far as they may be (R388, R389). -/
def domainPump (d : Domain) : Prog := crossPump addrTake d

/-- A write of a whole ring register crosses into Headwater's domain (R386, R388). -/
def ringCross (pt : PortId) (r : RegSpec) (v : Nat) : Prog :=
  crossAt (ringAddr pt r) v (ringTake pt r.id v) (domainPump .headwater)

/-- A write of a whole register (R9, R386-R389): the master's held half goes, and the write crosses into the register's domain. A register of a
unit that is absent takes none. -/
def regWhole (m : Master) (u : UnitId) (id : RegId) (n v : Nat) : Prog := .look fun s =>
  Prog.when (s.unitExists u && s.regHere u id) (Prog.seq (dropHeld m)
    (crossWrite u id n v (regTake m u id n v) (domainPump (regDomain u id))))

/-- Write a register, or a half of a 64-bit one (R9): a low half is held for the master, a high half takes effect with the held low half, or with
the register's current one. -/
def regWrite (m : Master) (u : UnitId) (r : RegSpec) (n : Nat) (part : RegPart) (v : Nat) : Prog :=
  let a := regAddr u r.id n
  match part with
  | .whole => regWhole m u r.id n v
  | .low => Prog.seq (dropHeld m) (Prog.io fun i => { i with low := i.low ++ [{ master := m, addr := a, value := v % 2 ^ 32 }] })
  | .high => .look fun s =>
      regWhole m u r.id n ((halfOf s.dev.io.low m a).getD (s.regValue u r n % 2 ^ 32) + v % 2 ^ 32 * 2 ^ 32)

/-! ### SLOT_CMD (R402) -/

/-- SLOT_CMD (R388, R402, R463): it writes the operation to SLT_CMD of the slot channels of its target, and passes over every other unit. A write that finds
one in flight waits in the shadow, and the reply with it. A FENCED channel refuses a power-on itself, with code 7 (R411). -/
def slotCmd (h : Hdr) (op : Nat) : Prog :=
  unitCmdOf h 0x0500 (fun s u => s.unavailable u && !(op == 1 && unitClass u == .slot))
    (fun u k => match u with
      | .slot c => if op = 0 ∨ 5 < op then k stInvalid else .look fun s =>
          let a := regAddr (.slot c) .SLT_CMD 0
          if s.crossFree a then crossAt a op (slotOp c op fun code => k (slotStatus code)) .skip
          else Prog.seq (Prog.hw fun v => { v with slot := some (match v.slot with
              | some w => { w with left := w.left ++ [c.val] }
              | none => { hdr := h, left := [c.val], tally := { worst := 0, first := 0, nfail := 0 } }) })
            (Prog.seq (crossAt a op .skip (domainPump .slotDie)) (k stOk))
      | _ => k stOk)
    fun t => .look fun s => match s.dev.hw.slot with
      | some w => if w.left.isEmpty then Prog.seq (Prog.hw fun v => { v with slot := none }) (tallyReply h t)
        else Prog.hw fun v => { v with slot := some { w with tally := t } }
      | none => tallyReply h t

/-! ### Crossings (R387, R388) -/

/-- The acknowledge of a write in flight to the register at an address returns (R387-R389): reads return the value in effect again, and a value in the shadow
starts its own crossing, after the older ones of its domain. -/
def crossAck (a : Nat) : Prog := .look fun s =>
  Prog.opt (Tab.get? s.dev.io.crossing a) fun c => Prog.when c.flight (Prog.seq
    (Prog.io fun i => { i with crossing := if c.shadow.isSome then Tab.put i.crossing a { c with flight := false } else Tab.erase i.crossing a })
    (domainPump (addrDomain a)))

end Sys2Proof.Machine
end

