-- ==== Sys2Proof/Machine/BootOps.lean ====
section
/-!
DEFINITION. Machine/BootOps.lean: step 5 of a cold or warm reset: the strap layouts (R269), the configuration image (R26, R481), and the groups,
ports, stacks and engines as they come up (R444, R454, R416).
-/
namespace Sys2Proof.Machine

/-! ### The configuration image in flash (R471, R481) -/

/-- A byte of the flash; an erased one reads 0xFF. -/
def State.flashByte (s : State) (a : Nat) : Byte := Tab.getD s.dev.hw.flash a 0xFF

/-- Bytes of the flash. -/
def State.flashBytes (s : State) (a n : Nat) : List Byte := (List.range n).map fun i => s.flashByte (a + i)

/-- Where a configuration slot lies. -/
def cfgBase (slot : Fin 2) : Nat := if slot = 0 then 0x01810000 else 0x01A10000

/-- A record: path code, unit offset with bit 31 for a 64-bit register, value. -/
structure CfgRec where
  path : Nat
  off : Nat
  value : Nat
  deriving DecidableEq, Repr

/-- The records of a configuration slot: none where the header does not name an image, its count passes the slot's end, or its CRC-32C is wrong.
The header's version, count and CRC stand at bytes 4, 8 and 12 (log entry 60). -/
def State.cfgRecords (s : State) (slot : Fin 2) : Option (List CfgRec) :=
  let b := cfgBase slot
  let n := leNum (s.flashBytes (b + 8) 4)
  if s.flashBytes b 4 ≠ [0x4E, 0x5A, 0x43, 0x46] ∨ leNum (s.flashBytes (b + 4) 4) ≠ 1 ∨ 131070 < n then none
  else
    let body := s.flashBytes (b + 32) (16 * n)
    if crc32c body ≠ leNum (s.flashBytes (b + 12) 4) then none
    else some ((List.range n).map fun i => {
      path := leNum ((body.drop (16 * i)).take 4)
      off := leNum ((body.drop (16 * i + 4)).take 4)
      value := leNum ((body.drop (16 * i + 8)).take 8) })

/-- The register a record names: its unit, the register and the entry; its bit 31 says the register's width. -/
def CfgRec.place (r : CfgRec) : Option (UnitId × RegSpec × Nat) :=
  match unitOfCode r.path with
  | none => none
  | some u => (regsOf (unitClass u)).findSome? fun q => match q.hit (r.off % 2 ^ 31) with
    | some (n, 0) => if q.wide = decide (2 ^ 31 ≤ r.off) then some (u, q, n) else none
    | _ => none

/-! ### The layout of groups (R23-R26, R269) -/

/-- The mode and width that the straps give a group, 0b01 and 0b10 being the layouts L1 and L2. -/
def strapMode (pmode g : Nat) : Mode × Bool :=
  match pmode with
  | 1 => if g % 16 < 6 then (.h, false) else if g % 16 < 14 then (.m, true) else (.f, false)
  | 2 => if g % 16 < 8 then (.h, false) else (.m, true)
  | _ => (.f, false)

/-- The M groups before a group in a strap layout. -/
def strapRank (pmode g : Nat) : Nat := ((List.range g).filter fun k => (strapMode pmode k).1 == .m).length

/-- The last value that records give the GRP_CFG of a group. -/
def imageMode (l : List CfgRec) (g : Fin 64) : Mode × Bool :=
  l.foldl (fun m r => match r.place with
    | some (.group k, q, _) => if k = g ∧ q.id = .GRP_CFG then (Mode.ofNum (r.value % 4), bitOf r.value 2) else m
    | _ => m) (.off, false)

/-- The layout of a boot. -/
def State.bootMode (s : State) (l : List CfgRec) (g : Fin 64) : Mode × Bool :=
  if s.fld .root F.DEV_STRAP_PMODE = 0 then imageMode l g else strapMode (s.fld .root F.DEV_STRAP_PMODE) g.val

/-- The slot channel that the last record of a legal rate gives a port (R481, R289). -/
def imageSlot (l : List CfgRec) (pt : PortId) : Option Nat :=
  l.foldl (fun b r => match r.place with
    | some (.port q, x, _) =>
      let rate := F.PRT_MCFG_MAXRATE.part r.value
      if q = pt ∧ x.id = .PRT_MCFG ∧ rate ≠ 0 ∧ rate ≠ 7 then some (r.value % 64) else b
    | _ => b) none

/-- Whether a port is there in a layout, in mode M. -/
def inLayout (m : Fin 64 → Mode × Bool) (pt : PortId) : Bool := (m pt.g).1 == .m && (pt.p == 0 || (m pt.g).2)

/-- Whether a layout keeps R24, R25 and R26; `slot` gives the bindings of its ports. A port in mode M without one, or two with one channel, break R25 (log entry 120). -/
def layoutOk (m : Fin 64 → Mode × Bool) (slot : PortId → Option Nat) : Bool :=
  let ports := fun (k : Mode) => ((List.finRange 64).map fun g => if (m g).1 == k then (if (m g).2 then 2 else 1) else 0).sum
  let slots := (allPorts.filter (inLayout m)).map slot
  !((List.finRange 64).any fun g => (m g).1 == .f && (m g).2) && decide (ports .h ≤ 32) && decide (ports .m ≤ 64)
    && slots.all Option.isSome && decide (slots.eraseDups.length = slots.length)

/-- The number of a mode. -/
def Mode.num : Mode → Nat
  | .off => 0 | .h => 1 | .m => 2 | .f => 3

/-- Set the mode and width of a group, configured and in effect. -/
def bootGroup (g : Fin 64) (m : Mode × Bool) : Prog := Prog.all [
  Prog.set (.group g) F.GRP_CFG_MODE m.1.num, Prog.setB (.group g) F.GRP_CFG_SPLIT m.2,
  Prog.set (.group g) F.GRP_STAT_CUR_MODE m.1.num, Prog.setB (.group g) F.GRP_STAT_CUR_SPLIT m.2]

/-- The slot channel k(2m + p) that a strap layout gives a port (R269). -/
def strapSlot (pmode : Nat) (pt : PortId) : Option Nat :=
  if pmode ≠ 0 ∧ (strapMode pmode pt.g.val).1 = .m then some (2 * strapRank pmode pt.g.val + pt.p.val) else none

/-- The slot bindings of a strap layout. -/
def bootBind (pmode : Nat) : Prog := Prog.each allPorts fun pt => Prog.opt (strapSlot pmode pt) fun k =>
  Prog.seq (Prog.set (.port pt) F.PRT_MCFG_SLOT k) (bindPort pt)

/-! ### Records -/

/-- The partition of the Reservoir for a map and a directory size (R145). -/
def setPartition (mapGib dirGib : Nat) : Prog := Prog.all [
  Prog.set .root F.DEV_RSV_PART_MAP_GIB mapGib,
  Prog.set .root F.DEV_RSV_PART_DIR_GIB dirGib,
  Prog.set .root F.DEV_RSV_PART_CACHE_GIB (124 - mapGib - dirGib),
  Prog.set .root F.DEV_RSV_PART_UNITS ((124 - mapGib - dirGib) * 512),
  Prog.set .root F.DEV_MAP_SIZE_NEXT (mapGib * 2 ^ 26)]

/-- The events by which a register refuses a write. -/
def refusal (ev : Nat) : Bool := [0, 40, 62, 101, 115, 139, 164, 199].contains ev

/-- Whether a refusal was logged, or kept out of the log by its limit, between two states. -/
def refusedBetween (s t : State) : Bool :=
  t.hist.any (fun e => refusal e.event && !s.hist.contains e)
    || t.dev.ws.supp.any fun e => refusal (e.1 / 2 ^ 32) && decide (Tab.getD s.dev.ws.supp e.1 0 < e.2)

/-- The SLT_ configuration registers, which a warm reset keeps (R416). -/
def slotConfig : RegId → Bool
  | .SLT_CFG | .SLT_ILIM | .SLT_TIME | .SLT_VTHR | .SLT_THM | .SLT_TAU | .SLT_TLIM | .SLT_NTC => true
  | _ => false

/-- A register write by the boot: a group that has no clock yet takes its class N fields into its shadow (R452). -/
def bootWrite (u : UnitId) (id : RegId) (n v : Nat) : Prog := .look fun s =>
  if s.clocked (regDomain u id) then regTake .headwater u id n v else unclockedWrite u id n v

/-- A record that names PRT_MCFG (R14, R269, R289): in a strap layout the binding is the layout's, and the record supplies the other fields. That no
two ports share a channel has been seen to (R26); a channel that is powered through a warm reset does not hinder the binding it had. -/
def bootMcfg (pt : PortId) (v : Nat) (refuse : Prog) : Prog := .look fun s =>
  let rate := F.PRT_MCFG_MAXRATE.part v
  if rate = 0 ∨ rate = 7 then Prog.seq (raise 115 (.port pt) (v % 64)) refuse
  else Prog.all [
    regStore (.port pt) .PRT_MCFG 0 v,
    Prog.opt (strapSlot (s.fld .root F.DEV_STRAP_PMODE) pt) fun k => Prog.set (.port pt) F.PRT_MCFG_SLOT k,
    bindPort pt]

/-- Headwater loads the thermal limits of the reported ordering code (R2, R448, R539). -/
def thermLoad : Prog := Prog.each [F.DEV_THERM_CFG_DIE_WARN, F.DEV_THERM_CFG_DIE_THROT, F.DEV_THERM_CFG_DIE_TRIP, F.DEV_THERM_CFG_STK_WARN,
  F.DEV_THERM_CFG_STK_THROT, F.DEV_THERM_CFG_STK_TRIP] fun f => match f.lim with
    | .code ac lc => Prog.set .root f (if Config.lidless then lc else ac)
    | _ => .skip

/-- Apply one record (R481). -/
def bootRecord (warm : Bool) (i : Nat) (r : CfgRec) : Prog := .look fun s =>
  let refuse := raise 195 .root i
  match r.place with
  | none => refuse
  | some (u, q, n) =>
    let m := F.DEV_RSV_PART_MAP_GIB.part r.value
    let d := F.DEV_RSV_PART_DIR_GIB.part r.value
    match q.id, u with
    | .DEV_RSV_PART, _ =>
      if warm then Prog.when (m != s.fld .root F.DEV_RSV_PART_MAP_GIB || d != s.fld .root F.DEV_RSV_PART_DIR_GIB) refuse
      else if m < 1 ∨ 8 < m ∨ 16 < d then refuse
      else setPartition m d
    | .GRP_CFG, _ => .skip
    | .PRT_MCFG, .port pt => bootMcfg pt r.value refuse
    | .GRP_PWR, _ => regStore u .GRP_PWR n r.value
    | id, _ =>
      if warm && slotConfig id then .skip
      else Prog.seq (bootWrite u id n r.value)
        (Prog.when (refusedBetween s ((bootWrite u id n r.value).run s)) refuse)

/-! ### Coming up -/

/-- A group comes up, unless it is OFF, powered off or fenced (R271, R451). -/
def bootUp (g : Fin 64) : Prog := .look fun s =>
  if s.mode g = .off ∨ s.isFenced (.group g) = true then .skip
  else if s.flag (.group g) F.GRP_PWR_OFF then Prog.set (.group g) F.GRP_PWR_STATE 1
  else Prog.all [
    setPhy g true,
    Prog.each ((s.portsOf g).flatMap s.lanesOf) laneConfig,
    groupTrain g]

/-- Step 5 of a cold or warm reset (R444, R454); `ident` says whether the derivation of keys succeeded (R483). In recovery the boot does not get
here (R473). -/
def bootComplete (ident : Bool) : Prog := .look fun s =>
  let recs := (s.cfgRecords s.dev.hw.cfgSlot).getD []
  let layout := s.bootMode recs
  let pmode := s.fld .root F.DEV_STRAP_PMODE
  let ok := layoutOk layout fun pt => if pmode = 0 then imageSlot recs pt else strapSlot pmode pt
  let warm := s.dev.pwr.warm
  Prog.when (s.dev.pwr.phase == .boot && !s.flag .root F.HW_STAT_RECOVERY) (Prog.all [
    thermLoad,
    Prog.each (List.finRange 64) fun g => bootGroup g (if ok then layout g else (.off, false)),
    Prog.when ok (Prog.seq (bootBind pmode) (Prog.each recs.zipIdx fun r => bootRecord warm r.2 r.1)),
    Prog.when (!ok) (raise 1 .root 0),
    selfRefresh false,
    Prog.set .root F.DEV_PD_STAT2_HW 1,
    Prog.set .root F.DEV_PD_STAT2_STK_ON 15,
    Prog.when (!warm) (Prog.set .root F.DEV_PD_STAT2_ENG_ON 255),
    Prog.when (!warm) (Prog.hw fun h => { h with ident := ident }),
    Prog.when (!warm && !ident) (raise 192 .root 0),
    Prog.set .root F.HW_STAT_READY 1,
    .look fun t => Prog.when ((List.finRange 64).all fun g => t.mode g != .f) (Prog.set .root F.DEV_FAB_STAT_READY 1),
    Prog.pwr fun p => { p with phase := .run },
    Prog.each (List.finRange 64) bootUp,
    .look fun t => Prog.each (t.portsIn .m) enumStart,
    startCopies,
    aliveStart,
    watchdogLog,
    .look fun t => raise 184 .root (t.regStored .root (regSpec .root .DEV_RST_CAUSE) 0)])

end Sys2Proof.Machine
end

