-- ==== Sys2Proof/Machine/TrackOps.lean ====
section
/-!
DEFINITION. Machine/TrackOps.lean: answers to tracked requests and lost paths (R125-R130), poison-add notices (R131), cells that wait at an
ingress (R108), the cell an egress sends, and egress stalls (R132).
-/
namespace Sys2Proof.Machine

/-! ### Responses (R125, R126, R130) -/

/-- The tracker entry that a response's tag names: the module port's tag, or the index and GEN of the fabric header (R125). -/
def State.ortNamed (s : State) (pt : PortId) (tag : Nat) (ix : Nat) (gen : Nat) : Option (Nat × OrtEntry) :=
  if s.mode pt.g = .m then Tab.find s.dev.ort.entries fun _ e => e.isOpen && e.egr == pt.x && e.egrTag == tag
  else Tab.find s.dev.ort.entries fun i e => decide (i = ix) && e.isOpen && e.gen == gen

/-- Pass the answer of a request that another switch served to its requester. -/
def fwdAnswer (e : OrtEntry) (o : Origin) (mv : MetaV) (d : Option Line) (poison : Bool) (code : Nat) (old : BitVec 64) : Prog :=
  match e.info.op, o with
  | .atomic, _ => .look fun s => Prog.when (!s.originDown o) (outGo (.atomicResult o code old))
  | _, .headwater k => poolAnswer k (e.info.addr / 64) d poison
  | _, _ => .look fun s => Prog.when (!s.originDown o) (outGo (.answer o mv d poison))

/-- What comes of a target read whose cache set has not been read yet waits for it (R150). -/
def readArrived (a : Acc) (v : Early) (otherwise : Prog) : Prog := .look fun s =>
  match Tab.find s.dev.rsv.reads fun _ r => sameAcc r.acc a && r.issued && r.arrived.isNone with
  | some (k, _) => Prog.rsv fun r => { r with reads := Tab.upd r.reads k fun q => { q with arrived := some v } }
  | none => otherwise

/-- A read whose path to its target is lost, and which no cached line answers (R128, R198): poison, an error completion to an engine of Millrace, code 5 for an
atomic operation. -/
def readLost (a : Acc) : Prog :=
  match a.origin with
  | .mill _ id => itemLost id
  | .atomic id => atomFinish id 5 0
  | _ => answerNone a

/-- An answered entry goes on from what its request was sent for. -/
def ortContinue (e : OrtEntry) (d : Line) (poison : Bool) (mv : MetaV) (code : Nat) (old : BitVec 64) : Prog :=
  match e.ctx with
  | .fwd o => fwdAnswer e o mv (if e.info.op = .read then some d else none) (e.info.op == .read && poison) code old
  | .acc a discard =>
    if a.op.isRead then readArrived a (.data d poison) (if discard then .skip else finishRead a d poison)
    else if a.op.isWrite then (match a.origin with | .atomic id => atomWrote id true | _ => acceptBy (answer a none false) a)
    else answer a none false
  | .merge la ord => mergeRead la ord d poison
  | .wb la _ => track la
  | .copyRead t line => movReturn true t line d poison 0
  | .copyWrite t line => if code = 0 then movWritten t line else movFailDst t
  | .mill _ _ | .hw _ | .mbox _ | .none => .skip

/-- A response arrives (R126, R130): it frees its entry and goes on to the requester, or it is late. -/
def ortResponse (pt : PortId) (tag ix gen : Nat) (d : Line) (poison : Bool) (mv : MetaV) (code : Nat) (old : BitVec 64) : Prog :=
  .look fun s => if s.xDown pt.x then .skip else
    match s.ortNamed pt tag ix gen with
    | none => Prog.seq (Prog.add .root F.DEV_ORT_LATE_COUNT 1) (raise 60 (.port pt) 0)
    | some (i, e) => Prog.seq (ortFree i) (ortContinue e d poison mv code old)

/-- The tracker entry of an atomic operation's read. -/
def State.atomEntry (s : State) (id : Nat) : Option (Nat × OrtEntry) := Tab.find s.dev.ort.entries fun _ e => e.isOpen && !e.lost && !s.xDown e.egr &&
  match e.ctx with
  | .acc a false => a.op.isRead && a.origin == .atomic id
  | _ => false

/-- An atomic operation's read returns (R196): its module's answer, where the read is out, frees its entry; then the operation goes on with its line. -/
def atomReturn (id : Nat) (d : Line) (bad : Bool) : Prog := .look fun s => Prog.seq
  (Prog.opt (s.atomEntry id) fun v => Prog.seq (ortFree v.1) (ortContinue v.2 d bad .i 0 0))
  (atomGot id)

/-! ### Lost paths (R127-R131) -/

/-- An entry has been OPEN for the timeout (R127). -/
def ortTimeout (i : Nat) : Prog := .look fun s => Prog.opt (Tab.get? s.dev.ort.entries i) fun e =>
  Prog.when (e.isOpen && !e.lost) (Prog.seq (ortLose fun v => v == e) (raise 67 e.egr.evUnit e.info.addr))

/-- The synthesized answer of a request whose path is lost (R128); a write that its own module would have served has failed here. -/
def lostAnswer (e : OrtEntry) : Prog :=
  match e.ctx with
  | .fwd (.mill k id) => if e.info.op = .atomic then atomReply (.mill k id) 5 0 else itemLost id
  | .fwd o => Prog.seq (Prog.when (e.info.op.isWrite && e.dstSw.isNone && (match o with | .headwater _ => false | _ => true)) (psnAdd (e.info.addr / 64) 1))
      (fwdAnswer e o .i none (e.info.op == .read || (match o with | .headwater _ => true | _ => false)) 5 0)
  | .acc a discard =>
    if a.op.isRead then readArrived a .lost (if discard then .skip else readLost a)
    else match a.origin with
    | .mill _ id => Prog.seq (Prog.when a.op.isWrite (track a.la)) (itemLost id)
    | .atomic id => atomWrote id false
    | o =>
      if a.op.isWrite then Prog.all [track a.la, psnAdd a.la 1,
        (match o with
          | .headwater k => poolAnswer k a.la none true
          | _ => answer { a with mv := .i } none false)]
      else answer { a with mv := .i } none false
  | .merge la ord => Prog.free fun f => mergeRead la ord (Config.freeLine f) true
  | .wb la _ => Prog.all [track la, psnAdd la 6, .look fun s =>
      let set := s.cacheSet la
      Prog.opt (s.findWay set la) fun w => Prog.when (!((s.way? set w).any fun y => y.pu)) (dropWay set w)]
  | .copyRead t _ => movFailSrc t
  | .copyWrite t _ => movFailDst t
  | .mill _ id => itemLost id
  | .mbox pt => mboxLost pt
  | .hw _ | .none => .skip -- a lost fetch of a command ring ends, and the ring fetches the entry again (ringPump)

/-- The home switch that is owed a notice for a write answered as failed on its way there (R131). -/
def noticeOwed (e : OrtEntry) : Option (Fin 16) :=
  match e.ctx with
  | .fwd (.mill _ _) => none
  | .fwd _ => if e.info.op.isWrite then e.dstSw else none
  | _ => none

/-- Engine e7 answers the entries whose path is lost (R128-R130): each moves to QUAR, and EV059 is logged once per lost egress with the count of its
entries, none among them; an entry that timed out alone has no lost egress. -/
def ortLostAnswer : Prog := .look fun s => Prog.when (!s.dev.ws.safe) (
  let lost := Tab.keep s.dev.ort.entries fun _ e => e.isOpen && e.lost
  Prog.seq
    (Prog.each lost fun e => Prog.all [
      ortQuar e.1 (noticeOwed e.2),
      gauge e.2.port.unit 0x42 none 1,
      lostAnswer e.2])
    (Prog.seq (Prog.ort fun o => { o with lostX := [] })
      (Prog.each s.dev.ort.lostX fun x => raise 59 x.evUnit (Tab.count lost fun _ e => e.egr == x))))

/-- A quarantine ends (R130, R131): the entry is FREE, its owed notice moved into the notice queue; while the queue is full the entry stays. -/
def quarEnd (i : Nat) : Prog := .look fun s => Prog.opt (Tab.get? s.dev.ort.entries i) fun e =>
  let free := Prog.ort fun o => { o with entries := Tab.erase o.entries i, gens := Tab.setD o.gens 0 i e.gen }
  if e.isOpen then .skip
  else match e.owed with
    | none => free
    | some h => Prog.when (decide (s.dev.ort.notices.length < noticeMax)) (Prog.seq
        (Prog.ort fun o => { o with notices := o.notices ++ [{ line := e.info.addr / 64, lines := 1, home := h, sent := false }] }) free)

/-- The home switch that is owed a notice for a line, in an entry or in the queue. -/
def State.owedHome (s : State) (line : Nat) : Option (Fin 16) :=
  match s.dev.ort.notices.find? fun n => n.line == line with
  | some n => some n.home
  | none => (Tab.find s.dev.ort.entries fun _ e => !e.isOpen && e.owed.isSome && e.info.addr / 64 == line).bind fun e => e.2.owed

/-- An owed notice is sent, where a path to the home switch exists (R131). -/
def noticeSend (line : Nat) : Prog := .look fun s => Prog.opt (s.owedHome line) fun h =>
  Prog.when (s.route .iotx s.swid h).isSome (Prog.seq
    (Prog.ort fun o => { o with notices := o.notices.map fun n => if n.line = line then { n with sent := true } else n })
    (outGo (.poisonAdd line 1 h)))

/-- A notice arrives at the home switch (R131, R168). -/
def noticeTake (src : Fin 16) (line n : Nat) : Prog := Prog.seq (psnAddLines line n 2) (outGo (.noticeAck src))

/-- The home switch has acknowledged a notice (R131). -/
def noticeAcked (src : Fin 16) (line : Nat) : Prog := Prog.ort fun o => { o with
  entries := Tab.mapAll o.entries fun _ e =>
    if e.owed = some src ∧ e.isOpen = false ∧ e.info.addr / 64 = line then { e with owed := none } else e
  notices := o.notices.filter fun n => !(n.line == line && n.home == src) }

/-! ### Waiting at an ingress (R108, R117, R123) -/

/-- Where a cell that waits would leave. -/
def State.waitEgress (s : State) (c : Cell) : Option XPort := match c.dst with | .here y => some y | .switch d => s.route c.cls c.srcSw d

/-- Whether what waits for a class could go on now: the tracker takes it, and the Floodplain a message of an internal port (R108, R117, R123). -/
def State.waitFits (s : State) (x : XPort) (c : Cls) : Wait → Bool
  | .cell d => match s.waitEgress d with
    | some y => d.req.isNone || !s.tracksAt y || s.ortFits x y
    | none => d.req.isNone || s.ortRoom x
  | .lost _ _ => s.ortRoom x
  | .notice _ => true
  | .out _ => (s.clsRoom c false).isSome
  | .copyRead t line => match Tab.get? s.dev.mov.slots t with
    | some m => s.targetFits x (s.entry m.x).tgtA ((m.x * 32768 + line) * 64)
    | none => true
  | .copy t line _ _ => match Tab.get? s.dev.mov.slots t with
    | some m => s.targetFits x (s.entry m.x).tgtB ((m.x * 32768 + line) * 64)
    | none => true
  | .ring _ | .mbox _ _ _ => s.ortRoom x
  | .park a => !s.inHold a.x || (s.clsRoom .mreq false).isSome
  | .forward a home => s.ortFits a.origin.xport ((s.route .mreq s.swid home).getD a.origin.xport)
  | .target a => s.targetFits x a.tgt a.gpa && (isStackX x || !s.wbWaits a.la)
  | .wb la _ | .flush la _ _ _ => s.targetFits x (s.entry (la / 32768)).tgtA (la * 64)
  | .atomic r => s.ortFits r.origin.xport ((s.route .rmac s.swid (s.entry (r.gpa / 2 ^ 21)).home).getD r.origin.xport)
  | .mill _ _ => s.ortRoom x

/-- The ingress whose turn it is for a class: the next after the one served last whose first could go on (R108). -/
def State.nextWaiting (s : State) (c : Cls) : Option Nat :=
  let ks := (s.dev.flood.waiting.filter fun e => e.1 % 8 == c.num && (match e.2 with
    | w :: _ => s.waitFits (xOfKey (e.1 / 8)) c w
    | [] => false)).map Prod.fst
  let last := Tab.getD s.dev.flood.rr c.num 0
  match ks.find? fun k => decide (k > last) with
  | some k => some k
  | none => ks.head?

/-- A cell or a trim notice that waited goes toward its egress; `gone` is what it leaves behind where that is down. -/
def cellRetry (c : Cell) (lost gone : Prog) (go : XPort → Prog) : Prog := .look fun s =>
  match s.waitEgress c with
  | none => Prog.seq lost (Prog.when (!c.eop) (dropLater c))
  | some y => if s.xDown y then Prog.seq gone (Prog.when (!c.eop) (dropLater c)) else go y

/-- Try again what waited; `fast` says of a cell that the next hop has credit and the rates let it pass (R103). -/
def waitRetry (x : XPort) (fast : Bool) (ring : PortId → Prog) (w : Wait) : Prog :=
  match w with
  | .cell c => .look fun s => cellRetry c (noRoute c (cellDstSw c s.swid)) (poolLeave c.ing c.cls) fun y => cellAdmit y c fast
  | .notice c => .look fun s => cellRetry c (raise 100 c.ing.evUnit (cellDstSw c s.swid).val) .skip
      fun y => admitTry y c true false (waitAt x c.cls w) s.spillable
  | .lost c pool => lostOpen c pool
  | .out o => outGo o
  | .copyRead t line => movFetch t line
  | .copy t line d bad => movIssue t line d bad
  | .ring pt => ring pt
  | .mbox pt op data => mboxSend pt op data
  | .park a => accTranslate a
  | .forward a home => accForward a home
  | .target a => if isStackX x then mergeFetch a else Prog.seq (toTarget a) (atomWake a.la)
  | .wb la d => writeBack la d
  | .flush la set w inval => flushWay la set w inval
  | .atomic r => atomStart r.origin r.op r.gpa
  | .mill _ id => itemIssue id

/-- The next ingress that waits for a class tries its first (R108). -/
def waitAdmit (c : Cls) (fast : Bool) (ring : PortId → Prog) : Prog := .look fun s => Prog.opt (s.nextWaiting c) fun k =>
  match Tab.getD s.dev.flood.waiting k [] with
  | [] => .skip
  | w :: rest => Prog.all [popWaiting k c, waitRetry (xOfKey (k / 8)) fast ring w, backWaiting k rest]

/-! ### The egress -/

/-- An egress sends its next cell (R102): at a fabric port the link's credits and Eddy decide and the cell goes into the slot stream (R333-R337);
elsewhere the neighbour's credits do. -/
def egressSend (x : XPort) (credit : Cls → Bool) (ecc : Ecc) : Prog := .look fun s =>
  match x.port? with
  | none => cellSend x credit ecc
  | some pt =>
    if s.mode pt.g ≠ .f then cellSend x credit ecc
    else
      let may := s.linkMay pt.g
      match s.choose x may with
      | (none, _) => cellSend x may ecc
      | (some c, _) => match s.queue x c with
        | [] => cellSend x may ecc
        | p :: _ => match p.held with
          | [] => cellSend x may ecc
          | h :: _ =>
            if ecc = .uncorrectable ∧ !poisonable h.cell then Prog.seq (cellSend x may ecc) (Prog.when p.started (linkStomp pt.g))
            else Prog.seq (cellSend x may ecc)
              (linkCell pt.g p (if ecc = .uncorrectable then { h.cell with psn := true } else h.cell))

/-- Whether a fabric port keeps its cells while its lanes retrain and its stored flits replay, without a stall (R349 steps 3-5). -/
def State.linkHolds (s : State) (pt : PortId) : Bool :=
  s.mode pt.g == .f && (s.flPhase pt.g == 3 || s.flPhase pt.g == 4)

/-- An egress that holds cells has sent none for STALL_US (R132): EV058, at its port or, of an internal port, in the device domain with the port's number; the safe action
of the event follows (R424). A fabric link that retrains has no stall (R349). -/
def egressStall (x : XPort) : Prog := .look fun s => Prog.when (s.anyQueued x) (
  match x.port? with
  | some pt => Prog.when (s.portExists pt && !s.linkHolds pt) (raise 58 (.port pt) 0)
  | none => raise 58 .root (x.ix.val - 64))

end Sys2Proof.Machine
end

