-- ==== Sys2Proof/Machine/RsvMap.lean ====
section
/-!
DEFINITION. Machine/RsvMap.lean: the Reservoir as bytes at Reservoir addresses (R315, R464), read by RSV_READ and the debug master and written in factory test
mode.
-/
namespace Sys2Proof.Machine

/-- Write a line at a pseudo-channel offset (R464, factory test mode): each structure takes the bytes by its own format; the Plains map region, which no
other path writes (R64, log entry 73), and the areas whose format the spec does not give take nothing. -/
def rsvLinePut (st : Fin 4) (c : Fin 32) (o v : Nat) : Prog := .look fun s =>
  let part := fun (k : Nat) => v / 2 ^ (128 * k) % 2 ^ 128
  if o < 2 ^ 25 then
    let r := regionByte st c o
    if r < 0x40000000 then
      let ix := r / 64
      let put : Bool := bitOf v 0 || bitOf v 39
      Prog.mill fun m => { m with
        gens := Tab.put m.gens ix (bits v 9 2)
        regions := (if put then Tab.put m.regions ix {
            v := bitOf v 0, closing := bitOf v 1, pool := bitOf v 10, permW := bitOf v 11, permR := bitOf v 12, permA := bitOf v 13,
            flowr := bitOf v 14, flow := bits v 28 15, inst := ⟨bits v 38 29 % 1024, Nat.mod_lt _ (by decide)⟩, dmg := bitOf v 39,
            base := bits v 127 64, len := bits v 191 128, hdr := none, closedAt := s.time, late := false }
          else Tab.erase m.regions ix) }
    else if r < 0x80000000 then .skip
    else if r < 0x90000000 then
      let t := (r - 0x80000000) / 4096
      let at_ := r % 4096 * 8
      let old := Tab.getD s.dev.mov.marks t 0
      Prog.seq (Prog.mov fun m => { m with marks := Tab.put m.marks t (old - old / 2 ^ at_ % 2 ^ 512 * 2 ^ at_ + v % 2 ^ 512 * 2 ^ at_) }) movUnready
    else if r < 0xA0000000 then
      Prog.when (psnBucketAt r).2 (Prog.each (List.range 4) fun k =>
        let w := part k
        let key := (psnBucketAt r).1 * 4 + k
        Prog.rsv fun p => { p with
          poison := (if bitOf w 45 then Tab.put p.poison key {
              x := bits w 28 0, line := bits w 43 29, all := bitOf w 44, reason := bits w 49 46, time := bits w 127 64 }
            else Tab.erase p.poison key) })
    else if r < 0xC0000000 then .skip
    else Prog.each (List.range 64) fun i => .eff (.mem (r + i) (BitVec.ofNat 8 (v / 2 ^ (8 * i))))
  else if o < s.cacheBase then
    .skip
  else if o ≥ s.dirBase then
    let set := regionByte st c (o - s.dirBase) / 64
    Prog.each (List.range 4) fun k =>
      let w := part k
      let state := bits w 109 108
      let put : Bool := state == 1 || state == 2
      Prog.coh fun y => { y with dir := (if put then Tab.put y.dir (set * 4 + k) {
          shv := BitVec.ofNat 64 w, la := bits w 107 64, excl := state == 2, owner := ⟨bits w 115 110 % 64, Nat.mod_lt _ (by decide)⟩,
          age := ⟨bits w 117 116 % 4, Nat.mod_lt _ (by decide)⟩ }
        else Tab.erase y.dir (set * 4 + k)) }
  else
    let sw := s.wayAt st c o
    Prog.opt (s.placeWay sw.1 sw.2) fun y => Prog.when (!y.lost) (putWay sw.1 sw.2 { y with data := BitVec.ofNat 512 v })

/-- The size of Reservoir space (R315). -/
def rsvSize : Nat := 2 ^ 37

/-- The stack, pseudo-channel and offset of a Reservoir address (R315). -/
def rsvPlace (a : Nat) : Fin 4 × Fin 32 × Nat :=
  (⟨a / 2 ^ 35 % 4, Nat.mod_lt _ (by decide)⟩, ⟨a / 2 ^ 30 % 32, Nat.mod_lt _ (by decide)⟩, a % 2 ^ 30)

/-- The line of Reservoir space at a line address. -/
def State.rsvAt (s : State) (l free : Nat) : Option Nat :=
  let p := rsvPlace (l * 64)
  s.rsvLine p.1 p.2.1 p.2.2 free

/-- The bytes of a range of Reservoir space, whose lines are read with flipped bits; a line that cannot be read gives a free value. -/
def State.rsvBytes (s : State) (a len f : Nat) (flips : List (Fin 64 × Burst)) : List Nat :=
  (spanLines a len).flatMap fun q =>
    let free := (Config.freeLine (f + (q.1 - a / 64))).toNat
    let b := flipsOf flips (q.1 - a / 64)
    let v := if burstBad b then free else ((s.rsvAt q.1 free).getD free) ^^^ (burstSlip b).toNat
    (List.range q.2.2.1).map fun i => v / 2 ^ (8 * (q.2.1 + i)) % 256

/-- Write bytes to Reservoir space, a line at a time. -/
def rsvWriteBytes (a : Nat) (l : List Byte) : Prog := Prog.each (spanLines a l.length) fun q => .look fun s =>
  Prog.free fun f =>
    let p := rsvPlace (q.1 * 64)
    let free := (Config.freeLine f).toNat
    let old := BitVec.ofNat 512 ((s.rsvAt q.1 free).getD free)
    let m := BitVec.ofNat 64 ((2 ^ q.2.2.1 - 1) * 2 ^ q.2.1)
    rsvLinePut p.1 p.2.1 p.2.2 (mergeBytes old (lineOf ((l.drop q.2.2.2).take q.2.2.1) q.2.1) m).toNat

/-- Whether a command's access range is one it may have: 1 to 4,096 bytes within one 4 KiB segment, below the end of its space (R464). -/
def rangeOk (a len top : Nat) : Bool :=
  decide (1 ≤ len) && decide (len ≤ 4096) && decide (a / 4096 = (a + len - 1) / 4096) && decide (a + len ≤ top)

/-- RSV_READ (R163, R464, R511): the data after correction, "data poisoned" where a line is uncorrectable. -/
def rsvReadCmd (h : Hdr) (a len : Nat) (flips : List (Fin 64 × Burst)) : Prog := .look fun s =>
  if !rangeOk a len rsvSize then reply h stInvalid []
  else leveeCheck .engine (s.engIdent 8) 1 a .r .root (reply h stDenied []) (
    let ls := (spanLines a len).map Prod.fst
    let bad := ls.any fun l => burstBad (flipsOf flips (l - a / 64)) || (s.rsvAt l 0).isNone
    Prog.all [
      Prog.each ls fun l =>
        let p := rsvPlace (l * 64)
        let b := flipsOf flips (l - a / 64)
        burstRead (.pc p.1 p.2.1) p.2.2 b (lineUncorrectable p.1 p.2.1 p.2.2 b false millAreaLost),
      Prog.each (List.range 65) fun _ => .eff .fresh,
      reply h (if bad then stPoisoned else stOk) (s.rsvBytes a len s.fresh flips)])

/-- RSV_WRITE (R464): denied outside factory test mode. -/
def rsvWriteCmd (h : Hdr) (a len : Nat) (l : List Byte) : Prog := .look fun s =>
  if !s.flag .root F.HW_STAT_FTM then reply h stDenied []
  else if !rangeOk a len rsvSize || l.length != len then reply h stInvalid []
  else leveeCheck .engine (s.engIdent 8) 1 a .w .root (reply h stDenied []) (Prog.seq (rsvWriteBytes a l) (reply h stOk []))

/-- Start the accesses to the lines of a range of pool memory for a command, or for the debug master. -/
def poolStart (k : Nat) (h : Option Hdr) (read : Bool) (gpa len : Nat) (l : List Byte) : Prog :=
  let ls := spanLines gpa len
  Prog.seq (Prog.hw fun v => { v with pool := Tab.put v.pool k { hdr := h, read, gpa, len, left := ls.map Prod.fst, data := [], bad := false } })
    (Prog.each ls fun q => accTranslate {
      origin := .headwater k, op := if read then .memRd else if q.2.2.1 = 64 then .memWr else .memWrPtl, mv := .i, gpa := q.1 * 64,
      data := lineOf ((l.drop q.2.2.2).take q.2.2.1) q.2.1, mask := BitVec.ofNat 64 ((2 ^ q.2.2.1 - 1) * 2 ^ q.2.1), wtype := .priv,
      cmode := 0, epoch := 0, tgt := none, host := none, inst := none })

/-- POOL_READ and POOL_WRITE (R464), under the identity ENGINE 8. -/
def poolCmd (h : Hdr) (read : Bool) (gpa len : Nat) (l : List Byte) : Prog := .look fun s =>
  if !rangeOk gpa len (2 ^ 50) || (!read && l.length != len) then reply h stInvalid []
  else leveeCheck .engine (s.engIdent 8) 0 gpa (if read then .r else .w) .root (reply h stDenied []) (poolStart 0 (some h) read gpa len l)

end Sys2Proof.Machine
end

