-- ==== Sys2Proof/Machine/HwCmd.lean ====
section
/-!
DEFINITION. Machine/HwCmd.lean: Headwater's own commands: PING and the register accesses (R464), firmware, microcode and configuration
images (R471-R481), certificates and signatures (R482-R487), and the execution of every Asryn command (R460-R468).
-/
namespace Sys2Proof.Machine

/-! ### PING and register accesses (R464) -/

/-- PING: the running image's version, the boot image's, the SVN and HW_STAT[31:24]. -/
def ping (h : Hdr) : Prog := .look fun s =>
  reply h stOk [s.dev.hw.run.ver.toNat, s.dev.hw.boot.ver.toNat, s.dev.hw.run.svn.toNat,
    s.regValue .root (regSpec .root .HW_STAT) 0 / 2 ^ 24]

/-- What a REG_READ or REG_WRITE names: nothing it may access, with the status; a word of the key store; a word of the OTP; a register or half. -/
inductive RegCmd where
  | bad (status : Nat)
  | keys
  | otp (word : Nat)
  | reg (r : RegSpec) (n : Nat) (part : RegPart)
  deriving DecidableEq, Repr

/-- The register access a command names (R464): exactly one register, or one half of a 64-bit one. -/
def State.regCmd (s : State) (u : UnitId) (off width : Nat) : RegCmd :=
  if width ≠ 4 ∧ width ≠ 8 then .bad stInvalid
  else match s.regAt u off with
    | none => .bad stNotFound
    | some .keys => if width = 4 ∧ off % 4 = 0 then .keys else .bad stInvalid
    | some (.otp w) => if width = 4 ∧ off % 4 = 0 then .otp w else .bad stInvalid
    | some (.reg r n b) =>
      if width = 8 then (if r.wide ∧ b = 0 then .reg r n .whole else .bad stInvalid)
      else if b = 0 then .reg r n (if r.wide then .low else .whole)
      else if r.wide ∧ b = 4 then .reg r n .high
      else .bad stInvalid

/-- REG_READ. -/
def regReadCmd (h : Hdr) (u : UnitId) (off width : Nat) : Prog := .look fun s =>
  match s.regCmd u off width with
  | .bad st => reply h st []
  | .keys => reply h stOk [0]
  | .otp w => reply h stOk [(Config.otp w).toNat % 2 ^ 32]
  | .reg r n part => regRead .headwater u r n part fun v => reply h stOk (if width = 8 then [v % 2 ^ 32, v / 2 ^ 32] else [v])

/-- REG_WRITE: success once the access is complete, whether the register took the write or not. -/
def regWriteCmd (h : Hdr) (u : UnitId) (off width v : Nat) : Prog := .look fun s =>
  match s.regCmd u off width with
  | .bad st => reply h st []
  | .keys | .otp _ => reply h stOk []
  | .reg r n part => Prog.seq (regWrite .headwater u r n part v) (reply h stOk [])

/-! ### Flash (R471, R473, R481) -/

/-- The size of a firmware slot, and of a configuration slot. -/
def slotSize (fw : Bool) : Nat := if fw then 12 * 2 ^ 20 else 2 * 2 ^ 20

/-- Where a slot lies in the flash. -/
def slotBase (fw : Bool) (n : Fin 2) : Nat := if fw then (if n = 0 then 0x00010000 else 0x00C10000) else cfgBase n

/-- FW_WRITE and CFG_WRITE (R464, R473): the chunk is written in the background. FW_WRITE to the active slot is denied but in recovery. -/
def flashWrite (h : Hdr) (fw : Bool) (slot off : Nat) (l : List Byte) : Prog := .look fun s =>
  match fin? 2 slot with
  | none => reply h stInvalid []
  | some n =>
    if off + l.length > slotSize fw then reply h stInvalid []
    else if fw && n == s.dev.hw.fwSlot && !s.flag .root F.HW_STAT_RECOVERY then reply h stDenied []
    else bgStart h (if fw then 0x0700 else 0x0703) none ((slotBase fw n + off) :: l.map fun b => b.toNat)

/-- A chunk is in flash, with the erase of a firmware slot before the chunk at its start (R473). -/
def flashDone : Prog := .look fun s =>
  Prog.opt (s.bg.find? fun b => b.unit == none && (b.opcode == 0x0700 || b.opcode == 0x0703)) fun b =>
    let a := b.args.headD 0
    let erase := b.opcode = 0x0700 ∧ (a = slotBase true 0 ∨ a = slotBase true 1)
    bgFinish b.opcode none fun c => Prog.all [
      Prog.when (decide erase) (Prog.hw fun v => { v with flash := Tab.keep v.flash fun k _ => !(decide (a ≤ k) && decide (k < a + slotSize true)) }),
      Prog.hw fun v => { v with
        flash := (b.args.drop 1).zipIdx.foldl (fun t e => Tab.setD t 0xFF (a + e.2) (BitVec.ofNat 8 e.1)) v.flash },
      reply c.hdr stOk []]

/-- CFG_COMMIT (R481): the slot's CRC is checked and the slot becomes active for the next reset. -/
def cfgCommit (h : Hdr) (slot : Nat) : Prog := .look fun s =>
  match fin? 2 slot with
  | none => reply h stInvalid []
  | some n => if (s.cfgRecords n).isNone then reply h stInvalid []
    else Prog.seq (Prog.hw fun v => { v with cfgSlot := n }) (reply h stOk [])

/-! ### Live activation (R476-R478) -/

/-- FW_ACTIVATE starts (R476 step 1); while an earlier activation's old image is not unloaded it is answered busy (log entry 152). -/
def fwActivate (h : Hdr) (slot : Nat) : Prog := .look fun s =>
  match fin? 2 slot with
  | none => reply h stInvalid []
  | some n => if s.dev.hw.act.isSome then reply h stBusy [] else Prog.all [
      bgStart h 0x0701 none [],
      Prog.set .root F.HW_STAT_ACT 1,
      Prog.hw fun v => { v with act := some { hdr := h, slot := n, step := 0, fw := s.dev.hw.run, old := s.dev.hw.run, oldBg := [], oldQ := 0 } }]

/-- An activation ends without effect: the old image goes on. -/
def actEnd (status : Nat) : Prog := Prog.all [
  Prog.set .root F.HW_STAT_ACT 0,
  Prog.hw fun v => { v with act := none },
  bgFinish 0x0701 none fun b => reply b.hdr status []]

/-- The named slot is verified (R476 steps 2, 3). -/
def slotVerified (f : Option Fw) : Prog := .look fun s => Prog.opt s.dev.hw.act fun a =>
  Prog.when (a.step == 0) (match f with
    | none => actEnd stInvalid
    | some w => Prog.hw fun v => { v with act := some { a with step := 1, fw := w } })

/-- The new image reports ready: the activation point (R476 step 4). In recovery the device leaves recovery with the image. -/
def activationPoint : Prog := .look fun s => Prog.opt s.dev.hw.act fun a => Prog.when (a.step == 1) (Prog.all [
  bgFinish 0x0701 none fun b => reply b.hdr stOk [],
  fwRun a.slot a.fw,
  Prog.when (s.flag .root F.HW_STAT_RECOVERY) (Prog.all [
    Prog.set .root F.HW_STAT_RECOVERY 0,
    Prog.hw fun v => { v with
      boot := a.fw
      cold := if s.dev.pwr.warm then v.cold else a.fw },
    Prog.each (List.finRange 8) fun e => ucodeLoad e a.fw]),
  .look fun t => Prog.hw fun v => { v with act := some { a with step := 2, oldBg := t.bg, oldQ := t.cmdq.length } }])

/-- The old image has no command left and is unloaded (R476 step 5). -/
def oldUnload : Prog := .look fun s => Prog.opt s.dev.hw.act fun a =>
  Prog.when (a.step == 2 && a.oldQ == 0 && !(s.bg.any fun b => a.oldBg.contains b)) (Prog.all [
    Prog.hw fun v => { v with
      fwSlot := a.slot
      act := none },
    Prog.set .root F.HW_STAT_ACT 0,
    raise 187 .root a.slot.val])

/-- The new image was not ready in time (R478). -/
def activationTimeout : Prog := .look fun s => Prog.opt s.dev.hw.act fun a =>
  Prog.when (a.step == 1) (Prog.seq (actEnd stFirmware) (raise 194 .root a.slot.val))

/-! ### Engine microcode (R479, R480) -/

/-- UCODE_LOAD: the engine's quiesce begins. -/
def ucodeStart (h : Hdr) (e : Fin 8) : Prog := Prog.seq (bgStart h 0x0702 (some (.engine e)) [])
  (Prog.set (.engine e) F.ENG_STAT_STATE 1)

/-- A quiesce ends with an outcome: the engine resumes, and its UCODE_LOAD is answered, unless a restart of Headwater has ended the command. -/
def quiesceEnd (e : Fin 8) (arg status : Nat) : Prog := Prog.all [
  Prog.set (.engine e) F.ENG_STAT_STATE 0,
  raise 188 .root arg,
  bgFinish 0x0702 (some (.engine e)) fun b => reply b.hdr status []]

/-- The engine has finished its work items: it loads the microcode of the running image and resumes. An engine that was fenced meanwhile does not, and
its UCODE_LOAD finds the unit unavailable (log entry 152). -/
def quiesceDone (e : Fin 8) : Prog := .look fun s =>
  if s.fld (.engine e) F.ENG_STAT_STATE = 1 then Prog.seq (ucodeLoad e s.dev.hw.run) (quiesceEnd e e.val stOk)
  else bgFinish 0x0702 (some (.engine e)) fun b => reply b.hdr stUnavailable []

/-- A duty bound to e4, e5 or e7 arises: the old microcode resumes (R480). -/
def quiesceAbandon (e : Fin 8) : Prog := .look fun s =>
  Prog.when ([4, 5, 7].contains e.val && s.fld (.engine e) F.ENG_STAT_STATE == 1) (quiesceEnd e (e.val + 256) stBusy)

/-! ### Identity (R482-R487) -/

/-- The bytes of the active configuration image that are not erased, with their places. -/
def State.cfgImage (s : State) : List Nat :=
  let b := cfgBase s.dev.hw.cfgSlot
  (Tab.keep s.dev.hw.flash fun k _ => decide (b ≤ k) && decide (k < b + slotSize false)).flatMap fun e => [e.1 - b, e.2.toNat]

/-- What a measurement block digests (R485). -/
def State.measured (s : State) (n : Nat) : List Nat :=
  if n = 1 then []
  else if n = 2 then s.dev.hw.cold.nums
  else if n = 3 then s.dev.hw.run.nums
  else if h : 4 ≤ n ∧ n ≤ 11 then [s.fld (.engine ⟨n - 4, by omega⟩) F.ENG_STAT_UCODE]
  else if n = 12 then s.cfgImage
  else [s.fld .root F.HW_FW_VER_SVN_MIN, s.fld .root F.HW_DBG_CTL_FTM_CLOSED,
    s.regValue .root (regSpec .root .HW_DBG_CTL) 0, ((List.range 4096).filter fun r => s.fldn .root F.LEV_RULE_CTL_LOCK r == 1).length]

/-- A measurement block: a SHA-384 digest; crypto function 0 (log entry 11). -/
def State.measurement (s : State) (n : Nat) : Nat := Config.crypto 0 (n :: s.measured n) % 2 ^ 384

/-- The length of a certificate chain, which holds a certificate at least (log entry 11); crypto function 2: 0 for the device's own slot 0, a
unit's path code plus 1 for its chain from the DeviceID down. -/
def State.chainLen (s : State) (who : Nat) : Nat := Config.crypto 2 (who :: s.dev.hw.cold.nums) % (2 ^ 16 - 1) + 1

/-- A portion of a chain, of at most 4,000 bytes; crypto function 3. -/
def State.chainPart (s : State) (who off n : Nat) : List Nat :=
  (List.range (min (min n 4000) (s.chainLen who - off))).map fun i => Config.crypto 3 (who :: (off + i) :: s.dev.hw.cold.nums) % 256

/-- A signature by a key over data; crypto function 4. -/
def State.signature (s : State) (who : Nat) (data : List Nat) : Nat := Config.crypto 4 (who :: (s.dev.hw.cold.nums ++ data)) % 2 ^ 768

/-- UNIT_CERT_GET (R486). -/
def unitCertGet (h : Hdr) (u : UnitId) (off : Nat) : Prog := .look fun s =>
  if !keyedClass u then reply h stInvalid []
  else if !s.dev.hw.ident then reply h stDenied []
  else reply h stOk (s.chainLen (pathCode u + 1) :: s.chainPart (pathCode u + 1) off 4000)

/-- UNIT_SIGN (R487, R493). -/
def unitSign (h : Hdr) (u : UnitId) (nonce : BitVec 256) : Prog := .look fun s =>
  if !keyedClass u then reply h stInvalid []
  else if !s.dev.hw.ident then reply h stDenied []
  else
    let body := [pathCode u, s.statusOf u, s.measurement 3]
    reply h stOk (body ++ [s.signature (pathCode u + 1) (nonce.toNat :: body)])

/-! ### Running a command (R460-R468) -/

/-- PSN_CLEAR (R169). -/
def psnClear (h : Hdr) (x : Nat) (line : Option (Fin 32768)) : Prog := Prog.seq
  (match line with
    | some l => psnRemoveLine (x * 32768 + l.val)
    | none => psnRemoveExtent x)
  (reply h stOk [])

/-- PSN_QUERY (R169). -/
def psnQuery (h : Hdr) (x : Nat) : Prog := .look fun s => reply h stOk (s.psnReply x)

/-- DM_COPY (R463): a background copy of a module address range, which the device neither tracks nor checks against the map. -/
def dmCopy (h : Hdr) (src dst : PortId) (sdpa ddpa len : Nat) : Prog :=
  Prog.seq (bgStart h 0x0104 none []) (Prog.send (.dmCopy src dst sdpa ddpa len))

/-- A single command that accepts instances. -/
def instCmd (h : Hdr) (op : Nat) (p : Fin 1024 → Prog) : Prog :=
  singleCmd h op (fun u => match u with | .inst _ => true | _ => false) fun u => match u with
    | .inst i => p i
    | _ => .skip

/-- FLOW_REPOINT names the instance the flow end belongs to (R302, R461; log entry 76). -/
def flowRepointOf (h : Hdr) (i : Fin 1024) (f sw : Nat) (p : Prog) : Prog := .look fun s =>
  if (s.flow? f).any fun w => w.inst == i && decide (sw < 16) then p else reply h stInvalid []

/-- What each command does, once it runs (R463). -/
def runAsryn (h : Hdr) (c : AsrynCmd) : Prog :=
  match c with
  | .ping => devCmd h 0x0001 (ping h)
  | .regRead off w => singleCmd h 0x0002 (fun _ => true) fun u => regReadCmd h u off.toNat w.toNat
  | .regWrite off w v => singleCmd h 0x0003 (fun _ => true) fun u => regWriteCmd h u off.toNat w.toNat v.toNat
  | .unitReset => unitResetCmd h
  | .devReset => devReset h
  | .hwRestart => hwRestart h
  | .faultAck cls => faultAck h cls.toNat
  | .faultQuery => faultQuery h
  | .faultRelease => faultRelease h
  | .mapStage x e => devCmd h 0x0100 (mapStage h x.val e.toNat)
  | .mapAdvance => devCmd h 0x0101 (mapAdvance h)
  | .ssetDefine n w next ms => devCmd h 0x0102 (ssetDefine h n w next.toNat ms)
  | .moveQuery t => devCmd h 0x0103 (moveQuery h t.val)
  | .dmCopy a b sd dd len => devCmd h 0x0104 (dmCopy h a b sd.toNat dd.toNat len.toNat)
  | .rsvResize m d => devCmd h 0x0200 (resizeStart h m.toNat d.toNat)
  | .rsvPurge x n => devCmd h 0x0201 (cacheWalk h 0x0201 x.val n.toNat false)
  | .rsvFlush x n inv => devCmd h 0x0202 (cacheWalk h 0x0202 x.val n.toNat inv)
  | .rsvUnpin x n => devCmd h 0x0203 (cacheWalk h 0x0203 x.val n.toNat false)
  | .rsvSetClear set => devCmd h 0x0204 (setClear h set)
  | .psnClear x l => devCmd h 0x0205 (psnClear h x.val l)
  | .psnQuery x => devCmd h 0x0206 (psnQuery h x.val)
  | .dirSetClear set => devCmd h 0x0207 (dirSetClear h set)
  | .flowCreate f i slot sw peer gen => devCmd h 0x0300 (flowCreate h f i slot.toNat sw peer gen.toNat)
  | .flowDestroy f => devCmd h 0x0301 (flowDestroy h f)
  | .regionRevoke key => devCmd h 0x0302 (regionRevoke h key.toNat)
  | .insFreeze => instCmd h 0x0303 (insFreeze h)
  | .insSave buf len => instCmd h 0x0304 fun i => insSave h i buf len.toNat
  | .insRestore src img => instCmd h 0x0305 fun i => insRestore h i src img
  | .insThaw => instCmd h 0x0306 (insThaw h)
  | .insDiscard => instCmd h 0x0307 (insDiscard h)
  | .flowRepoint f sw peer => instCmd h 0x0308 fun i => flowRepointOf h i f.val sw.val (flowRepoint h f sw peer)
  | .insReset => instCmd h 0x0309 (insReset h)
  | .fabTrustSet l => devCmd h 0x0400 (trustSet h l)
  | .fabLinkRetry => singleCmd h 0x0401 (fun u => match u with | .group _ => true | _ => false) fun u => match u with
      | .group g => linkRetry h g
      | _ => .skip
  | .fabComplete => devCmd h 0x0402 (fabComplete h)
  | .slotCmd op => slotCmd h op.toNat
  | .modMbox op data => singleCmd h 0x0501 (fun u => match u with | .port _ => true | _ => false) fun u => match u with
      | .port pt => modMbox h pt op.toNat data
      | _ => .skip
  | .poolRead a len => devCmd h 0x0600 (poolCmd h true a.toNat len.toNat [])
  | .poolWrite a len data => devCmd h 0x0601 (poolCmd h false a.toNat len.toNat data)
  | .rsvRead a len flips => devCmd h 0x0602 (rsvReadCmd h a.toNat len.toNat flips)
  | .rsvWrite a len data => devCmd h 0x0603 (rsvWriteCmd h a.toNat len.toNat data)
  | .fwWrite off slot data => devCmd h 0x0700 (flashWrite h true slot.toNat off.toNat data)
  | .fwActivate slot => devCmd h 0x0701 (fwActivate h slot.toNat)
  | .ucodeLoad => singleCmd h 0x0702 (fun u => match u with | .engine _ => true | _ => false) fun u => match u with
      | .engine e => ucodeStart h e
      | _ => .skip
  | .cfgWrite off slot data => devCmd h 0x0703 (flashWrite h false slot.toNat off.toNat data)
  | .cfgCommit slot => devCmd h 0x0704 (cfgCommit h slot.toNat)
  | .unitCertGet off => singleCmd h 0x0800 (fun _ => true) fun u => unitCertGet h u off.toNat
  | .unitSign nonce => singleCmd h 0x0801 (fun _ => true) fun u => unitSign h u nonce
  | .badParam opc => runCmd h opc.toNat (reply h stInvalid [])
  | .unknown opc => runCmd h opc.toNat (reply h stUnsupported [])

/-- The commands that run in the background (R463). -/
def cmdBg (op : Nat) : Bool := [0x0004, 0x0104, 0x0200, 0x0201, 0x0202, 0x0203, 0x0302, 0x0303, 0x0304, 0x0305, 0x0309, 0x0501, 0x0700,
  0x0701, 0x0702, 0x0703, 0x0704].contains op

/-- The unit and single commands; every other command is a device command (R463). -/
def cmdOfUnit (op : Nat) : Bool := [0x0002, 0x0003, 0x0004, 0x0010, 0x0011, 0x0012, 0x0303, 0x0304, 0x0305, 0x0306, 0x0307, 0x0308,
  0x0309, 0x0401, 0x0500, 0x0501, 0x0702, 0x0800, 0x0801].contains op

/-- Whether a command of an instance is answered during a running background command of the same instance and does not wait behind it (R311): INS_THAW and
INS_RESET during a freeze drain, and during a reset INS_FREEZE, INS_SAVE, INS_RESTORE and a second INS_RESET. -/
def meets (op running : Nat) : Bool :=
  (running == 0x0303 && [0x0306, 0x0309].contains op) || (running == 0x0309 && [0x0303, 0x0304, 0x0305, 0x0309].contains op)

/-- Whether a command must wait (R464, R466, R479): behind a queue command that has not replied, behind 32 background commands, behind a
background command of its unit, an ancestor or a descendant, behind a background device command of its opcode group, and UCODE_LOAD
behind a hold of e3. The commands of one instance that R311 lets meet do not wait for each other, and INS_RESTORE waits for room in the
tracker for its reads (log entry 149). In the device safe state no command waits: those it does not refuse run at once (R426). -/
def State.blocked (s : State) (h : Hdr) (op : Nat) : Bool :=
  !s.dev.ws.safe && (Tab.has s.dev.hw.pool 0 || s.dev.xlat.heldReply.isSome
    || s.dev.hw.slot.isSome || (cmdBg op && decide (bgMax ≤ s.bg.length))
    || (op == 0x0702 && s.dev.mov.hold.isSome)
    || (op == 0x0305 && !(s.ortRoom (XPort.int 7) && s.ingressFree (XPort.int 7) .iotx))
    || (if cmdOfUnit op then
          match unitOfCode h.target.toNat with
          | none => false
          | some u => s.bg.any fun b => match b.unit with
            | some v => (isUnder u v || isUnder v u) && !(u == v && meets op b.opcode)
            | none => false
        else s.bg.any fun b => b.unit == none && b.opcode / 256 == op / 256))

/-- A command joins the queue (R465): with 64 in it, a command from MCTP is answered busy with EV193. A ring's entry is not fetched then. -/
def cmdEnqueue (h : Hdr) (c : AsrynCmd) : Prog := .look fun s =>
  if s.cmdq.length < cmdMax then .eff (.cmdPush { hdr := h, cmd := c })
  else match h.path with
    | .mctp => Prog.seq (raise 193 .root 0) (reply h stBusy [])
    | .unit _ => reply h stBusy []
    | .ring _ => .skip

/-- The queued commands that are ahead of one that comes now: during an activation those of the new image alone (R477). -/
def State.ahead (s : State) : Nat := match s.dev.hw.act with
  | some a => if a.step = 2 then s.cmdq.length - a.oldQ else s.cmdq.length
  | none => s.cmdq.length

/-- A command arrives and, where nothing is ahead of it and nothing holds it back, runs at once; else it waits in the queue (R465, R466). -/
def asryn (h : Hdr) (c : AsrynCmd) : Prog := .look fun s =>
  if s.flag .root F.HW_STAT_RECOVERY then runAsryn h c
  else if !s.flag .root F.HW_STAT_READY then .skip
  else if s.ahead = 0 ∧ s.blocked h c.opcode = false then runAsryn h c
  else cmdEnqueue h c

/-- The next queued command starts (R466): of the old image, or, while two images run, of the new one. -/
def cmdStart (new : Bool) : Prog := .look fun s =>
  let old := match s.dev.hw.act with | some a => if a.step = 2 then a.oldQ else 0 | none => 0
  let i := if new then old else 0
  Prog.opt s.cmdq[i]? fun q => Prog.when (!s.blocked q.hdr q.cmd.opcode) (Prog.all [
    .eff (.cmdPop i),
    Prog.when (decide (i < old)) (Prog.hw fun v => { v with act := v.act.map fun a => { a with oldQ := a.oldQ - 1 } }),
    runAsryn q.hdr q.cmd,
    Prog.when (decide (i < old)) (.look fun t => Prog.hw fun v => { v with act := v.act.map fun a =>
      { a with oldBg := a.oldBg ++ t.bg.filter fun b => !s.bg.contains b } })])

/-- A field of a packet's header, n bytes from byte a on (R459). -/
def packetField (p : Packet) (a n : Nat) : Nat := leNum ((p.head.drop a).take n)

/-- The OPCODE of a packet. -/
def packetOp (p : Packet) : Nat := packetField p 2 2

/-- The header of a packet's command (R459), with the reply buffer that a ring's entry names (R470). -/
def packetHdr (p : Packet) (path : ReplyPath) : Hdr := {
  path
  opcode := BitVec.ofNat 16 (packetOp p)
  seq := BitVec.ofNat 16 (packetField p 4 2)
  ctx := BitVec.ofNat 64 (packetField p 16 8)
  quiet := bitOf (packetField p 1 1) 1
  target := BitVec.ofNat 32 (packetField p 12 4)
  buf := BitVec.ofNat 64 (leNum ((p.tail.drop 8).take 8))
  blen := BitVec.ofNat 32 (leNum ((p.tail.drop 16).take 4)) }

/-- Whether a packet is malformed (R460): VERSION, REPLY, a reserved flag bit, LEN above 4,096 or other than the bytes delivered. -/
def packetBad (p : Packet) : Bool :=
  let f := packetField p 1 1
  packetField p 0 1 != 1 || bitOf f 0 || bits f 6 2 != 0 || decide (packetField p 8 4 > 4096) || packetField p 8 4 != p.params.length

/-- The opcodes of R463. -/
def asrynOps : List Nat := [0x0001, 0x0002, 0x0003, 0x0004, 0x0005, 0x0006, 0x0010, 0x0011, 0x0012, 0x0100, 0x0101, 0x0102, 0x0103, 0x0104,
  0x0200, 0x0201, 0x0202, 0x0203, 0x0204, 0x0205, 0x0206, 0x0207, 0x0300, 0x0301, 0x0302, 0x0303, 0x0304, 0x0305, 0x0306, 0x0307, 0x0308,
  0x0309, 0x0400, 0x0401, 0x0402, 0x0500, 0x0501, 0x0600, 0x0601, 0x0602, 0x0603, 0x0700, 0x0701, 0x0702, 0x0703, 0x0704, 0x0800, 0x0801]

/-- The fewest parameter bytes of an opcode whose parameters a rule lays out (R464, R486, R487). -/
def paramMin (op : Nat) : Option Nat :=
  match op with
  | 0x0001 => some 0 | 0x0002 => some 5 | 0x0003 => some 16 | 0x0600 | 0x0602 => some 12 | 0x0601 | 0x0603 => some 16
  | 0x0700 | 0x0703 => some 8 | 0x0701 | 0x0704 => some 1 | 0x0800 => some 4 | 0x0801 => some 32
  | _ => none

/-- The command that bytes of parameters spell, for an opcode of paramMin (R464, R486, R487); the lines of an RSV_READ come with the code's verdicts. -/
def paramCmd (op : Nat) (l : List Byte) (flips : List (Fin 64 × Burst)) : AsrynCmd :=
  let num := fun (a n : Nat) => leNum ((l.drop a).take n)
  let w8 := fun (a : Nat) => BitVec.ofNat 8 (num a 1)
  let w32 := fun (a : Nat) => BitVec.ofNat 32 (num a 4)
  let w64 := fun (a : Nat) => BitVec.ofNat 64 (num a 8)
  match op with
  | 0x0001 => .ping
  | 0x0002 => .regRead (w32 0) (w8 4)
  | 0x0003 => .regWrite (w32 0) (w8 4) (w64 8)
  | 0x0600 => .poolRead (w64 0) (w32 8)
  | 0x0601 => .poolWrite (w64 0) (w32 8) (l.drop 16)
  | 0x0602 => .rsvRead (w64 0) (w32 8) flips
  | 0x0603 => .rsvWrite (w64 0) (w32 8) (l.drop 16)
  | 0x0700 => .fwWrite (w32 0) (w8 4) (l.drop 8)
  | 0x0701 => .fwActivate (w8 0)
  | 0x0703 => .cfgWrite (w32 0) (w8 4) (l.drop 8)
  | 0x0704 => .cfgCommit (w8 0)
  | 0x0800 => .unitCertGet (w32 0)
  | 0x0801 => .unitSign (BitVec.ofNat 256 (num 0 32))
  | _ => .unknown (BitVec.ofNat 16 op)

/-- The command a packet carries (R460, R463, R464): an opcode of no rule is unknown; parameters too short for their opcode are invalid (log entry 15). -/
def packetCmd (p : Packet) : AsrynCmd :=
  let op := packetOp p
  let bad := AsrynCmd.badParam (BitVec.ofNat 16 op)
  if !asrynOps.contains op then .unknown (BitVec.ofNat 16 op)
  else match paramMin op with
    | some n => if p.params.length < n then bad else paramCmd op p.params (match p.cmd with | .rsvRead _ _ f => f | _ => [])
    | none => match p.cmd with
      | .unknown _ => bad
      | c => if c.opcode = op then c else bad

/-- The number of a path for the rate limit of EV185. -/
def pathNum : ReplyPath → Nat
  | .mctp => 0
  | .ring pt => pt.ix + 1
  | .unit _ => 200

/-- A packet arrives (R460, R465, R473). -/
def packetArrive (path : ReplyPath) (p : Packet) : Prog := .look fun s =>
  let h := packetHdr p path
  let bad := fun (st : Nat) => Prog.seq (raiseLim 185 .root (185 * 2 ^ 32 + 2 ^ 31 + pathNum path) (packetOp p)) (reply h st [])
  let rec_ := s.flag .root F.HW_STAT_RECOVERY
  if rec_ && !(recoveryOpcode (packetOp p) && path == .mctp) then .skip
  else if !rec_ && !s.flag .root F.HW_STAT_READY then .skip
  else if packetBad p then bad stMalformed
  else match packetCmd p with
    | .unknown _ => bad stUnsupported
    | c => if rec_ then runAsryn h c else cmdEnqueue h c

end Sys2Proof.Machine
end

