-- ==== Sys2Proof/Machine/Clocks.lean ====
section
/-!
DEFINITION. Machine/Clocks.lean: the commands of the clocks and of crossings between clock domains (spec 13).
-/
namespace Sys2Proof.Machine

/-- The acknowledge of a crossing, by the register's place: of a ring register, the port and the offset in its function's BAR0 (R277). -/
def crossAckAt (u : UnitId) (off : Nat) : Prog := .look fun s => match u with
  | .port pt => if 0x14020000 ≤ off then Prog.opt (regsRing.find? fun r => r.off == off - 0x14020000) fun r => crossAck (ringAddr pt r)
      else regAck s
  | _ => regAck s
where
  /-- The acknowledge of a crossing to a register of the unit's block. -/
  regAck (s : State) : Prog := match s.regAt u off with
    | some (.reg r n 0) => crossAck (regAddr u r.id n)
    | _ => .skip

/-- SYSCLK_LOSS (R383, R426). -/
def execSysclkLoss (c : MainClock) (s : State) : Host.Outcome State Fault Refusal := act (mainClockLost c) s

/-- REFCLK_LOSS (R383). -/
def execRefclkLoss (q : Fin 4) (s : State) : Host.Outcome State Fault Refusal := act (refClockLost q) s

/-- GROUP_PLL_UNLOCK (R383). -/
def execGroupPllUnlock (g : Fin 64) (s : State) : Host.Outcome State Fault Refusal := act (groupPllLost g) s

/-- AUXCLK_LOSS (R383). -/
def execAuxclkLoss (s : State) : Host.Outcome State Fault Refusal := act auxClockLost s

/-- CLOCK_RESTORED (R383): a quadrant's reference clock, or AUXCLK. -/
def execClockRestored (c : Option (Fin 4)) (s : State) : Host.Outcome State Fault Refusal := act (clockRestored c) s

/-- CROSSING_ACKNOWLEDGE (R387, R388): of the write in flight to the register at an offset of a unit's block. -/
def execCrossingAcknowledge (u : UnitId) (off : Nat) (s : State) : Host.Outcome State Fault Refusal := act (crossAckAt u off) s

end Sys2Proof.Machine
end

