-- ==== Sys2Proof/Machine/Coherence.lean ====
section
/-!
DEFINITION. Machine/Coherence.lean: the commands of the coherence engine and the atomic unit (spec 06).
-/
namespace Sys2Proof.Machine

/-- e4 serves the transaction at the head of a line (R181-R185, R193), and an atomic operation whose read was held goes on (R197). The entry cache corrects a single-bit error; a double-bit error invalidates the set, which is
read from the region again before the transaction is served (R180). -/
def cohRequest (la : Nat) (ecc : Ecc) : Prog := .look fun s =>
  if ecc = .uncorrectable then Prog.coh fun c => { c with cached := c.cached.filter fun k => k != s.dirSet la } else Prog.seq (cohServe la) (atomWake la)

/-- COHERENCE_REQUEST (R180-R185, R193). -/
def execCoherenceRequest (q : CohLook) (s : State) : Host.Outcome State Fault Refusal := act (cohRequest q.la.toNat q.ecc) s

/-- DIRECTORY_SET_READ_RETURN (R163, R180, R193): the set's line, read with the flipped bits. -/
def execDirectorySetReadReturn (set : BitVec 30) (flips : Burst) (s : State) : Host.Outcome State Fault Refusal :=
  act (.look fun s => dirSetReturn set.toNat (regionRead s.dirBase (set.toNat * 64) flips (dirMakeSuspect set.toNat))) s

/-- BIRSP (R187, R189). -/
def execBirsp (h : Fin 64) (la : BitVec 44) (rsp : BiRsp) (s : State) : Host.Outcome State Fault Refusal :=
  act (biRsp h la.toNat rsp) s

/-- The acknowledgement of BIConflict goes out behind the answers to the host's requests that wait at the internal port of the line's stack (R188). -/
def biConflict (pt : PortId) (c : Conflict) : Prog := .look fun s =>
  let x := s.stackX c.la.toNat
  let before := (Tab.getD s.dev.flood.waiting (qKey x .mrsp) []).any fun w => match w with
    | .out (.answer (.host p _) _ _ _) => p == pt
    | _ => false
  Prog.when (s.portExists pt && s.mode pt.g == .h && !s.isContained pt)
    (if before then waitAt x .mrsp (.out (.biConflictAck pt c.tag)) else Prog.send (.biConflictAck pt c.tag))

/-- BICONFLICT (R188). -/
def execBiconflict (pt : PortId) (c : Conflict) (s : State) : Host.Outcome State Fault Refusal := quiet (biConflict pt c) s

/-- SNOOP_TIMEOUT (R190). -/
def execSnoopTimeout (h : Fin 64) (la : BitVec 44) (s : State) : Host.Outcome State Fault Refusal := act (snoopTimeout h la.toNat) s

/-- A contain notice arrives (R190): the switch of the host's port contains it with EV079, whose level fires the containment; another switch,
told of a port reset (R287 step 3), takes the host as lost. It is acknowledged (R250). -/
def containNotice (src sw : Fin 16) (pt : PortId) : Prog := .look fun s => Prog.seq
  (if sw = s.swid then Prog.when (s.portExists pt && s.mode pt.g == .h) (raise 79 (.port pt) src.val)
    else Prog.opt (s.hostOf sw pt) fun h => Prog.seq
      (Prog.set .root F.DEV_COH_LOST_LOST (s.fld .root F.DEV_COH_LOST_LOST ||| 2 ^ h.val))
      (snoopsEndFor fun k => k == h))
  (outGo (.noticeAck src))

/-- CONTAIN_NOTICE (R190, R287). -/
def execContainNotice (src sw : Fin 16) (pt : PortId) (s : State) : Host.Outcome State Fault Refusal := act (containNotice src sw pt) s

/-- CONTAIN_NOTICE_ACK (R250): the notice is owed no longer. -/
def execContainNoticeAck (h : Fin 64) (src : Fin 16) (s : State) : Host.Outcome State Fault Refusal :=
  quiet (Prog.coh fun c => { c with notes := c.notes.filter fun n => !(n.host == h && n.sw == src) }) s

/-- HOST_RETIRE (R176, R177): a write of DEV_COH_HOSTn. -/
def execHostRetire (m : Master) (n : Fin 64) (value : BitVec 32) (s : State) : Host.Outcome State Fault Refusal :=
  act (regWhole m .root .DEV_COH_HOST n.val value.toNat) s

/-- HOST_WALK_COMPLETE (R177, R191, R192). -/
def execHostWalkComplete (s : State) : Host.Outcome State Fault Refusal := act hostWalkDone s

/-- DIR_SET_CLEAR (R193). -/
def execDirSetClear (h : Hdr) (set : Option Nat) (s : State) : Host.Outcome State Fault Refusal := act (asryn h (.dirSetClear set)) s

/-- ATOMIC_OP (R195, R196, R198). -/
def execAtomicOp (o : Origin) (op : AtomOp) (gpa : BitVec 64) (s : State) : Host.Outcome State Fault Refusal :=
  act (atomStart o op gpa.toNat) s

/-- ATOMIC_READ_RETURN (R196, R198): the line that the operation's read has brought is in the unit, or its module answers with this one. -/
def execAtomicReadReturn (id : Nat) (data : Line) (bad : Bool) (s : State) : Host.Outcome State Fault Refusal := act (atomReturn id data bad) s

end Sys2Proof.Machine
end

