-- ==== Sys2Proof/Machine/Fabric.lean ====
section
/-!
DEFINITION. Machine/Fabric.lean: the commands of fabric mode: identity and routing registers, effective sets, advertisements, and the bring-up of
fabric links (spec 08).
-/
namespace Sys2Proof.Machine

/-- FABRIC_ID_WRITE (R245): a write of DEV_FAB_ID. -/
def execFabricIdWrite (m : Master) (value : BitVec 32) (s : State) : Host.Outcome State Fault Refusal :=
  act (regWhole m .root .DEV_FAB_ID 0 value.toNat) s

/-- ROUTING_TABLE_WRITE (R247): a write of DEV_FAB_RTn. -/
def execRoutingTableWrite (m : Master) (n : Fin 16) (value : BitVec 64) (s : State) : Host.Outcome State Fault Refusal :=
  act (regWhole m .root .DEV_FAB_RT n.val value.toNat) s

/-- EFFECTIVE_SET_RECOMPUTE (R248, R254, R256). -/
def execEffectiveSetRecompute (s : State) : Host.Outcome State Fault Refusal := act effRecompute s

/-- REACH_ADVERTISEMENT (R255). -/
def execReachAdvertisement (g : Fin 64) (mask : BitVec 16) (seq : BitVec 32) (s : State) : Host.Outcome State Fault Refusal :=
  act (ctrlProc g 0x21 (advApply g mask.toNat seq.toNat)) s

/-- REACH_REFRESH (R254): an advertisement again on every link that is UP. -/
def execReachRefresh (s : State) : Host.Outcome State Fault Refusal := act (.look fun s => Prog.each s.upLinks advSend) s

/-- LINK_AUTHENTICATION_COMPLETE (R259-R263). -/
def execLinkAuthenticationComplete (g : Fin 64) (version : SpdmPeer) (root : BitVec 384) (chain : SpdmChain) (signature : Bool) (s : State) :
    Host.Outcome State Fault Refusal := act (authEnd g version root chain signature) s

/-- IDENTITY (R261). -/
def execIdentity (g : Fin 64) (fabId : BitVec 16) (sw : Fin 16) (grp : Fin 64) (mapGib : BitVec 8) (s : State) :
    Host.Outcome State Fault Refusal := act (ctrlProc g 0x20 (identityTake g { fabId, sw, grp, mapGib })) s

/-- CRINIT (R333). -/
def execCrinit (g : Fin 64) (shared : BitVec 16) (reserves : List (BitVec 8)) (rbMax : BitVec 16) (s : State) :
    Host.Outcome State Fault Refusal := act (ctrlProc g 0x22 (crinitTake g shared.toNat (reserves.map BitVec.toNat) rbMax.toNat)) s

/-- AUTH_TIMEOUT (R262). -/
def execAuthTimeout (g : Fin 64) (s : State) : Host.Outcome State Fault Refusal := act (authTimeout g) s

/-- FAB_TRUST_SET (R260). -/
def execFabTrustSet (h : Hdr) (digests : List (BitVec 384)) (s : State) : Host.Outcome State Fault Refusal :=
  act (asryn h (.fabTrustSet digests)) s

/-- FAB_LINK_RETRY (R262). -/
def execFabLinkRetry (h : Hdr) (s : State) : Host.Outcome State Fault Refusal := act (asryn h .fabLinkRetry) s

/-- FAB_COMPLETE (R264). -/
def execFabComplete (h : Hdr) (s : State) : Host.Outcome State Fault Refusal := act (asryn h .fabComplete) s

end Sys2Proof.Machine
end

