-- ==== Sys2Proof/Machine/FabricLink.lean ====
section
/-!
DEFINITION. Machine/FabricLink.lean: the commands of the fabric link layer: flits, acknowledgement and replay, credits, width and rate changes
(spec 11).
-/
namespace Sys2Proof.Machine

/-- FLIT (R338-R346). -/
def execFlit (g : Fin 64) (flit : BitVec 4096) (s : State) : Host.Outcome State Fault Refusal := act (flitArrive g flit) s

/-- CREDIT_RETURN_TIMER (R336). -/
def execCreditReturnTimer (g : Fin 64) (s : State) : Host.Outcome State Fault Refusal := act (creditTimer g) s

/-- ACK_TIMEOUT (R341). -/
def execAckTimeout (g : Fin 64) (s : State) : Host.Outcome State Fault Refusal := act (ackTimeout g) s

/-- RX_POOL_CONFIG_WRITE (R332): a write of PRT_FL_RXCFG, or of PRT_FL_RXLIM. -/
def execRxPoolConfigWrite (m : Master) (g : Fin 64) (lim : Bool) (value : BitVec 64) (s : State) :
    Host.Outcome State Fault Refusal :=
  act (regWhole m (fabPort g) (if lim then .PRT_FL_RXLIM else .PRT_FL_RXCFG) 0 value.toNat) s

/-- RESHAPE (R348): a write of PRT_FL_RESHAPE. -/
def execReshape (m : Master) (g : Fin 64) (value : BitVec 32) (s : State) : Host.Outcome State Fault Refusal :=
  act (regWhole m (fabPort g) .PRT_FL_RESHAPE 0 value.toNat) s

/-- PAUSE_REQ (R348, R349, R354). -/
def execPauseReq (g : Fin 64) (width base rate token : BitVec 8) (s : State) : Host.Outcome State Fault Refusal :=
  act (ctrlProc g 0x23 (pauseReq g { token := token.toNat, width := width.toNat, base := base.toNat, rate := rate.toNat })) s

/-- PAUSE_RSP (R348, R349). -/
def execPauseRsp (g : Fin 64) (result token : BitVec 8) (s : State) : Host.Outcome State Fault Refusal :=
  act (ctrlProc g 0x24 (pauseRspTake g result.toNat token.toNat)) s

/-- RETRAIN_DONE (R349, R350, R369): `good` are the logical lanes whose phase window spans 16 codes. -/
def execRetrainDone (g : Fin 64) (good : BitVec 8) (s : State) : Host.Outcome State Fault Refusal := act (retrainDone g good.toNat) s

/-- RETRAIN_TIMEOUT (R351). -/
def execRetrainTimeout (g : Fin 64) (s : State) : Host.Outcome State Fault Refusal := act (retrainTimeout g) s

end Sys2Proof.Machine
end

