-- ==== Sys2Proof/Machine/Faults.lean ====
section
/-!
DEFINITION. Machine/Faults.lean: the commands of Watershed: acknowledgement, queries, release, engine faults, injection (spec 15).
-/
namespace Sys2Proof.Machine

/-- TRANSMITTER_IDLE_FAILURE (R425). -/
def execTransmitterIdleFailure (g : Fin 64) (s : State) : Host.Outcome State Fault Refusal := act (groupFence g) s

/-- FAULT_ACK (R431). -/
def execFaultAck (h : Hdr) (cls : BitVec 8) (s : State) : Host.Outcome State Fault Refusal := act (asryn h (.faultAck cls)) s

/-- FAULT_ACK_WRITE (R431): a write of DEV_WS_ACK. -/
def execFaultAckWrite (m : Master) (value : BitVec 32) (s : State) : Host.Outcome State Fault Refusal :=
  act (regWhole m .root .DEV_WS_ACK 0 value.toNat) s

/-- FAULT_QUERY (R431). -/
def execFaultQuery (h : Hdr) (s : State) : Host.Outcome State Fault Refusal := act (asryn h .faultQuery) s

/-- FAULT_RELEASE (R432). -/
def execFaultRelease (h : Hdr) (s : State) : Host.Outcome State Fault Refusal := act (asryn h .faultRelease) s

/-- ENGINE_FAULT (R434). -/
def execEngineFault (e : Fin 8) (s : State) : Host.Outcome State Fault Refusal := act (engineFault e) s

/-- WATCHDOG_EXPIRY (R436, R475). -/
def execWatchdogExpiry (s : State) : Host.Outcome State Fault Refusal := act watchdog s

/-- FAULT_INJECTION (R440, R441): a write of DEV_WS_INJ. -/
def execFaultInjection (m : Master) (value : BitVec 64) (s : State) : Host.Outcome State Fault Refusal :=
  act (regWhole m .root .DEV_WS_INJ 0 value.toNat) s

end Sys2Proof.Machine
end

