-- ==== Sys2Proof/Machine/CxlOps.lean ====
section
/-!
DEFINITION. Machine/CxlOps.lean: what an H port's function 0 shows its host through PCI Express and CXL: configuration space and AER (R272, R274, R281), HDM decoders
(R275), CDAT (R276), and the CXL mailbox (R280).
-/
namespace Sys2Proof.Machine

/-! ### Configuration space and AER (R272, R274, R281) -/

/-- Where a configuration word of function 0 that its host has written is kept: 0 and 1 the address in BAR0, 2 to 4 the status, mask and severity of AER, 5 to 8 the addresses in the two
BARs of the VFs. -/
def cfgKey (pt : PortId) (n : Nat) : Nat := pt.ix * 16 + n

/-- A kept configuration word; AER's severity starts as PCI Express gives it (log entry 135). -/
def State.cfgKept (s : State) (pt : PortId) (n : Nat) : Nat := Tab.getD s.dev.ports.cfg (cfgKey pt n) (if n = 4 then 0x462030 else 0)

/-- Keep a configuration word. -/
def cfgKeep (pt : PortId) (n v : Nat) : Prog := Prog.ports fun p => { p with cfg := Tab.put p.cfg (cfgKey pt n) v }

/-- An error that AER of function 0 records and, unless it is masked, reports to the host (R281); `bit` is its place in the uncorrectable error status. -/
def aerError (pt : PortId) (bit : Nat) : Prog := .look fun s => Prog.seq
  (cfgKeep pt 2 (s.cfgKept pt 2 ||| 2 ^ bit))
  (Prog.when (!bitOf (s.cfgKept pt 3) bit) (Prog.send (.pcieError pt bit (bitOf (s.cfgKept pt 4) bit))))

/-- The place of Malformed TLP in the uncorrectable error status. -/
def malformedTlp : Nat := 18

/-- The vectors of a function (R272). -/
def fnVectors (fn : Nat) : Nat := if fn = 0 then 16 else 2048

/-- The Vendor ID, which the identity slot of the root reports as well (R274). -/
def vendorId : Nat := (Config.otp 13).toNat % 2 ^ 16

/-- The Device ID of a function (R274). -/
def deviceId (fn : Nat) : Nat := if fn = 0 then 0x5120 else 0x5121

/-- Whether a function carries a capability (R272, R274): a VF no SR-IOV, no DOE and no CXL DVSEC, function 0 the DVSECs 0, 7 and 8. -/
def carries (fn : Nat) : CapKind → Bool
  | .pcie | .msix | .aer | .ari => true
  | .sriov | .doe => fn == 0
  | .dvsec id => fn == 0 && (id == 0 || id == 7 || id == 8)

/-- Put a number into bits lo to lo + w - 1 of a word. -/
def setBits (word lo w v : Nat) : Nat := word % 2 ^ lo + v % 2 ^ w * 2 ^ lo + word / 2 ^ (lo + w) * 2 ^ (lo + w)

/-- A word of a capability (R272, R274, R294, R296): what a rule states of it stands in a word that is otherwise the standard's own. PCI Express: Function Level Reset on
VFs alone, payloads of up to 512 bytes, extended and 10-bit tags, the rates and widths of the port and those its link runs at, no L0s and L1, no TPH and AtomicOps. MSI-X: the vectors, the table and the pending bits in BAR2. SR-IOV: TotalVFs, the NumVFs in effect, the VFs' Device
ID, and their two BARs, 64-bit and 64 KiB. -/
def State.capWord (s : State) (pt : PortId) (fn : Nat) (c : CapKind) (w own : Nat) : Nat :=
  match c, w with
  | .pcie, 0 => setBits own 0 8 0x10
  | .pcie, 1 => setBits (setBits (setBits own 0 3 2) 5 1 1) 28 1 (b2n (fn != 0))
  | .pcie, 3 => setBits (setBits (setBits own 0 4 (s.fld (.port pt) F.PRT_HCFG_MAXRATE)) 4 6 (if s.split pt.g then 4 else 8)) 10 2 0
  | .pcie, 4 => setBits (setBits own 16 4 (s.fld (.port pt) F.PRT_HSTAT_RATE)) 20 6 (s.fld (.port pt) F.PRT_HSTAT_WIDTH)
  | .pcie, 9 => setBits (setBits (setBits own 6 4 0) 12 2 0) 16 2 3
  | .pcie, 11 => setBits own 1 7 (2 ^ s.fld (.port pt) F.PRT_HCFG_MAXRATE - 1)
  | .msix, 0 => setBits (setBits own 0 8 0x11) 16 11 (fnVectors fn - 1)
  | .msix, 1 => 2
  | .msix, 2 => 0x8002
  | .aer, 0 => setBits own 0 16 0x0001
  | .aer, 1 => if fn = 0 then s.cfgKept pt 2 else own
  | .aer, 2 => if fn = 0 then s.cfgKept pt 3 else own
  | .aer, 3 => if fn = 0 then s.cfgKept pt 4 else own
  | .ari, 0 => setBits own 0 16 0x000E
  | .sriov, 0 => setBits own 0 16 0x0010
  | .sriov, 3 => setBits (setBits own 0 16 (s.fld (.port pt) F.PRT_HCFG_NUM_VFS)) 16 16 (s.fld (.port pt) F.PRT_HCFG_NUM_VFS)
  | .sriov, 4 => setBits own 0 16 (Tab.getD s.dev.ports.numVfs pt.ix 0)
  | .sriov, 6 => setBits own 16 16 (deviceId 1)
  | .sriov, 9 => s.cfgKept pt 5 / 2 ^ 16 * 2 ^ 16 + 4
  | .sriov, 10 => s.cfgKept pt 6
  | .sriov, 11 => s.cfgKept pt 7 / 2 ^ 16 * 2 ^ 16 + 4
  | .sriov, 12 => s.cfgKept pt 8
  | .doe, 0 => setBits own 0 16 0x002E
  | .dvsec _, 0 => setBits own 0 16 0x0023
  | .dvsec _, 1 => setBits own 0 16 0x1E98
  | .dvsec id, 2 => setBits own 0 16 id
  | _, _ => own

/-- A read of a configuration word (R274, R277): identity, class code, Bus Master Enable, BAR0 of function 0 (64-bit, not prefetchable, 512 MiB), and the capabilities; any
other bit is the standard's own. -/
def State.configWord (s : State) (pt : PortId) (fn off own : Nat) : Nat :=
  if off = 0 then vendorId + deviceId fn * 2 ^ 16
  else if off = 4 then setBits own 2 1 (b2n (s.ownBme pt fn))
  else if off = 8 ∧ fn = 0 then own % 256 + 0x050210 * 256
  else if off = 0x10 ∧ fn = 0 then s.cfgKept pt 0 / 2 ^ 29 * 2 ^ 29 + 4
  else if off = 0x14 ∧ fn = 0 then s.cfgKept pt 1
  else match Config.capAt (fn == 0) off with
    | some (c, w) => if carries fn c then s.capWord pt fn c w own else own
    | none => own

/-- A write of a configuration word of function 0: the address in BAR0 above its size, AER's status, which 1 clears, mask and severity, and the
addresses in the VFs' BARs. -/
def configWrite (pt : PortId) (fn off v : Nat) : Prog := .look fun s =>
  if fn ≠ 0 then .skip
  else if off = 0x10 then cfgKeep pt 0 (v / 2 ^ 29 * 2 ^ 29)
  else if off = 0x14 then cfgKeep pt 1 v
  else match Config.capAt true off with
    | some (.aer, 1) => cfgKeep pt 2 (maskDiff (s.cfgKept pt 2) v)
    | some (.aer, 2) => cfgKeep pt 3 v
    | some (.aer, 3) => cfgKeep pt 4 v
    | some (.sriov, 9) => cfgKeep pt 5 (v / 2 ^ 16 * 2 ^ 16)
    | some (.sriov, 10) => cfgKeep pt 6 v
    | some (.sriov, 11) => cfgKeep pt 7 (v / 2 ^ 16 * 2 ^ 16)
    | some (.sriov, 12) => cfgKeep pt 8 v
    | _ => .skip

/-- A configuration request at an H port (R287), a write with its value: Request Retry Status may be answered while the port's time for it runs. -/
def configRequest (pt : PortId) (fn off : Nat) (write : Option Nat) : Prog := .look fun s =>
  let l := s.fld (.port pt) F.PRT_HSTAT_LSTATE
  Prog.when (s.portExists pt && s.mode pt.g == .h && (l == 2 || l == 3)) (Prog.free fun n =>
    let retry := decide (s.time < Tab.getD s.dev.ports.rrs pt.ix 0) && (Config.freeValue n).getLsbD 63
    match write with
    | some v => Prog.seq (Prog.when (!retry) (configWrite pt fn off v)) (Prog.send (.cfgReply pt fn retry 0))
    | none => Prog.send (.cfgReply pt fn retry
        (if retry then 0 else BitVec.ofNat 32 (s.configWord pt fn off ((Config.freeValue n).toNat % 2 ^ 32)))))

/-! ### HDM decoders (R275) -/

/-- Where a word of the CXL registers that the host has written is kept; word 5 of a decoder is its Error Not Committed. -/
def cxlKey (pt : PortId) : CxlReg → Nat
  | .hdm n w => pt.ix * 2 ^ 17 + n % 16 * 8 + w % 8
  | .mbox w => pt.ix * 2 ^ 17 + 128 + w % 2 ^ 15
  | .std w => pt.ix * 2 ^ 17 + 2 ^ 16 + w % 2 ^ 15

/-- A kept word of the CXL registers. -/
def State.cxlKept (s : State) (pt : PortId) (r : CxlReg) : Nat := Tab.getD s.dev.ports.cxl (cxlKey pt r) 0

/-- Keep a word of the CXL registers. -/
def cxlKeep (pt : PortId) (r : CxlReg) (v : Nat) : Prog := Prog.ports fun p => { p with cxl := Tab.setD p.cxl 0 (cxlKey pt r) v }

/-- A commit ends: whether with Error Not Committed, and whether the decoder is committed. -/
def hdmEnd (pt : PortId) (n : Nat) (error committed : Bool) : Prog :=
  Prog.seq (cxlKeep pt (.hdm n 5) (b2n error)) (Prog.send (.hdm pt n committed))

/-- A host commits a decoder (R41, R42, R44, R275). Of a window that is enabled or locked the write is ignored with EV040. -/
def hdmCommit (pt : PortId) (n base size ways : Nat) : Prog := .look fun s =>
  let u := UnitId.port pt
  let old := s.fldn u F.PRT_WIN_BASE_BASE_HI n
  let wt := s.fldn u F.PRT_WIN_CTL_WTYPE n
  let fail := Prog.seq (raise 109 u n) (hdmEnd pt n true false)
  if !s.portExists pt || s.mode pt.g != .h || !s.flag u F.PRT_HCFG_HDM_OWN then .skip
  else if size != s.winSize pt n || ways != 1 || base % 2 ^ 28 != 0 then fail
  else if s.winEn pt n || s.fldn u F.PRT_WIN_CTL_LOCK n == 1 then Prog.seq (raise 40 u n) (hdmEnd pt n (!s.winEn pt n) (s.winEn pt n))
  else Prog.seq (Prog.setn u F.PRT_WIN_BASE_BASE_HI n (base / 2 ^ 28)) (.look fun t =>
    if t.winOk pt n wt then Prog.seq (Prog.setn u F.PRT_WIN_CTL_EN n 1) (hdmEnd pt n false true)
    else Prog.seq (Prog.setn u F.PRT_WIN_BASE_BASE_HI n old) fail)

/-- A host decommits a decoder (R44, R275). -/
def hdmDecommit (pt : PortId) (n : Nat) : Prog := .look fun s =>
  let u := UnitId.port pt
  if !s.portExists pt || s.mode pt.g != .h || !s.flag u F.PRT_HCFG_HDM_OWN then .skip
  else if s.fldn u F.PRT_WIN_CTL_LOCK n == 1 then Prog.seq (raise 40 u n) (Prog.send (.hdm pt n (s.winEn pt n)))
  else Prog.seq (Prog.setn u F.PRT_WIN_CTL_EN n 0) (hdmEnd pt n false false)

/-- The control word of a decoder (R275): committed while the window is enabled, locked then where the manager owns it, 1-way, and of target type HDM-DB for a SHARED_HW
window and HDM-H for another; the bits as CXL 3.1 places them (log entry 82). -/
def State.hdmControl (s : State) (pt : PortId) (n : Nat) : Nat :=
  let on := s.winEn pt n
  let own := s.flag (.port pt) F.PRT_HCFG_HDM_OWN
  let kept := s.cxlKept pt (.hdm n 4)
  (if own then kept % 16 + kept / 2 ^ 8 % 2 * 2 ^ 8 else b2n on * 2 ^ 8)
    + b2n on * 2 ^ 9 + b2n on * 2 ^ 10 + s.cxlKept pt (.hdm n 5) % 2 * 2 ^ 11
    + (if s.fldn (.port pt) F.PRT_WIN_CTL_WTYPE n = 2 then 0 else 2 ^ 12)

/-- What a word of the CXL registers reads (R275, R280); none where it is the standard's own. A committed decoder shows base and size of its window, one that the host may
still commit what the host has written. The payload shows what the host has written of it since the last command, and that command's output; the RAS, link and status
registers what the standard has made of the writes (R277). -/
def State.cxlWord (s : State) (pt : PortId) : CxlReg → Option Nat
  | .hdm n w =>
    let base := s.winBase pt n
    let size := s.winSize pt n
    let shown := fun (v : Nat) => if s.winEn pt n then some v
      else if s.flag (.port pt) F.PRT_HCFG_HDM_OWN then some (s.cxlKept pt (.hdm n w)) else none
    match w with
    | 0 => shown (base % 2 ^ 32)
    | 1 => shown (base / 2 ^ 32)
    | 2 => shown (size % 2 ^ 32)
    | 3 => shown (size / 2 ^ 32)
    | 4 => some (s.hdmControl pt n)
    | _ => none
  | .mbox 1 => some 0
  | .mbox 2 => some (s.cxlKept pt (.mbox 2))
  | .mbox 3 => some (s.cxlKept pt (.mbox 3))
  | .mbox 5 => some (s.cxlKept pt (.mbox 5))
  | .mbox w => if w < 8 then none else match Tab.get? s.dev.ports.cxl (cxlKey pt (.mbox w)) with
    | some v => some v
    | none => (Tab.get? s.dev.ports.mboxOut pt.ix).map fun o => (Config.cxlPayload o.1 o.2 (w - 8)).toNat
  | .std w => some (Tab.getD s.dev.ports.cxl (cxlKey pt (.std w)) (Config.cxlFirst w).toNat)

/-- A host writes a word of a decoder (R275): ignored where the manager owns it; a control word that sets or clears Commit commits or decommits. -/
def hdmWrite (pt : PortId) (n w v : Nat) : Prog := .look fun s =>
  let kept := fun (k : Nat) => s.cxlKept pt (.hdm n k)
  if !s.flag (.port pt) F.PRT_HCFG_HDM_OWN then .skip
  else if w < 4 then Prog.when (!s.winEn pt n) (cxlKeep pt (.hdm n w) v)
  else if w = 4 then Prog.seq (cxlKeep pt (.hdm n 4) v) (
    if bitOf v 9 && !s.winEn pt n then
      hdmCommit pt n (kept 0 + kept 1 * 2 ^ 32) (kept 2 + kept 3 * 2 ^ 32) (if v / 2 ^ 4 % 16 = 0 then 1 else 2)
    else if !bitOf v 9 && s.winEn pt n then hdmDecommit pt n
    else .skip)
  else .skip

/-! ### CDAT and the CXL mailbox (R276, R280) -/

/-- Whether a port has a host whose requests its functions answer. -/
def State.hostUp (s : State) (pt : PortId) : Bool :=
  s.portExists pt && s.mode pt.g == .h && (s.fld (.port pt) F.PRT_HSTAT_LSTATE == 2 || s.fld (.port pt) F.PRT_HSTAT_LSTATE == 3)

/-- The windows of a port that the manager has given a size: SIZE_M1 set, or enabled (R276, R280). -/
def State.sizedWins (s : State) (pt : PortId) : List Nat := (List.range 16).filter fun n =>
  s.winEn pt n || s.fldn (.port pt) F.PRT_WIN_SIZE_SIZE_M1 n != 0

/-- CDAT (R276, R105): 96 ns for a Reservoir hit, 41 + 40 ns for the path to a module and back, and the part's bandwidth figure, which R105 does not state. -/
def cdatRead (pt : PortId) : Prog := .look fun s =>
  Prog.when (s.hostUp pt) (Prog.send (.cdat pt ((s.sizedWins pt).map fun n => (n, s.winSize pt n, 96, 81, Config.cdatBandwidth))))

/-- The volatile capacity a port reports (R280). -/
def State.volatileCap (s : State) (pt : PortId) : Nat := ((s.sizedWins pt).map fun n => s.winSize pt n).sum

/-- The opcodes the mailbox supports (R280), as CXL 3.1 numbers them. -/
def mailboxOps : List Nat := [0x0100, 0x0101, 0x0400, 0x0401, 0x4000, 0x4100, 0x4200, 0x4300]

/-- Answer a command of a port's mailbox. -/
def cxlReply (pt : PortId) (data : State → List Nat) : Prog := .look fun s =>
  Prog.when (s.hostUp pt) (Prog.send (.cxlReply pt true (data s)))

/-- Clear Event Records (R280). -/
def clearRecords (pt : PortId) (handles : List Nat) : Prog := .look fun s =>
  Prog.when (s.hostUp pt) (Prog.seq
    (Prog.ports fun p => { p with records := Tab.upd p.records pt.ix fun l => l.filter fun r => !handles.contains r.1 })
    (Prog.send (.cxlReply pt true [])))

/-- Get Poison List (R280): offset in the window and lines of each poisoned line, or of the part of a wholly poisoned extent that lies in
an enabled window. -/
def State.poisonList (s : State) (pt : PortId) : List Nat :=
  ((List.range 16).filter fun n => s.winEn pt n).flatMap fun n =>
    s.dev.rsv.poison.flatMap fun e =>
      let lo := if e.2.all then e.2.x * 2 ^ 21 else e.2.x * 2 ^ 21 + e.2.line * 64
      let len := if e.2.all then 2 ^ 21 else 64
      if s.winGpa pt n ≤ lo ∧ lo + len ≤ s.winGpa pt n + s.winSize pt n then [lo - s.winGpa pt n, len / 64] else []

/-- The name of the Command Effects Log in CXL 3.1, as the bytes of a Get Log command. -/
def effectsLog : List Byte := [0x0D, 0xA9, 0xC0, 0xB5, 0xBF, 0x41, 0x4B, 0x78, 0x8F, 0x79, 0x96, 0xB1, 0x62, 0x3B, 0x3F, 0x17]

/-- The handles that a Clear Event Records command names: their count at byte 2, two bytes each from byte 6. -/
def recordHandles (l : List Byte) : List Nat :=
  (List.range (leNum ((l.drop 2).take 1))).map fun i => leNum ((l.drop (6 + 2 * i)).take 2)

/-- Whether the mailbox serves a command (R280): another opcode, or another log, is Unsupported. -/
def mailboxServes (op : Nat) (input : List Byte) : Bool := mailboxOps.contains op && (op != 0x0401 || input.take 16 == effectsLog)

/-- What a command of the primary mailbox of a port answers, by its opcode (R280): capacities; one log, of 4 bytes an entry; the opcodes of the Command Effects Log;
handle, event and ARG of each record; the device's fault summary (R33); the poison list. -/
def State.mailboxData (s : State) (pt : PortId) (op : Nat) : List Nat :=
  match op with
  | 0x0100 => (Tab.getD s.dev.ports.records pt.ix []).flatMap fun r => [r.1, r.2.1, r.2.2]
  | 0x0101 => []
  | 0x0400 => [1, 4 * mailboxOps.length]
  | 0x0401 => mailboxOps
  | 0x4200 => [s.summaryLevel .root]
  | 0x4300 => s.poisonList pt
  | _ => [s.volatileCap pt, 0]

/-- A command of the primary mailbox of a port, by its opcode, with its input (R280). -/
def mailboxRun (pt : PortId) (op : Nat) (input : List Byte) : Prog :=
  if !mailboxServes op input then .look fun s => Prog.when (s.hostUp pt) (Prog.send (.cxlReply pt false []))
  else if op = 0x0101 then clearRecords pt (recordHandles input)
  else cxlReply pt fun s => s.mailboxData pt op

/-- The host rings the mailbox's doorbell (R280): the command of the command register runs with its input. Its return code stands in the status register (0 success, 3
Unsupported), the length of its output in the command register, and the output in the payload. -/
def mailboxRing (pt : PortId) : Prog := .look fun s =>
  let word := fun (w : Nat) => s.cxlKept pt (.mbox w)
  let op := word 2 % 2 ^ 16
  let len := min 4096 (word 2 / 2 ^ 16 + word 3 % 32 * 2 ^ 16)
  let input := ((List.range ((len + 3) / 4)).flatMap fun i => leBytes 4 (word (8 + i))).take len
  let serves := mailboxServes op input
  let out := if serves then s.mailboxData pt op else []
  let outLen := if serves then (Config.cxlPayloadLen op out).toNat else 0
  Prog.all [
    mailboxRun pt op input,
    cxlKeep pt (.mbox 5) (if serves then 0 else 3),
    cxlKeep pt (.mbox 2) (op + outLen % 2 ^ 16 * 2 ^ 16),
    cxlKeep pt (.mbox 3) (outLen / 2 ^ 16),
    Prog.ports fun p => { p with
      cxl := Tab.keep p.cxl fun k _ => decide (k < cxlKey pt (.mbox 8)) || decide (cxlKey pt (.std 0) ≤ k)
      mboxOut := Tab.put p.mboxOut pt.ix (op, out) }]

/-- A host writes a word of the CXL registers of a port. -/
def cxlWrite (pt : PortId) (r : CxlReg) (v : Nat) : Prog :=
  match r with
  | .hdm n w => hdmWrite pt n w v
  | .mbox 1 => Prog.when (bitOf v 0) (mailboxRing pt)
  | .mbox w => if 8 ≤ w then Prog.ports fun p => { p with cxl := Tab.put p.cxl (cxlKey pt r) v } else Prog.when (w == 2 || w == 3) (cxlKeep pt r v)
  | .std w => .look fun s => Prog.ports fun p => { p with
      cxl := Tab.put p.cxl (cxlKey pt r) (Config.cxlNext w (BitVec.ofNat 32 ((s.cxlWord pt r).getD 0)) (BitVec.ofNat 32 v)).toNat }

end Sys2Proof.Machine
end

