-- ==== Sys2Proof/Machine/BusOps.lean ====
section
/-!
DEFINITION. Machine/BusOps.lean: accesses by address: the in-band rings of a management port (R277, R470), CXL.io memory requests (R277-R281, R296,
R297, R312, R314), and the debug master (R321, R489, R490).
-/
namespace Sys2Proof.Machine

/-! ### The in-band rings (R470) -/

/-- The parameters of a fetched entry are read from the buffer it names (R470), by a tracked read that has returned when the entry is taken (log entry 124). Where the
tracker has no room the entry is not taken, and its fetch waits at Headwater's port (R117, R123). -/
def paramRead (pt : PortId) (p : Packet) (k : Prog) : Prog := .look fun s =>
  let len := min 4096 (packetField p 8 4)
  let addr := leNum (p.tail.take 8)
  if len = 0 then k else ortOpen (XPort.int 7)
    { kind := .headwater, op := .ioRead, tag := BitVec.ofNat 16 pt.ix, addr, len, inst := none, srcSw := s.swid }
    pt.x none (bitOf (s.fld .root F.DEV_EPOCH_CUR) 0) false (.hw pt.ix) (waitAt (XPort.int 7) .iotx (.ring pt))
    fun i g _ => Prog.all [Prog.send (.busRead pt 0 (i, g) addr len), ortFree i, k]

/-- A fetched command entry arrives (R465, R470): it joins the queue; one that Headwater cannot take in is fetched again later. -/
def ringFetched (pt : PortId) (p : Packet) : Prog := .look fun s =>
  Prog.when (s.ringBusy pt) (Prog.all [
    Prog.each (s.dev.ort.entries.filter fun e => e.2.isOpen && (match e.2.ctx with | .hw k => k == pt.ix | _ => false)) fun e => ortFree e.1,
    Prog.when (s.ringOn pt && s.flag .root F.HW_STAT_READY && decide (s.cmdq.length < cmdMax)) (paramRead pt p (Prog.seq
      (ringUpd pt fun r => { r with cNext := (r.cNext + 1) % s.cmdSlots pt })
      (packetArrive (.ring pt) p))),
    ringPump pt])

/-- What a ring register reads: of an RW field the last written value (R387). -/
def State.ringValue (s : State) (pt : PortId) (r : RegSpec) : Nat :=
  let kept := (Tab.get? s.dev.io.crossing (ringAddr pt r)).bind Crossing.kept
  (r.fields.map fun f => if f.acc = .wo then 0 else ((if f.acc = .rw then kept.map (fun v => f.bring (f.part v)) else none).getD (s.ring pt f)) % 2 ^ f.w * 2 ^ f.lo).sum

/-- Read a ring register or a half of it (R9). -/
def ringRead (m : Master) (pt : PortId) (r : RegSpec) (part : RegPart) (k : Nat → Prog) : Prog := .look fun s =>
  let v := s.ringValue pt r
  let a := ringAddr pt r
  match part with
  | .whole => k v
  | .low => Prog.seq (Prog.io fun i => { i with high := halfDrop i.high m a ++ [{ master := m, addr := a, value := v / 2 ^ 32 }] })
      (k (v % 2 ^ 32))
  | .high => Prog.seq (Prog.io fun i => { i with high := halfDrop i.high m a }) (k ((halfOf s.dev.io.high m a).getD (v / 2 ^ 32)))

/-- Write a ring register or a half of it (R9). -/
def ringWrite (m : Master) (pt : PortId) (r : RegSpec) (part : RegPart) (v : Nat) : Prog := .look fun s =>
  let a := ringAddr pt r
  match part with
  | .whole => Prog.seq (dropHeld m) (ringCross pt r v)
  | .low => Prog.seq (dropHeld m) (Prog.io fun i => { i with low := i.low ++ [{ master := m, addr := a, value := v % 2 ^ 32 }] })
  | .high => Prog.seq (dropHeld m)
      (ringCross pt r ((halfOf s.dev.io.low m a).getD (s.ringValue pt r % 2 ^ 32) + v % 2 ^ 32 * 2 ^ 32))

/-! ### Words of an address space -/

/-- What stands at an aligned half of an aligned 8-byte word that an access names: a register of a unit, a ring register of a port, a word that
reads as a number and takes no write, a word of the CXL registers of a port, or nothing. -/
inductive HalfAt where
  | unit (u : UnitId) (r : RegSpec) (n : Nat) (high : Bool)
  | ring (pt : PortId) (r : RegSpec) (high : Bool)
  | cxl (pt : PortId) (r : CxlReg)
  | const (v : Nat)
  | none
  deriving DecidableEq, Repr

/-- What stands at a unit-register address (R490, R542). -/
def State.unitHalf (s : State) (a : Nat) : HalfAt :=
  match unitAt a with
  | .none => .none
  | some (u, off) => match s.regAt u off with
    | some (.reg r n b) => .unit u r n (b == 4)
    | some .keys => .const 0
    | some (.otp w) => .const ((Config.otp w).toNat % 2 ^ 32)
    | .none => .none

/-- What stands at an offset of a management port's ring range (R277). -/
def ringHalf (pt : PortId) (off : Nat) : HalfAt :=
  match regsRing.findSome? fun r => (r.hit off).map fun h => (r, h.2) with
  | some (r, b) => .ring pt r (b == 4)
  | .none => .none

/-- The part of its register that a half is. -/
def halfPart (r : RegSpec) (high : Bool) : RegPart := if r.wide then (if high then .high else .low) else .whole

/-- Keep the RC fields that an access does not reach: those wholly outside bits lo to hi - 1 of the register (R281). -/
def rcKeep (s : State) (u : UnitId) (r : RegSpec) (n lo hi : Nat) : Prog :=
  Prog.each (r.fields.filter fun f => f.acc == .rc && (decide (f.lo + f.w ≤ lo) || decide (hi ≤ f.lo))) fun f =>
    Prog.setn u f n (s.fldn u f n)

/-- Read one half of a word; `lo` and `hi` bound the bytes of the half that the access reaches, and `free` stands where nothing is. -/
def halfRead (m : Master) (h : HalfAt) (lo hi free : Nat) (k : Nat → Prog) : Prog := .look fun s =>
  match h with
  | .unit u r n high => regRead m u r n (halfPart r high) fun v =>
      let base := if high then 32 else 0
      Prog.seq (rcKeep s u r n (base + 8 * lo) (base + 8 * hi)) (k v)
  | .ring pt r high => ringRead m pt r (halfPart r high) k
  | .cxl pt r => match s.cxlWord pt r with
    | some v => k v
    | .none => Prog.free fun n => k ((Config.freeValue n).toNat % 2 ^ 32)
  | .const v => k v
  | .none => k free

/-- Write one half of a word. -/
def halfWrite (m : Master) (h : HalfAt) (v : Nat) : Prog :=
  match h with
  | .unit u r n high => regWrite m u r n (halfPart r high) v
  | .ring pt r high => ringWrite m pt r (halfPart r high) v
  | .cxl pt r => cxlWrite pt r v
  | _ => .skip

/-- Read bytes lo to hi - 1 of an aligned 8-byte word: a 64-bit register of which both halves are read is read whole (R9, R281). -/
def wordRead (m : Master) (at_ : Nat → HalfAt) (lo hi free : Nat) (k : Nat → Prog) : Prog := .look fun s =>
  let out := fun (w : Nat) => k (w / 2 ^ (8 * lo) % 2 ^ (8 * (hi - lo)))
  if hi ≤ 4 then halfRead m (at_ 0) lo hi (free % 2 ^ 32) out
  else if 4 ≤ lo then halfRead m (at_ 4) (lo - 4) (hi - 4) (free / 2 ^ 32) fun v => out (v * 2 ^ 32)
  else match at_ 0 with
    | .unit u r n false => if r.wide then
          regRead m u r n .whole fun v => Prog.seq (rcKeep s u r n (8 * lo) (8 * hi)) (out v)
        else halfRead m (at_ 0) lo 4 (free % 2 ^ 32) fun v => halfRead m (at_ 4) 0 (hi - 4) (free / 2 ^ 32) fun w => out (v + w * 2 ^ 32)
    | .ring pt r false => if r.wide then ringRead m pt r .whole out
        else halfRead m (at_ 0) lo 4 (free % 2 ^ 32) fun v => halfRead m (at_ 4) 0 (hi - 4) (free / 2 ^ 32) fun w => out (v + w * 2 ^ 32)
    | h => halfRead m h lo 4 (free % 2 ^ 32) fun v => halfRead m (at_ 4) 0 (hi - 4) (free / 2 ^ 32) fun w => out (v + w * 2 ^ 32)

/-- Whether bytes lo to hi - 1 of a word are whole halves: a narrower write is not taken (R281). -/
def wholeHalves (lo hi : Nat) : Bool := (lo == 0 && (hi == 4 || hi == 8)) || (lo == 4 && hi == 8)

/-- Write whole halves of an aligned 8-byte word: both halves of a 64-bit register at once, or each register (R9). -/
def wordWrite (m : Master) (at_ : Nat → HalfAt) (lo hi v : Nat) : Prog :=
  let two := Prog.seq (halfWrite m (at_ 0) (v % 2 ^ 32)) (halfWrite m (at_ 4) (v / 2 ^ 32 % 2 ^ 32))
  if lo = 4 then halfWrite m (at_ 4) (v % 2 ^ 32)
  else if hi = 4 then halfWrite m (at_ 0) (v % 2 ^ 32)
  else match at_ 0 with
    | .unit u r n false => if r.wide then regWrite m u r n .whole (v % 2 ^ 64) else two
    | .ring pt r false => if r.wide then ringWrite m pt r .whole (v % 2 ^ 64) else two
    | _ => two

/-- Whether every half that bytes lo to hi - 1 of a word touch holds a register. -/
def wordHeld (at_ : Nat → HalfAt) (lo hi : Nat) : Bool :=
  (decide (4 ≤ lo) || at_ 0 != .none) && (decide (hi ≤ 4) || at_ 4 != .none)

/-! ### CXL.io memory requests (R277-R281, R296, R312) -/

/-- A CXL.io memory request to a function: its address in the BAR, length and value; a read has a tag. -/
structure IoReq where
  pt : PortId
  fn : Fin 65
  addr : Nat
  len : Nat
  write : Bool
  tag : Nat
  value : Nat
  deriving DecidableEq, Repr

/-- A read is completed with data. -/
def ioOk (q : IoReq) (v : Nat) : Prog := Prog.send (.ioReply q.pt q.fn.val q.tag true v)

/-- A read receives Unsupported Request; a write is dropped (R281, R319). -/
def ioUr (q : IoReq) : Prog := Prog.when (!q.write) (Prog.send (.ioReply q.pt q.fn.val q.tag false 0))

/-- The request is unimplemented, or a write that the path does not take (R281). -/
def ioBad (q : IoReq) : Prog := Prog.seq (raise 103 (.port q.pt) q.addr) (ioUr q)

/-- Serve a request to a word of registers. -/
def ioWord (q : IoReq) (at_ : Nat → HalfAt) : Prog :=
  let lo := q.addr % 8
  let hi := lo + q.len
  let m := Master.hostFn q.pt q.fn
  if !wordHeld at_ lo hi then ioBad q
  else if q.write then (if wholeHalves lo hi then wordWrite m at_ lo hi q.value else ioBad q)
  else wordRead m at_ lo hi 0 (ioOk q)

/-- Serve a request to unit register space at a unit-register address, under the Levee's identity of the host port (R314, R317-R319); a denial is kept as a record for
the host (R280). -/
def ioUnits (q : IoReq) (a : Nat) : Prog := .look fun s =>
  let at_ := fun (h : Nat) => s.unitHalf (a / 8 * 8 + h)
  if !wordHeld at_ (a % 8) (a % 8 + q.len) then ioBad q
  else leveeCheck .hostPort (s.hostIdent q.pt) 2 a (if q.write then .w else .r) .root
      (Prog.seq (relayEvent 124 (.port q.pt) (a / 4096)) (ioUr q)) (ioWord q at_)

/-- Whether an offset of an instance block is a Gauge register of it (R296). -/
def insGauge (off : Nat) : Bool := decide (0x800 ≤ off) && decide (off < 0x900)

/-- Serve a request to an instance block from the instance side (R295, R296): a DISABLED instance serves its descriptor alone, and the Gauge
registers are read only. -/
def ioInst (q : IoReq) (i : Fin 1024) (off : Nat) : Prog := .look fun s =>
  if s.instState i = 0 ∧ 0x100 ≤ off then ioBad q
  else if insGauge off && q.write then ioBad q
  else ioUnits q (unitBase (.inst i) + off)

/-- The pending bits of an aligned 32-bit word of a function's pending bit array. -/
def State.pbaWord (s : State) (pt : PortId) (fn w : Nat) : Nat :=
  ((List.range 32).map fun b => b2n (s.dev.ports.msixPend.contains (msixKey pt fn (32 * w + b) 0)) * 2 ^ b).sum

/-- A write of a word of an MSI-X table entry; a pending vector that is unmasked is sent (R284). -/
def msixWrite (pt : PortId) (fn w v : Nat) : Prog :=
  let key := fnKey pt fn * 8192 + w
  Prog.all [
    Prog.ports fun p => { p with msix := Tab.put p.msix key (if w % 4 = 3 then v % 2 else v % 2 ^ 32) },
    .look fun s => Prog.when (w % 4 == 3 && v % 2 == 0 && s.bme pt fn && s.dev.ports.msixPend.contains (fnKey pt fn * 8192 + w / 4 * 4)) (Prog.seq
      (Prog.ports fun p => { p with msixPend := p.msixPend.filter fun k => k != fnKey pt fn * 8192 + w / 4 * 4 })
      (msixSend (XPort.int 7) pt fn (w / 4)))]

/-- Serve a request to BAR2 (R296): the MSI-X table and the pending bit array. -/
def ioMsix (q : IoReq) : Prog := .look fun s =>
  let fn := q.fn.val
  let lo := q.addr % 8
  let w := q.addr / 8 * 2
  let table : Bool := decide (w < fnVectors fn * 4)
  let pba : Bool := decide (0x8000 ≤ q.addr) && decide (q.addr < 0x8000 + max 8 (fnVectors fn / 8))
  let out := fun (v : Nat) => ioOk q (v / 2 ^ (8 * lo) % 2 ^ (8 * q.len))
  if !table && !pba then ioBad q
  else if q.write then
    if !wholeHalves lo (lo + q.len) then ioBad q
    else if pba then .skip
    else if lo = 4 then msixWrite q.pt fn (w + 1) q.value
    else if q.len = 4 then msixWrite q.pt fn w q.value
    else Prog.seq (msixWrite q.pt fn w (q.value % 2 ^ 32)) (msixWrite q.pt fn (w + 1) (q.value / 2 ^ 32))
  else if pba then
    let p := (q.addr - 0x8000) / 8 * 2
    out (s.pbaWord q.pt fn p + s.pbaWord q.pt fn (p + 1) * 2 ^ 32)
  else out (s.msixWord q.pt fn (w / 4) (w % 4) + s.msixWord q.pt fn ((w + 1) / 4) ((w + 1) % 4) * 2 ^ 32)

/-- Serve a request to the CXL component or device registers (R277); what no rule speaks of is the standard's own (log entry 82). A write that sets or clears BI Enable in the
BI decoder control says so (R282). -/
def ioCxl (q : IoReq) (bi : Option Bool) : Prog := Prog.seq
  (Prog.when q.write (Prog.opt bi fun b => Prog.setB (.port q.pt) F.PRT_HSTAT_BI_EN b))
  (ioWord q fun h => .cxl q.pt ((Config.cxlAt ((q.addr - 0x14000000) / 8 * 8 + h)).getD (.std (((q.addr - 0x14000000) / 8 * 8 + h) / 4))))

/-- Whether a unit is a port's own group, one of the group's ports, or a lane of them (R278). -/
def ownGroup (pt : PortId) : UnitId → Bool
  | .group g => g == pt.g
  | .port p => p.g == pt.g
  | .lane ln => ln.port.g == pt.g
  | _ => false

/-- Serve a request to BAR0 of function 0 (R277, R278). -/
def ioFn0 (q : IoReq) (bi : Option Bool) : Prog := .look fun s =>
  if q.addr < 0x14000000 then
    if s.mgmt q.pt then ioUnits q q.addr
    else match unitAt q.addr with
      | none => ioBad q
      | some (.inst i, off) => if (s.instPort i).any fun p => p.1 == q.pt then ioInst q i off else ioBad q
      | some (u, _) => if ownGroup q.pt u && !q.write then ioUnits q q.addr else ioBad q
  else if q.addr < 0x14020000 then ioCxl q bi
  else if q.addr < 0x14030000 ∧ s.mgmt q.pt then
    ioWord q fun h => ringHalf q.pt ((q.addr - 0x14020000) / 8 * 8 + h)
  else ioBad q

/-- Serve a request to BAR0 of a VF: its instance's block (R279, R296, R312). -/
def ioVf (q : IoReq) : Prog := .look fun s =>
  match s.vfInst q.pt q.fn.val with
  | none => ioBad q
  | some i =>
    if s.instState i = 3 then ioUr q
    else if 0x10000 ≤ q.addr then ioBad q
    else ioInst q i q.addr

/-- Serve a request to BAR2: of a VF that exists and is not being reset, or of function 0 (R296, R312, log entry 31). -/
def ioBar2 (q : IoReq) : Prog := .look fun s =>
  if q.fn.val = 0 then ioMsix q
  else match s.vfInst q.pt q.fn.val with
    | none => ioBad q
    | some i => if s.instState i = 3 then ioUr q else if s.instState i = 0 then ioBad q else ioMsix q

/-- A CXL.io memory request reaches a function of an H port (R281). A request that crosses a 4 KiB boundary is a Malformed TLP, which AER
records and reports; one that crosses an aligned 8-byte boundary is unimplemented. -/
def ioRequest (q : IoReq) (bar2 : Bool) (bi : Option Bool) : Prog := .look fun s =>
  let l := s.fld (.port q.pt) F.PRT_HSTAT_LSTATE
  if !s.portExists q.pt || s.mode q.pt.g != .h || !(l == 2 || l == 3) || s.xDown q.pt.x then .skip
  else if q.addr / 4096 ≠ (q.addr + q.len - 1) / 4096 then aerError q.pt malformedTlp
  else if q.addr / 8 ≠ (q.addr + q.len - 1) / 8 then ioBad q
  else if bar2 then ioBar2 q
  else if q.fn.val = 0 then ioFn0 q bi
  else ioVf q

/-! ### The debug master (R321, R489, R490) -/

/-- The spaces of the Levee that the debug master reaches (R315): pool, Reservoir, unit registers. -/
def dbgLimit : Nat → Nat
  | 0 => 2 ^ 50
  | 1 => rsvSize
  | _ => 0x14000000

/-- The factory calibration register of a lane. -/
def calFac : RegSpec := regSpec .lane .LN_CAL_FAC

/-- Whether a range of unit-register space reaches into a secret region (R490): the key store, the OTP, or a lane's factory calibration. -/
def secretRange (a len : Nat) : Bool :=
  (decide (a < 0xA000) && decide (0x8000 < a + len))
    || (List.range ((a % 8 + len + 7) / 8)).any fun i => match unitAt (a / 8 * 8 + 8 * i) with
        | some (.lane _, off) => decide (off / 8 = calFac.off / 8)
        | _ => false

/-- Whether a page of a space lies in the range of an enabled and locked rule (R321). -/
def State.lockedPage (s : State) (space page : Nat) : Bool := s.rules.any fun n =>
  s.fldn .root F.LEV_RULE_CTL_LOCK n == 1 && s.fldn .root F.LEV_RULE_CTL_SPACE n == space
    && decide (s.fldn .root F.LEV_RULE_BASE_BASE_PG n ≤ page) && decide (page ≤ s.fldn .root F.LEV_RULE_LIMIT_LIMIT_PG n)

/-- The aligned 8-byte words a range touches: the word's address, and the first and the last byte plus 1 in it. -/
def spanWords (a len : Nat) : List (Nat × Nat × Nat) :=
  (List.range ((a % 8 + len + 7) / 8)).map fun i =>
    let w := a / 8 * 8 + 8 * i
    (w, max a w - w, min (a + len) (w + 8) - w)

/-- Read words of unit-register space one after another, and go on with the bytes. -/
def dbgReadRegs : List (Nat × Nat × Nat) → List Nat → (List Nat → Prog) → Prog
  | [], acc, k => k acc
  | (w, lo, hi) :: ws, acc, k => .look fun s => Prog.free fun n =>
      wordRead .debug (fun h => s.unitHalf (w + h)) lo hi (Config.freeValue n).toNat fun v =>
        dbgReadRegs ws (acc ++ (List.range (hi - lo)).map fun i => v / 2 ^ (8 * i) % 256) k

/-- Write words of unit-register space one after another; a write narrower than 32 bits is not taken. -/
def dbgWriteRegs (a : Nat) (l : List Byte) : Prog := Prog.each (spanWords a l.length) fun e => .look fun s =>
  Prog.when (wholeHalves e.2.1 e.2.2) (wordWrite .debug (fun h => s.unitHalf (e.1 + h)) e.2.1 e.2.2
    (leNum ((l.drop (e.1 + e.2.1 - a)).take (e.2.2 - e.2.1))))

/-- Zeros in place of the data of a read. -/
def dbgZeros (write : Bool) (len : Nat) : Prog := Prog.when (!write) (Prog.send (.debugData (List.replicate len 0)))

/-- One access of the debug master within a 4 KiB page; k is its place among the pool accesses (R464, R489). -/
def dbgPiece (k space : Nat) (write : Bool) (a len : Nat) (l : List Byte) : Prog := .look fun s =>
  if s.flag .root F.HW_DBG_CTL_DIS then dbgZeros write len
  else if (space == 2 && secretRange a len) || s.lockedPage space (a / 4096) then Prog.seq (raise 126 .root (a / 4096)) (dbgZeros write len)
  else leveeCheck .debug 0 space a (if write then .w else .r) .root (dbgZeros write len) (
    if dbgLimit space < a + len then Prog.when (!write) (Prog.free fun n =>
      Prog.send (.debugData ((List.range len).map fun i => (Config.freeLine n).toNat / 2 ^ (8 * (i % 64)) % 256)))
    else match space, write with
      | 0, _ => poolStart k none (!write) a len l
      | 1, false => Prog.all [
          Prog.each (List.range 65) fun _ => .eff .fresh,
          Prog.send (.debugData (s.rsvBytes a len s.fresh []))]
      | 1, true => rsvWriteBytes a l
      | _, false => dbgReadRegs (spanWords a len) [] fun d => Prog.send (.debugData d)
      | _, true => dbgWriteRegs a l)

/-- An access of the debug master (R489), split at the 4 KiB boundary it may cross. One access of it runs at a time. -/
def dbgAccess (space : Nat) (write : Bool) (a len : Nat) (data : List Byte) : Prog := .look fun s =>
  let l := (data ++ List.replicate len 0).take len
  let first := min len (4096 - a % 4096)
  if !s.flag .root F.HW_DBG_CTL_ACTIVE || Tab.has s.dev.hw.pool 1 || Tab.has s.dev.hw.pool 2 || len == 0 then .skip
  else Prog.seq (dbgPiece 1 space write a first (l.take first))
    (Prog.when (decide (first < len)) (dbgPiece 2 space write (a + first) (len - first) (l.drop first)))

/-- The TAP selects the debug access master, or another instruction: EV189 at the first selection after reset (R489). -/
def dbgSelect (sel : Bool) : Prog := .look fun s => Prog.when (s.dev.pwr.phase != .held) (Prog.seq
  (Prog.setB .root F.HW_DBG_CTL_ACTIVE sel)
  (Prog.when (sel && !s.dev.hw.dbgSeen) (Prog.seq (Prog.hw fun h => { h with dbgSeen := true }) (raise 189 .root 0))))

/-! ### Factory test mode (R491, R492) -/

/-- Factory test entry (R491, R492): refused with the fuse blown or a signature that fails; on entry the keys are gone and every fabric link goes
down. -/
def ftmAuth (ok : Bool) : Prog := .look fun s =>
  if s.dev.pwr.phase = .held ∨ s.flag .root F.HW_STAT_FTM = true then .skip
  else if s.flag .root F.HW_DBG_CTL_FTM_CLOSED || !ok then raise 191 .root 0
  else Prog.all [
    Prog.hw fun h => { h with ident := false },
    Prog.set .root F.HW_STAT_FTM 1,
    Prog.each ((List.finRange 64).filter fun g => s.mode g == .f) linkDown,
    raise 190 .root 0]

end Sys2Proof.Machine
end

