-- ==== Sys2Proof/Machine/Floodplain.lean ====
section
/-!
DEFINITION. Machine/Floodplain.lean: the commands of the switch core: cells at the ingress and egress, tracked requests and their answers, lost
paths and notices (spec 04).
-/
namespace Sys2Proof.Machine

/-- LOSSLESS_CELL_ARRIVAL (R108, R112, R117, R251). -/
def execLosslessCellArrival (c : Cell) (fast : Bool) (s : State) : Host.Outcome State Fault Refusal := act (losslessArrive c fast) s

/-- WAITING_CELL_ADMIT (R103, R108). -/
def execWaitingCellAdmit (turn : AdmitTurn) (s : State) : Host.Outcome State Fault Refusal := act (waitAdmit turn.cls turn.fast ringPump) s

/-- RMAB_PACKET_ARRIVAL (R109). -/
def execRmabPacketArrival (b : BulkIn) (s : State) : Host.Outcome State Fault Refusal := act (bulkArrive b) s

/-- CELL_SEND (R102, R136). -/
def execCellSend (x : XPort) (credit : List Cls) (ecc : Ecc) (s : State) : Host.Outcome State Fault Refusal :=
  act (egressSend x credit.contains ecc) s

/-- RMAB_AGE_EVICTION (R116). -/
def execRmabAgeEviction (x : XPort) (s : State) : Host.Outcome State Fault Refusal := act (ageEvict x) s

/-- FP_THRESHOLD_WRITE (R111). -/
def execFpThresholdWrite (m : Master) (k : Fin 7) (shared : Bool) (value : BitVec 32) (s : State) :
    Host.Outcome State Fault Refusal := act (regWhole m .root (if shared then .DEV_FP_CLS_SH else .DEV_FP_CLS_CFG) k.val value.toNat) s

/-- ORT_RESPONSE (R126, R130). -/
def execOrtResponse (pt : PortId) (tag : BitVec 16) (ix : Fin 65536) (gen : Fin 16) (data : Line) (poison : Bool) (mv : MetaV)
    (code : Fin 7) (old : BitVec 64) (s : State) : Host.Outcome State Fault Refusal :=
  act (ortResponse pt tag.toNat ix.val gen.val data poison mv code.val old) s

/-- ORT_TIMEOUT (R127). -/
def execOrtTimeout (ix : Fin 65536) (s : State) : Host.Outcome State Fault Refusal := act (ortTimeout ix.val) s

/-- ORT_LOST_PATH_ANSWER (R128-R131). -/
def execOrtLostPathAnswer (s : State) : Host.Outcome State Fault Refusal := act ortLostAnswer s

/-- ORT_QUARANTINE_EXPIRY (R130, R131). -/
def execOrtQuarantineExpiry (ix : Fin 65536) (s : State) : Host.Outcome State Fault Refusal := act (quarEnd ix.val) s

/-- POISON_ADD_NOTICE_SEND (R131). -/
def execPoisonAddNoticeSend (line : BitVec 44) (s : State) : Host.Outcome State Fault Refusal := act (noticeSend line.toNat) s

/-- POISON_ADD_NOTICE (R131, R168). -/
def execPoisonAddNotice (src : Fin 16) (line : BitVec 44) (n : Fin 65) (s : State) : Host.Outcome State Fault Refusal :=
  act (noticeTake src line.toNat n.val) s

/-- POISON_ADD_NOTICE_ACK (R131). -/
def execPoisonAddNoticeAck (src : Fin 16) (line : BitVec 44) (s : State) : Host.Outcome State Fault Refusal :=
  act (noticeAcked src line.toNat) s

/-- EGRESS_STALL (R132). -/
def execEgressStall (x : XPort) (s : State) : Host.Outcome State Fault Refusal := act (egressStall x) s

end Sys2Proof.Machine
end

