-- ==== Sys2Proof/Machine/Gauge.lean ====
section
/-!
DEFINITION. Machine/Gauge.lean: the commands of Gauge: selectors, intervals, snapshots and samples (spec 18).
-/
namespace Sys2Proof.Machine

/-- A unit that exists and has its clock copies its counters. -/
def snapCopyAt (u : UnitId) : Prog := .look fun s => Prog.when (s.unitExists u && s.clocked (gaugeDomain u)) (snapCopy u)

/-- EVENT_SELECT_WRITE (R496, R497): a write of GAU_EVSELj of a unit. -/
def execEventSelectWrite (m : Master) (u : UnitId) (j : Fin 8) (value : BitVec 32) (s : State) : Host.Outcome State Fault Refusal :=
  act (regWhole m u .GAU_EVSEL j.val value.toNat) s

/-- COUNTER_CLEAR (R500): a write of GAU_CTL with CLR 1, and its FREEZE. -/
def execCounterClear (m : Master) (u : UnitId) (freeze : Bool) (s : State) : Host.Outcome State Fault Refusal :=
  act (regWhole m u .GAU_CTL 0 (2 + b2n freeze)) s

/-- INTERVAL_BOUNDARY (R502). -/
def execIntervalBoundary (s : State) : Host.Outcome State Fault Refusal := act ivlPeriodic s

/-- INTERVAL_NOW (R502): a write of GAU_IVL_CFG with NOW 1. -/
def execIntervalNow (m : Master) (value : BitVec 30) (en : Bool) (s : State) : Host.Outcome State Fault Refusal :=
  act (regWhole m .root .GAU_IVL_CFG 0 (value.toNat + 2 ^ 30 + b2n en * 2 ^ 31)) s

/-- SNAPSHOT_COPY (R503). -/
def execSnapshotCopy (u : UnitId) (s : State) : Host.Outcome State Fault Refusal := act (snapCopyAt u) s

/-- SAMPLING_ENABLE (R507): a write of GAU_SMP_CFG with EN 1. -/
def execSamplingEnable (m : Master) (value : BitVec 31) (s : State) : Host.Outcome State Fault Refusal :=
  act (regWhole m .root .GAU_SMP_CFG 0 (value.toNat + 2 ^ 31)) s

/-- SAMPLE_RING_WRITE (R510): a write of GAU_SMP_RING. -/
def execSampleRingWrite (m : Master) (value : BitVec 64) (s : State) : Host.Outcome State Fault Refusal :=
  act (regWhole m .root .GAU_SMP_RING 0 value.toNat) s

/-- SAMPLE_END (R508, R509, R510). -/
def execSampleEnd (n : Nat) (e : SmpEnd) (s : State) : Host.Outcome State Fault Refusal := act (smpEnd n e) s

/-- SAMPLE_RECORD_ACK (R510). -/
def execSampleRecordAck (s : State) : Host.Outcome State Fault Refusal := act smpAck s

end Sys2Proof.Machine
end

