-- ==== Sys2Proof/Machine/Package.lean ====
section
/-!
DEFINITION. Machine/Package.lean: the package of the device: its outline (R513-R515), the ball map (R516-R520, R525), its signals (R521, R524) and the
TAP (R488). No command moves a ball; the levels that commands report at pins are those of the signals named here.
-/
namespace Sys2Proof.Machine

/-! ### Rails and signals -/

/-- The twelve supply rails, in the order of their numbers in DEV_RAIL_STAT (R443, R525). -/
inductive Rail where
  | vddCore | vddSram | vddSds | vddaSds | vddhSds | vddqRsv | vppRsv | vddIo | vddAux | vddioAux | vddSlot | vinSlot
  deriving DecidableEq, Repr

/-- The rails in that order. -/
def Rail.all : List Rail :=
  [.vddCore, .vddSram, .vddSds, .vddaSds, .vddhSds, .vddqRsv, .vppRsv, .vddIo, .vddAux, .vddioAux, .vddSlot, .vinSlot]

/-- The signals of a slot channel (R518). -/
inductive SlotSig where
  | gate | vout | snsp | snsn | temp | prsntL | pg | btnL | mrlL | pwrLed | attnLed
  deriving DecidableEq, Repr

/-- The signals of the device (R521); of a pair, `n` names its negative ball. -/
inductive Sig where
  | tx (g : Fin 64) (l : Fin 8) (n : Bool)
  | rx (g : Fin 64) (l : Fin 8) (n : Bool)
  | fco (g : Fin 64) (n : Bool)
  | fci (g : Fin 64) (n : Bool)
  | perstL (g : Fin 64)
  | refclk (q : Fin 4) (n : Bool)
  | sysclk (n : Bool)
  | auxclk | i3cScl | i3cSda | alive | thermtripL | pwrok | resetL | qspiSck | qspiCsL
  | qspiIo (i : Fin 4)
  | tck | tms | tdi | tdo | trstL
  | strapPmode (i : Fin 2)
  | strapPid (i : Fin 4)
  | vsns (sram n : Bool)
  | thermd (n : Bool)
  | test (i : Fin 8)
  | slot (k : Fin 64) (s : SlotSig)
  deriving DecidableEq, Repr

/-- The direction of a signal, seen from the device. -/
inductive PinDir where
  | input | output | both | passive
  deriving DecidableEq, Repr

/-- The direction of each signal (R521). -/
def Sig.dir : Sig → PinDir
  | .tx _ _ _ | .fco _ _ | .alive | .thermtripL | .qspiSck | .qspiCsL | .tdo | .vsns _ _ => .output
  | .i3cSda | .qspiIo _ => .both
  | .thermd _ => .passive
  | .slot _ .gate | .slot _ .pg | .slot _ .pwrLed | .slot _ .attnLed => .output
  | _ => .input

/-- The rail that supplies a signal's circuit, where the table names one (R521); a slot's gate drive comes from the charge pump of VIN_SLOT. -/
def Sig.supply : Sig → Option Rail
  | .tx _ _ _ | .fco _ _ => some .vddhSds
  | .auxclk | .i3cScl | .i3cSda | .alive | .thermtripL | .pwrok => some .vddioAux
  | .perstL _ | .resetL | .qspiSck | .qspiCsL | .qspiIo _ | .tck | .tms | .tdi | .tdo | .trstL | .strapPmode _ | .strapPid _ | .test _ => some .vddIo
  | .slot _ .gate => some .vinSlot
  | .slot _ .temp | .slot _ .prsntL | .slot _ .pg | .slot _ .btnL | .slot _ .mrlL | .slot _ .pwrLed | .slot _ .attnLed => some .vddSlot
  | _ => none

/-- The clock domains that signals lie in (R380, R521). -/
inductive SigDomain where
  | groupTx | groupRx | always | groupPll (q : Fin 4) | rootPll | headwater | tck | straps | slotDie
  deriving DecidableEq, Repr

/-- The domain of each signal, where it has one (R521). -/
def Sig.domain : Sig → Option SigDomain
  | .tx _ _ _ | .fco _ _ => some .groupTx
  | .rx _ _ _ | .fci _ _ => some .groupRx
  | .perstL _ | .auxclk | .i3cScl | .i3cSda | .alive | .thermtripL | .pwrok | .resetL => some .always
  | .refclk q _ => some (.groupPll q)
  | .sysclk _ => some .rootPll
  | .qspiSck | .qspiCsL | .qspiIo _ => some .headwater
  | .tck | .tms | .tdi | .tdo | .trstL => some .tck
  | .strapPmode _ | .strapPid _ => some .straps
  | .slot _ _ => some .slotDie
  | .vsns _ _ | .thermd _ | .test _ => none

/-- What an input reads with nothing connected, where a pull gives it a level (R521, R522, R524): an unused channel reads empty, not pressed and latch open. -/
def Sig.unconnected : Sig → Option Bool
  | .perstL _ | .resetL | .tms | .tdi => some true
  | .trstL | .strapPmode _ | .strapPid _ => some false
  | .slot _ .prsntL | .slot _ .btnL | .slot _ .mrlL => some true
  | _ => none

/-! ### The ball map -/

/-- What a position of the grid holds: a ball of a rail, of VSS, of a signal, or no ball. -/
inductive Ball where
  | rail (r : Rail)
  | vss
  | sig (s : Sig)
  | depopulated
  deriving DecidableEq, Repr

/-- The ball of position t, c of a group's tile (R517). -/
def tileBall (g : Fin 64) (t c : Nat) : Ball :=
  let pair := fun (f : Bool → Sig) => if c % 3 = 1 then Ball.vss else .sig (f (c % 3 == 0))
  let lane := fun (t0 : Nat) => (Fin.ofNat 8 (2 * (t - t0) + (c - 1) / 3) : Fin 8)
  if t ≤ 4 then pair (.tx g (lane 1))
  else if t = 5 then (if c ≤ 3 then pair (.fco g) else pair (.fci g))
  else if t = 6 then (if c % 3 = 2 then .rail .vddhSds else .vss)
  else if t ≤ 10 then pair (.rx g (lane 7))
  else if t = 11 then (if c % 3 = 2 then .rail .vddaSds else .vss)
  else if c % 3 = 1 then .rail .vddaSds
  else if c % 3 = 2 then .rail .vddSds
  else .vss

/-- The signals of a slot channel's block, by block row and column (R518); none is VSS. -/
def slotSig (r c : Nat) : Option SlotSig :=
  match r, c with
  | 1, 1 => some .gate | 1, 2 => some .vout | 1, 3 => some .snsp | 1, 4 => some .snsn
  | 2, 1 => some .temp | 2, 3 => some .prsntL | 2, 4 => some .pg
  | 3, 1 => some .btnL | 3, 2 => some .mrlL | 3, 3 => some .pwrLed | 3, 4 => some .attnLed
  | _, _ => none

/-- A ball of the slot region and of the clearance around it (R516, R518). -/
def slotBall (row col : Nat) : Ball :=
  if row < 28 ∨ 69 < row ∨ 21 < col then .depopulated
  else if col = 21 then .vss
  else
    let b := (row - 28) / 3 * 5 + (col - 1) / 4
    let r := (row - 28) % 3 + 1
    if h : b < 64 then (match slotSig r ((col - 1) % 4 + 1) with
      | some s => .sig (.slot ⟨b, h⟩ s)
      | none => .vss)
    else if b = 64 then (if r = 3 then .vss else .rail .vinSlot)
    else if b = 65 then .rail .vddSlot
    else .vss

/-- The CMOS block of the core region, by rows 025 to 032 and columns 033 to 040 (R520). -/
def cmosBall (row col : Nat) : Ball :=
  let line : List Ball := match row with
    | 25 => [.sig (.refclk 0 false), .sig (.refclk 0 true), .rail .vddIo, .sig (.refclk 1 false), .sig (.refclk 1 true), .rail .vddIo,
        .sig (.sysclk false), .sig (.sysclk true)]
    | 26 => [.sig (.refclk 2 false), .sig (.refclk 2 true), .rail .vddIo, .sig (.refclk 3 false), .sig (.refclk 3 true), .rail .vddIo,
        .sig .auxclk, .rail .vddIo]
    | 27 => [.sig .qspiSck, .sig .qspiCsL, .rail .vddIo, .sig (.qspiIo 0), .sig (.qspiIo 1), .sig (.qspiIo 2), .sig (.qspiIo 3), .rail .vddIo]
    | 28 => [.sig .tck, .sig .tms, .sig .tdi, .sig .tdo, .sig .trstL, .rail .vddIo, .sig (.vsns false false), .sig (.vsns false true)]
    | 29 => [.sig (.strapPmode 0), .sig (.strapPmode 1), .sig (.strapPid 0), .sig (.strapPid 1), .sig (.strapPid 2), .sig (.strapPid 3),
        .sig (.vsns true false), .sig (.vsns true true)]
    | 30 => [.sig .i3cScl, .sig .i3cSda, .sig .alive, .sig .thermtripL, .sig .pwrok, .sig .resetL, .sig (.thermd false), .sig (.thermd true)]
    | 31 => (List.finRange 8).map fun i => .sig (.test i)
    | _ => List.replicate 8 (.rail .vddIo)
  line.getD (col - 33) .vss

/-- A ball of the core region (R519); a checkerboard holds its rail where row plus column is even. -/
def coreBall (row col : Nat) : Ball :=
  let check := fun (r : Rail) => if (row + col) % 2 = 0 then Ball.rail r else .vss
  if row ≤ 32 then
    if col ≤ 32 then .sig (.perstL (Fin.ofNat 64 ((row - 25) * 8 + (col - 25))))
    else if col ≤ 40 then cmosBall row col
    else check .vddaSds
  else if row ≤ 36 then
    if col ≤ 36 then check .vppRsv
    else if col ≤ 40 then check .vddAux
    else if col ≤ 44 ∧ row ≤ 35 then check .vddioAux
    else .vss
  else if row ≤ 46 then check .vddSds
  else if row ≤ 58 then check .vddCore
  else if row ≤ 62 then check .vddSram
  else if row ≤ 66 then check .vddqRsv
  else check .vddhSds

/-- The ball at a row and a column, each from 1 to 96 (R516-R520). -/
def ball (row col : Nat) : Ball :=
  if 25 ≤ row ∧ row ≤ 72 then (if col ≤ 24 then slotBall row col else coreBall row col)
  else
    let q := if row ≤ 24 then (row - 1) / 12 else (row - 73) / 12 + 2
    tileBall (Fin.ofNat 64 (16 * q + (col - 1) / 6)) ((row - 1) % 12 + 1) ((col - 1) % 6 + 1)

/-- How many balls of a rail the SerDes bands, the core region and the slot region have (R525). -/
def Rail.balls : Rail → Nat × Nat × Nat
  | .vddCore => (0, 432, 0) | .vddSram => (0, 144, 0) | .vddSds => (128, 360, 0) | .vddaSds => (256, 224, 0)
  | .vddhSds => (128, 216, 0) | .vddqRsv => (0, 144, 0) | .vppRsv => (0, 24, 0) | .vddIo => (0, 16, 0)
  | .vddAux => (0, 8, 0) | .vddioAux => (0, 6, 0) | .vddSlot => (0, 0, 12) | .vinSlot => (0, 0, 8)

/-! ### The outline -/

/-- Where the center of a ball lies from the center of the body, in micrometers (R515). -/
def ballX (col : Nat) : Int := (2 * (col : Int) - 97) * 475

/-- The other coordinate of a ball, in micrometers (R515). -/
def ballY (row : Nat) : Int := (97 - 2 * (row : Int)) * 475

/-- The outline of an ordering code (R513): lengths in micrometers, the mass in grams and the static load in newtons. `topFlat` is
the flatness of the lid or how far the bare dies are from one plane, `ring` the width and the top of a stiffener ring, or twice the side of the lid. -/
structure Outline where
  body : Nat
  bodyTol : Nat
  substrate : Nat
  height : Nat
  heightMax : Nat
  ballDiameter : Nat
  ballHeight : Nat
  coplanarity : Nat
  mass : Nat
  load : Nat
  topFlat : Nat
  ring : Nat × Nat
  deriving DecidableEq, Repr

/-- The outlines of the two codes (R1, R513, R514). -/
def outline (lidless : Bool) : Outline := {
  body := 91200
  bodyTol := 150
  substrate := 2500
  height := if lidless then 4050 else 5200
  heightMax := if lidless then 4250 else 5450
  ballDiameter := 600
  ballHeight := 450
  coplanarity := 200
  mass := if lidless then 104 else 148
  load := if lidless then 400 else 900
  topFlat := if lidless then 50 else 100
  ring := if lidless then (3000, 3600) else (84000, 84000) }

/-! ### The TAP (R488) -/

/-- The instructions of the IEEE 1149.1 TAP. -/
inductive TapInstr where
  | bypass | idcode | sample | extest | clamp | highz | dbgm | ftmAuth
  deriving DecidableEq, Repr

/-- The instruction the TAP executes for one it holds: while PWROK is high the boundary-scan outputs stay with the device. -/
def TapInstr.effective (pwrok : Bool) (i : TapInstr) : TapInstr :=
  if pwrok && (i == .extest || i == .clamp || i == .highz) then .bypass else i

/-- IDCODE, of the silicon revision and the manufacturer's identity. -/
def tapIdcode (rev : BitVec 4) (maker : BitVec 11) : BitVec 32 := rev ++ (0x5120 : BitVec 16) ++ maker ++ (1 : BitVec 1)

end Sys2Proof.Machine
end

