-- ==== Sys2Proof/Machine/IdOps.lean ====
section
/-!
DEFINITION. Machine/IdOps.lean: MCTP control requests (R469) and the SPDM responders (R259, R484, R485, R493).
-/
namespace Sys2Proof.Machine

/-! ### MCTP control (R469) -/

/-- A request that the firmware answers over I3C: while it is ready, or in recovery (log entry 77). -/
def mctpRun (p : Prog) : Prog := .look fun s => Prog.when (s.flag .root F.HW_STAT_READY || s.flag .root F.HW_STAT_RECOVERY) p

/-- Answer an MCTP control request: the command code of MCTP, the completion code, and the data. -/
def mctpReply (cmd code : Nat) (data : List Nat) : Prog := Prog.send (.mctpCtl cmd (code :: data))

/-- Set Endpoint ID: 0x00 and 0xFF are no endpoint IDs. -/
def setEid (eid : Nat) : Prog := mctpRun (
  if eid = 0 ∨ eid = 0xFF then mctpReply 0x01 0x02 []
  else Prog.seq (Prog.hw fun h => { h with eid }) (mctpReply 0x01 0 [0, eid, 0]))

/-- Get Endpoint ID. -/
def getEid : Prog := mctpRun (.look fun s => mctpReply 0x02 0 [s.dev.hw.eid, 0, 0])

/-- The message types the device supports (R469). -/
def mctpTypes : List Nat := [0x00, 0x05, 0x7E]

/-- Get MCTP Version Support: which versions the device states is open, so the version is a free value. -/
def getMctpVersion (type : Nat) : Prog := mctpRun (
  if type = 0xFF ∨ mctpTypes.contains type then Prog.free fun n => mctpReply 0x04 0 [1, (Config.freeValue n).toNat % 2 ^ 32]
  else mctpReply 0x04 0x80 [])

/-- Get Message Type Support. -/
def getMctpTypes : Prog := mctpRun (mctpReply 0x05 0 (mctpTypes.length :: mctpTypes))

/-- Get Vendor Defined Message Support: one vendor ID, Tilrum's PCI-SIG Vendor ID (R274, R469). -/
def getVendorSupport (sel : Nat) : Prog := mctpRun (
  if sel = 0 then mctpReply 0x06 0 [0xFF, 0, (Config.otp 13).toNat % 2 ^ 16]
  else mctpReply 0x06 0x02 [])

/-! ### The TAP (R488) -/

/-- IDCODE of this device: the silicon revision that the root reports (R545), and Tilrum's manufacturer identity, which the OTP stands for (log entry 8). -/
def deviceIdcode : BitVec 32 := tapIdcode (BitVec.ofNat 4 (Config.otp 14).toNat) (BitVec.ofNat 11 (Config.otp 16).toNat)

/-! ### SPDM (R259, R484, R485, R493) -/

/-- The number of a responder: 0 over MCTP, a port's index plus 1 over the DOE of its function 0, 129 plus a group's number on its fabric link. -/
def spdmKey : SpdmAt → Nat
  | .i3c => 0
  | .doe pt => pt.ix + 1
  | .link g => 129 + g.val

/-- Whose chain and key a responder uses: the device's, or those of the group unit of a fabric link (R260). -/
def spdmWho : SpdmAt → Nat
  | .link g => pathCode (.group g) + 1
  | _ => 0

/-- Whether a responder runs: the firmware is ready; a DOE responder's port is an H port with its link up, and a fabric link stands in AUTH (R258). -/
def State.spdmOn (s : State) (r : SpdmAt) : Bool :=
  s.flag .root F.HW_STAT_READY && (match r with
    | .i3c => true
    | .link g => s.mode g == .f && s.fabState g == 2
    | .doe pt =>
      let l := s.fld (.port pt) F.PRT_HSTAT_LSTATE
      s.portExists pt && s.mode pt.g == .h && (l == 2 || l == 3))

/-- Answer with a response code of SPDM and its data. -/
def spdmReply (r : SpdmAt) (code : Nat) (data : List Nat) : Prog := match r with
  | .link g => linkSpdm g code data
  | _ => Prog.send (.spdm (spdmKey r) code data)

/-- Answer with an SPDM ERROR of a code: 0x01 invalid request, 0x04 unexpected request, 0x05 unspecified, 0x07 unsupported request. -/
def spdmError (r : SpdmAt) (code : Nat) : Prog := spdmReply r 0x7F [code, 0]

/-- The connection of a responder. -/
def State.spdmOf (s : State) (r : SpdmAt) : Option Spdm := Tab.get? s.dev.hw.spdm (spdmKey r)

/-- Keep a connection, with the messages it has exchanged. -/
def spdmPut (r : SpdmAt) (c : Spdm) : Prog := Prog.hw fun h => { h with spdm := Tab.put h.spdm (spdmKey r) c }

/-- How far a connection has come: 0 nothing, 1 the version, 2 the capabilities, 3 the algorithms. -/
def State.spdmStep (s : State) (r : SpdmAt) : Nat :=
  match s.spdmOf r with
  | none => 0
  | some c => if c.algs then 3 else if c.caps then 2 else 1

/-- Run a request of a responder: every one is answered with ERROR while identity is disabled (R493), and one that comes before the connection
has the step it needs is unexpected. -/
def spdmRun (r : SpdmAt) (need : Nat) (p : Spdm → Prog) : Prog := .look fun s => Prog.when (s.spdmOn r) (
  if !s.dev.hw.ident then spdmError r 0x05
  else if s.spdmStep r < need then spdmError r 0x04
  else p ((s.spdmOf r).getD { caps := false, algs := false, challenged := false, log := [] }))

/-- GET_VERSION: 1.3 alone; the connection starts anew. -/
def spdmVersion (r : SpdmAt) : Prog := spdmRun r 0 fun _ => Prog.seq
  (spdmPut r { caps := false, algs := false, challenged := false, log := [0x84, 0x04, 0x13] })
  (spdmReply r 0x04 [0x13])

/-- The responder's capabilities: certificates, challenge, and on the management paths measurements with signatures (R259, R484). -/
def spdmCapFlags : SpdmAt → Nat
  | .link _ => 0x02 + 0x04
  | _ => 0x02 + 0x04 + 0x10

/-- GET_CAPABILITIES. -/
def spdmCaps (r : SpdmAt) (flags : Nat) : Prog := spdmRun r 1 fun c => Prog.seq
  (spdmPut r { c with
    caps := true
    log := c.log ++ [0xE1, flags, 0x61, spdmCapFlags r] })
  (spdmReply r 0x61 [spdmCapFlags r])

/-- NEGOTIATE_ALGORITHMS: ECDSA P-384 and SHA-384 alone (R259); an offer without them is an invalid request. -/
def spdmAlgs (r : SpdmAt) (asym hash : Nat) : Prog := spdmRun r 2 fun c =>
  if bitOf asym 7 && bitOf hash 1 then Prog.seq
    (spdmPut r { c with
      algs := true
      log := c.log ++ [0xE3, asym, hash, 0x63, 0x80, 0x02] })
    (spdmReply r 0x63 [0x80, 0x02])
  else spdmError r 0x01

/-- The digest of a certificate chain of slot 0; crypto function 5 (log entry 11). -/
def State.chainDigest (s : State) (who : Nat) : Nat := Config.crypto 5 (who :: s.dev.hw.cold.nums) % 2 ^ 384

/-- GET_DIGESTS: slot 0 alone. -/
def spdmDigests (r : SpdmAt) : Prog := spdmRun r 3 fun c => .look fun s => Prog.seq
  (spdmPut r { c with log := c.log ++ [0x81, 0x01, 0x01, s.chainDigest (spdmWho r)] })
  (spdmReply r 0x01 [0x01, s.chainDigest (spdmWho r)])

/-- GET_CERTIFICATE: a portion of the chain of slot 0, of at most 4,000 bytes, and how many bytes remain. -/
def spdmCert (r : SpdmAt) (slot off len : Nat) : Prog := spdmRun r 3 fun c => .look fun s =>
  if slot ≠ 0 ∨ s.chainLen (spdmWho r) ≤ off then spdmError r 0x01
  else
    let part := s.chainPart (spdmWho r) off len
    let body := part.length :: (s.chainLen (spdmWho r) - off - part.length) :: part
    Prog.seq (spdmPut r { c with log := c.log ++ (0x82 :: slot :: off :: len :: 0x02 :: body) }) (spdmReply r 0x02 body)

/-- The measurement summary hash of a CHALLENGE: none asked for, of the boot ROM and Headwater code at the last cold reset, or of every block. -/
def State.measSummary (s : State) (type : Nat) : List Nat :=
  let digest := fun (l : List Nat) => [Config.crypto 0 (0x100 :: l.map s.measurement) % 2 ^ 384]
  if type = 0 then []
  else if type = 1 then digest [1, 2]
  else digest ((List.range 13).map fun n => n + 1)

/-- CHALLENGE, signed by the alias key, with measurement summary hash, on a fabric link without it and by the group unit's key (R259, R484, R485); on a link the peer's
authentication of this end has its answer with it. -/
def spdmChallenge (r : SpdmAt) (slot : Nat) (nonce : BitVec 256) (type : Nat) : Prog := spdmRun r 3 fun c => .look fun s =>
  if slot ≠ 0 ∨ (type ≠ 0 ∧ type ≠ 1 ∧ type ≠ 0xFF) ∨ (type ≠ 0 ∧ spdmWho r ≠ 0) then spdmError r 0x01
  else Prog.free fun n =>
    let body := s.chainDigest (spdmWho r) :: (Config.freeLine n).toNat % 2 ^ 256 :: s.measSummary type
    let log := c.log ++ (0x83 :: slot :: type :: nonce.toNat :: 0x03 :: body)
    Prog.all [
      spdmPut r { c with challenged := true, log },
      spdmReply r 0x03 (body ++ [s.signature (spdmWho r) log]),
      match r with
      | .link g => authAdmit g
      | _ => .skip]

/-- GET_MEASUREMENTS (R485), which a fabric link does not support (R259): the number of blocks, one block, or all of them; signed by the alias key where a signature is asked for. -/
def spdmMeasure (r : SpdmAt) (op : Nat) (sign : Bool) (slot : Nat) (nonce : BitVec 256) : Prog := spdmRun r 3 fun c => .look fun s =>
  if spdmWho r ≠ 0 then spdmError r 0x07
  else if (op ≠ 0xFF ∧ 13 < op) ∨ (sign = true ∧ slot ≠ 0) then spdmError r 0x01
  else Prog.free fun n =>
    let blocks := if op = 0 then [] else if op = 0xFF then (List.range 13).map fun i => i + 1 else [op]
    let body := (if op = 0 then 13 else 0) :: blocks.flatMap fun i => [i, s.measurement i]
    let head := [0xE0, op, slot, nonce.toNat, 0x60, (Config.freeLine n).toNat % 2 ^ 256]
    let log := c.log ++ head ++ body
    Prog.seq (spdmPut r { c with log })
      (spdmReply r 0x60 (body ++ (if sign then [(Config.freeLine n).toNat % 2 ^ 256, s.signature (spdmWho r) log] else [])))

end Sys2Proof.Machine
end

