-- ==== Sys2Proof/Machine/Headwater.lean ====
section
/-!
DEFINITION. Machine/Headwater.lean: the commands of management and identity (spec 17), the CXL.io memory request (R281) and the debug master's access
(R321).
-/
namespace Sys2Proof.Machine

/-! ### Asryn commands (R464) -/

/-- PING (R464). -/
def execPing (h : Hdr) (s : State) : Host.Outcome State Fault Refusal := act (asryn h .ping) s

/-- REG_READ (R464). -/
def execRegRead (h : Hdr) (off : BitVec 32) (width : BitVec 8) (s : State) : Host.Outcome State Fault Refusal :=
  act (asryn h (.regRead off width)) s

/-- REG_WRITE (R464). -/
def execRegWrite (h : Hdr) (off : BitVec 32) (width : BitVec 8) (value : BitVec 64) (s : State) : Host.Outcome State Fault Refusal :=
  act (asryn h (.regWrite off width value)) s

/-- POOL_READ (R464). -/
def execPoolRead (h : Hdr) (gpa : BitVec 64) (len : BitVec 32) (s : State) : Host.Outcome State Fault Refusal :=
  act (asryn h (.poolRead gpa len)) s

/-- POOL_WRITE (R464). -/
def execPoolWrite (h : Hdr) (gpa : BitVec 64) (len : BitVec 32) (data : List Byte) (s : State) : Host.Outcome State Fault Refusal :=
  act (asryn h (.poolWrite gpa len data)) s

/-- RSV_READ (R464, R511). -/
def execRsvRead (h : Hdr) (addr : BitVec 64) (len : BitVec 32) (flips : List (Fin 64 × Burst)) (s : State) :
    Host.Outcome State Fault Refusal := act (asryn h (.rsvRead addr len flips)) s

/-- RSV_WRITE (R464). -/
def execRsvWrite (h : Hdr) (addr : BitVec 64) (len : BitVec 32) (data : List Byte) (s : State) : Host.Outcome State Fault Refusal :=
  act (asryn h (.rsvWrite addr len data)) s

/-! ### Paths (R465, R466, R469, R470) -/

/-- MCTP_VENDOR_MESSAGE (R460, R465, R469). -/
def execMctpVendorMessage (p : Packet) (s : State) : Host.Outcome State Fault Refusal := act (packetArrive .mctp p) s

/-- COMMAND_RING_TAIL (R470): a write of HW_RING_CTAIL through the ring range of a management port. -/
def execCommandRingTail (pt : PortId) (value : BitVec 32) (s : State) : Host.Outcome State Fault Refusal :=
  act (.look fun s => Prog.when (s.mgmt pt) (Prog.seq (dropHeld (.hostFn pt 0)) (ringCross pt (regSpec .ring .HW_RING_CTAIL) value.toNat))) s

/-- COMMAND_RING_FETCH (R465, R470). -/
def execCommandRingFetch (pt : PortId) (p : Packet) (s : State) : Host.Outcome State Fault Refusal := act (ringFetched pt p) s

/-- REPLY_RING_HEAD (R470): a write of HW_RING_RHEAD through the ring range of a management port. -/
def execReplyRingHead (pt : PortId) (value : BitVec 32) (s : State) : Host.Outcome State Fault Refusal :=
  act (.look fun s => Prog.when (s.mgmt pt) (Prog.seq (dropHeld (.hostFn pt 0)) (ringCross pt (regSpec .ring .HW_RING_RHEAD) value.toNat))) s

/-- COMMAND_START (R466, R477): the next queued command starts, and room in the queue lets ring entries be fetched. -/
def execCommandStart (new : Bool) (s : State) : Host.Outcome State Fault Refusal := act (Prog.seq (cmdStart new) ringPumpAll) s

/-- ENTDAA (R469). -/
def execEntdaa (addr : BitVec 7) (s : State) : Host.Outcome State Fault Refusal :=
  quiet (Prog.hw fun h => { h with addr := some addr.toNat }) s

/-- SET_ENDPOINT_ID (R469). -/
def execSetEndpointId (eid : BitVec 8) (s : State) : Host.Outcome State Fault Refusal := quiet (setEid eid.toNat) s

/-- GET_ENDPOINT_ID (R469). -/
def execGetEndpointId (s : State) : Host.Outcome State Fault Refusal := quiet getEid s

/-- GET_MCTP_VERSION_SUPPORT (R469). -/
def execGetMctpVersionSupport (type : BitVec 8) (s : State) : Host.Outcome State Fault Refusal := quiet (getMctpVersion type.toNat) s

/-- GET_MESSAGE_TYPE_SUPPORT (R469). -/
def execGetMessageTypeSupport (s : State) : Host.Outcome State Fault Refusal := quiet getMctpTypes s

/-- GET_VENDOR_DEFINED_MESSAGE_SUPPORT (R469). -/
def execGetVendorDefinedMessageSupport (sel : BitVec 8) (s : State) : Host.Outcome State Fault Refusal := quiet (getVendorSupport sel.toNat) s

/-! ### SPDM (R484, R485) -/

/-- GET_VERSION (R259, R484). -/
def execGetVersion (r : SpdmAt) (s : State) : Host.Outcome State Fault Refusal := quiet (spdmVersion r) s

/-- GET_CAPABILITIES (R259, R484). -/
def execGetCapabilities (r : SpdmAt) (flags : BitVec 32) (s : State) : Host.Outcome State Fault Refusal := quiet (spdmCaps r flags.toNat) s

/-- NEGOTIATE_ALGORITHMS (R259, R484). -/
def execNegotiateAlgorithms (r : SpdmAt) (asym hash : BitVec 32) (s : State) : Host.Outcome State Fault Refusal :=
  quiet (spdmAlgs r asym.toNat hash.toNat) s

/-- GET_DIGESTS (R484). -/
def execGetDigests (r : SpdmAt) (s : State) : Host.Outcome State Fault Refusal := quiet (spdmDigests r) s

/-- GET_CERTIFICATE (R259, R484). -/
def execGetCertificate (r : SpdmAt) (slot : BitVec 8) (off len : BitVec 16) (s : State) : Host.Outcome State Fault Refusal :=
  quiet (spdmCert r slot.toNat off.toNat len.toNat) s

/-- CHALLENGE (R484). -/
def execChallenge (r : SpdmAt) (slot : BitVec 8) (nonce : BitVec 256) (summary : BitVec 8) (s : State) :
    Host.Outcome State Fault Refusal :=
  quiet (spdmChallenge r slot.toNat nonce summary.toNat) s

/-- GET_MEASUREMENTS (R484, R485). -/
def execGetMeasurements (r : SpdmAt) (op : BitVec 8) (sign : Bool) (slot : BitVec 8) (nonce : BitVec 256) (s : State) :
    Host.Outcome State Fault Refusal :=
  quiet (spdmMeasure r op.toNat sign slot.toNat nonce) s

/-! ### Images (R471-R481) -/

/-- FW_WRITE (R464, R473). -/
def execFwWrite (h : Hdr) (off : BitVec 32) (slot : BitVec 8) (data : List Byte) (s : State) : Host.Outcome State Fault Refusal :=
  act (asryn h (.fwWrite off slot data)) s

/-- FW_ACTIVATE (R476). -/
def execFwActivate (h : Hdr) (slot : BitVec 8) (s : State) : Host.Outcome State Fault Refusal := act (asryn h (.fwActivate slot)) s

/-- FIRMWARE_SLOT_VERIFIED (R472, R476). -/
def execFirmwareSlotVerified (f : Option Fw) (s : State) : Host.Outcome State Fault Refusal := act (slotVerified f) s

/-- ACTIVATION_POINT (R476). -/
def execActivationPoint (s : State) : Host.Outcome State Fault Refusal := act activationPoint s

/-- OLD_IMAGE_UNLOAD (R476, R477). -/
def execOldImageUnload (s : State) : Host.Outcome State Fault Refusal := act oldUnload s

/-- ACTIVATION_TIMEOUT (R478). -/
def execActivationTimeout (s : State) : Host.Outcome State Fault Refusal := act activationTimeout s

/-- FLASH_WRITE_DONE (R473). -/
def execFlashWriteDone (s : State) : Host.Outcome State Fault Refusal := act flashDone s

/-- UCODE_LOAD (R479). -/
def execUcodeLoad (h : Hdr) (s : State) : Host.Outcome State Fault Refusal := act (asryn h .ucodeLoad) s

/-- QUIESCE_DONE (R479). -/
def execQuiesceDone (e : Fin 8) (s : State) : Host.Outcome State Fault Refusal := act (quiesceDone e) s

/-- QUIESCE_ABANDON (R480). -/
def execQuiesceAbandon (e : Fin 8) (s : State) : Host.Outcome State Fault Refusal := act (quiesceAbandon e) s

/-- CFG_WRITE (R464, R481). -/
def execCfgWrite (h : Hdr) (off : BitVec 32) (slot : BitVec 8) (data : List Byte) (s : State) : Host.Outcome State Fault Refusal :=
  act (asryn h (.cfgWrite off slot data)) s

/-- CFG_COMMIT (R481). -/
def execCfgCommit (h : Hdr) (slot : BitVec 8) (s : State) : Host.Outcome State Fault Refusal := act (asryn h (.cfgCommit slot)) s

/-! ### Identity (R486, R487) -/

/-- UNIT_CERT_GET (R486). -/
def execUnitCertGet (h : Hdr) (off : BitVec 32) (s : State) : Host.Outcome State Fault Refusal := act (asryn h (.unitCertGet off)) s

/-- UNIT_SIGN (R487). -/
def execUnitSign (h : Hdr) (nonce : BitVec 256) (s : State) : Host.Outcome State Fault Refusal := act (asryn h (.unitSign nonce)) s

/-! ### Accesses by address, debug and factory test (R281, R321, R489-R492) -/

/-- CXLIO_MEMORY_REQUEST (R281). -/
def execCxlioMemoryRequest (pt : PortId) (fn : Fin 65) (bar2 write : Bool) (addr : BitVec 32) (lenM1 : Fin 4096) (value : BitVec 64)
    (tag : BitVec 10) (bi : Option Bool) (s : State) : Host.Outcome State Fault Refusal :=
  act (ioRequest { pt, fn, addr := addr.toNat, len := lenM1.val + 1, write, tag := tag.toNat, value := value.toNat } bar2 bi) s

/-- DEBUG_ACCESS (R321, R489). -/
def execDebugAccess (space : Fin 3) (write : Bool) (addr : BitVec 64) (len : Fin 4097) (data : List Byte) (s : State) :
    Host.Outcome State Fault Refusal :=
  act (dbgAccess space.val write addr.toNat len.val data) s

/-- DBGM_SELECT (R489). -/
def execDbgmSelect (sel : Bool) (s : State) : Host.Outcome State Fault Refusal := act (dbgSelect sel) s

/-- DEBUG_DISABLE (R489): a write of HW_DBG_CTL that sets DIS. -/
def execDebugDisable (m : Master) (s : State) : Host.Outcome State Fault Refusal := act (regWhole m .root .HW_DBG_CTL 0 1) s

/-- FTM_AUTH (R491, R492). -/
def execFtmAuth (ok : Bool) (s : State) : Host.Outcome State Fault Refusal := act (ftmAuth ok) s

end Sys2Proof.Machine
end

