-- ==== Sys2Proof/Machine/HostPorts.lean ====
section
/-!
DEFINITION. Machine/HostPorts.lean: the commands of groups, host ports and module ports (spec 09), but for CXL.io memory requests.
-/
namespace Sys2Proof.Machine

/-- GROUP_MODE_CHANGE (R14, R270, R271): a write of GRP_CFG. -/
def execGroupModeChange (m : Master) (g : Fin 64) (value : BitVec 32) (s : State) : Host.Outcome State Fault Refusal :=
  act (regWhole m (.group g) .GRP_CFG 0 value.toNat) s

/-- GROUP_PHY_OFF_DONE (R271, R451). -/
def execGroupPhyOffDone (g : Fin 64) (s : State) : Host.Outcome State Fault Refusal := act (phyOffDone g) s

/-- GROUP_POWER_UP_DONE (R271, R376, R452). -/
def execGroupPowerUpDone (g : Fin 64) (s : State) : Host.Outcome State Fault Refusal := act (powerUpDone g) s

/-- HOST_PORT_CONFIG_WRITE (R14, R279): a write of PRT_HCFG. -/
def execHostPortConfigWrite (m : Master) (pt : PortId) (value : BitVec 32) (s : State) : Host.Outcome State Fault Refusal :=
  act (regWhole m (.port pt) .PRT_HCFG 0 value.toNat) s

/-- MODULE_PORT_CONFIG_WRITE (R14, R25, R289): a write of PRT_MCFG. -/
def execModulePortConfigWrite (m : Master) (pt : PortId) (value : BitVec 32) (s : State) : Host.Outcome State Fault Refusal :=
  act (regWhole m (.port pt) .PRT_MCFG 0 value.toNat) s

/-- HDM_DECODER_COMMIT (R41, R275). -/
def execHdmDecoderCommit (pt : PortId) (n : Fin 16) (base : BitVec 52) (size : BitVec 53) (ways : Fin 17) (s : State) :
    Host.Outcome State Fault Refusal := act (hdmCommit pt n.val base.toNat size.toNat ways.val) s

/-- HDM_DECODER_DECOMMIT (R44, R275). -/
def execHdmDecoderDecommit (pt : PortId) (n : Fin 16) (s : State) : Host.Outcome State Fault Refusal := act (hdmDecommit pt n.val) s

/-- CDAT_READ (R276). -/
def execCdatRead (pt : PortId) (s : State) : Host.Outcome State Fault Refusal := quiet (cdatRead pt) s

/-- IDENTIFY_MEMORY_DEVICE (R280): volatile and persistent capacity. -/
def execIdentifyMemoryDevice (pt : PortId) (s : State) : Host.Outcome State Fault Refusal := quiet (mailboxRun pt 0x4000 []) s

/-- GET_PARTITION_INFO (R280): the active volatile and persistent capacity. -/
def execGetPartitionInfo (pt : PortId) (s : State) : Host.Outcome State Fault Refusal := quiet (mailboxRun pt 0x4100 []) s

/-- GET_SUPPORTED_LOGS (R280): one log, the Command Effects Log, and its size at 4 bytes an entry. -/
def execGetSupportedLogs (pt : PortId) (s : State) : Host.Outcome State Fault Refusal := quiet (mailboxRun pt 0x0400 []) s

/-- GET_LOG (R280): the opcodes of the Command Effects Log; any other log is not supported. -/
def execGetLog (pt : PortId) (effects : Bool) (s : State) : Host.Outcome State Fault Refusal :=
  quiet (mailboxRun pt 0x0401 (if effects then effectsLog else [])) s

/-- GET_EVENT_RECORDS (R280): handle, event and ARG of each record. -/
def execGetEventRecords (pt : PortId) (s : State) : Host.Outcome State Fault Refusal := quiet (mailboxRun pt 0x0100 []) s

/-- CLEAR_EVENT_RECORDS (R280). -/
def execClearEventRecords (pt : PortId) (handles : List Nat) (s : State) : Host.Outcome State Fault Refusal :=
  quiet (clearRecords pt handles) s

/-- GET_HEALTH_INFO (R33, R280): the device's fault summary. -/
def execGetHealthInfo (pt : PortId) (s : State) : Host.Outcome State Fault Refusal := quiet (mailboxRun pt 0x4200 []) s

/-- GET_POISON_LIST (R280). -/
def execGetPoisonList (pt : PortId) (s : State) : Host.Outcome State Fault Refusal := quiet (mailboxRun pt 0x4300 []) s

/-- HOST_LINK_UP (R273, R373). -/
def execHostLinkUp (pt : PortId) (cxl : Bool) (rate : Fin 7) (width : Fin 9) (flit : Fin 3) (tx : List LaneTx) (rx : List LaneRx)
    (s : State) : Host.Outcome State Fault Refusal := act (hostLinkUp pt cxl rate.val width.val flit.val tx rx) s

/-- BME_CLEAR (R283, R284). -/
def execBmeClear (pt : PortId) (fn : Fin 65) (s : State) : Host.Outcome State Fault Refusal := act (bmeClear pt fn.val) s

/-- BME_SET (R283, R284). -/
def execBmeSet (pt : PortId) (fn : Fin 65) (s : State) : Host.Outcome State Fault Refusal := act (Prog.seq (bmeSet pt fn.val) (ringPump pt)) s

/-- BME_HOLD_EXPIRY (R239, R285). -/
def execBmeHoldExpiry (pt : PortId) (fn : Fin 65) (s : State) : Host.Outcome State Fault Refusal := act (bmeExpiry pt fn.val) s

/-- PORT_RESET (R286, R287). -/
def execPortReset (pt : PortId) (cause : PortResetCause) (s : State) : Host.Outcome State Fault Refusal := act (portReset pt cause) s

/-- PORT_RESET_COMPLETE (R287). -/
def execPortResetComplete (pt : PortId) (s : State) : Host.Outcome State Fault Refusal := act (portResetDone pt) s

/-- PERST_RELEASE (R286, R287). -/
def execPerstRelease (c : PortRelease) (s : State) : Host.Outcome State Fault Refusal := act (portRelease c) s

/-- CONFIGURATION_REQUEST (R274, R287). -/
def execConfigurationRequest (pt : PortId) (fn : Fin 65) (off : BitVec 12) (write : Option (BitVec 32)) (s : State) :
    Host.Outcome State Fault Refusal := quiet (configRequest pt fn.val off.toNat (write.map BitVec.toNat)) s

/-- MODULE_ENUMERATION_START (R290). -/
def execModuleEnumerationStart (pt : PortId) (s : State) : Host.Outcome State Fault Refusal := act (enumStart pt) s

/-- MODULE_LINK_TRAINED (R273, R290). -/
def execModuleLinkTrained (pt : PortId) (l : LinkCxl) (rate : Fin 7) (width : Fin 9) (classOk : Bool) (tx : List LaneTx) (rx : List LaneRx)
    (s : State) : Host.Outcome State Fault Refusal := act (moduleTrained pt l rate.val width.val classOk tx rx) s

/-- MEMORY_ACTIVE (R290). -/
def execMemoryActive (pt : PortId) (s : State) : Host.Outcome State Fault Refusal := act (memoryActive pt) s

/-- MODULE_MAILBOX_RESPONSE (R290, R292). -/
def execModuleMailboxResponse (pt : PortId) (capacity : BitVec 64) (commit : Bool) (data : List Nat) (s : State) :
    Host.Outcome State Fault Refusal := act (mailboxResponse pt capacity.toNat commit data) s

/-- ENUMERATION_TIMEOUT (R290). -/
def execEnumerationTimeout (pt : PortId) (s : State) : Host.Outcome State Fault Refusal := act (enumTimeout pt) s

/-- EVENT_POLL (R291). -/
def execEventPoll (pt : PortId) (records : List (Nat × Nat)) (s : State) : Host.Outcome State Fault Refusal := act (eventPoll pt records) s

/-- MODULE_FATAL_ERROR (R291). -/
def execModuleFatalError (pt : PortId) (s : State) : Host.Outcome State Fault Refusal := act (moduleFatal pt) s

/-- The link of a module port goes down, or its slot reports removal (R127, R292): lost paths, and the port is EMPTY. -/
def moduleLinkDown (pt : PortId) : Prog := .look fun s =>
  Prog.when (s.portExists pt && s.mode pt.g == .m && s.fld (.port pt) F.PRT_MSTAT_STATE != 0 && !s.isContained pt) (moduleDown pt 0)

/-- MODULE_LINK_DOWN (R292). -/
def execModuleLinkDown (pt : PortId) (s : State) : Host.Outcome State Fault Refusal := act (moduleLinkDown pt) s

/-- MOD_MBOX (R292). -/
def execModMbox (h : Hdr) (opcode : BitVec 16) (data : List Nat) (s : State) : Host.Outcome State Fault Refusal :=
  act (asryn h (.modMbox opcode data)) s

end Sys2Proof.Machine
end

