-- ==== Sys2Proof/Machine/Instances.lean ====
section
/-!
DEFINITION. Machine/Instances.lean: the commands of instances: VF enable, mailboxes, freezing, images, resets, and the Levee's rules (spec 10).
-/
namespace Sys2Proof.Machine

/-- VF_ENABLE_CHANGE (R294): the number of VFs in effect, 0 while VF Enable is 0. -/
def execVfEnableChange (pt : PortId) (n : Fin 65) (s : State) : Host.Outcome State Fault Refusal :=
  act (.look fun s => Prog.when (s.portExists pt && s.mode pt.g == .h) (vfEnable pt n.val)) s

/-- FUNCTION_LEVEL_RESET (R312, R313). -/
def execFunctionLevelReset (pt : PortId) (fn : Fin 65) (s : State) : Host.Outcome State Fault Refusal :=
  act (.look fun s => Prog.when (s.portExists pt && s.mode pt.g == .h)
    (Prog.opt (s.vfInst pt fn.val) fun i => Prog.when (s.instEnabled i) (insResetStart i))) s

/-- MAILBOX_SLOT_WRITE (R299). -/
def execMailboxSlotWrite (m : Master) (i : Fin 1024) (h2m : Bool) (j : Fin 64) (value : BitVec 32) (s : State) :
    Host.Outcome State Fault Refusal :=
  act (regWhole m (.inst i) (if h2m then .INS_MBX_H2M else .INS_MBX_M2H) j.val value.toNat) s

/-- H2M_FULL_SET (R299, R300). -/
def execH2mFullSet (m : Master) (i : Fin 1024) (s : State) : Host.Outcome State Fault Refusal :=
  act (Prog.seq (dropHeld m) (h2mSet m i)) s

/-- H2M_FULL_CLEAR (R299, R300). -/
def execH2mFullClear (m : Master) (i : Fin 1024) (s : State) : Host.Outcome State Fault Refusal :=
  act (Prog.seq (dropHeld m) (h2mClear m i)) s

/-- M2H_FULL_SET (R299, R300). -/
def execM2hFullSet (m : Master) (i : Fin 1024) (s : State) : Host.Outcome State Fault Refusal :=
  act (Prog.seq (dropHeld m) (m2hSet m i)) s

/-- M2H_FULL_CLEAR (R299). -/
def execM2hFullClear (m : Master) (i : Fin 1024) (s : State) : Host.Outcome State Fault Refusal :=
  act (Prog.seq (dropHeld m) (m2hClear m i)) s

/-- INS_FREEZE (R303). -/
def execInsFreeze (h : Hdr) (s : State) : Host.Outcome State Fault Refusal := act (asryn h .insFreeze) s

/-- FREEZE_DRAIN_END (R303). -/
def execFreezeDrainEnd (i : Fin 1024) (s : State) : Host.Outcome State Fault Refusal := act (freezeEnd i) s

/-- FREEZE_DRAIN_TIMEOUT (R303). -/
def execFreezeDrainTimeout (i : Fin 1024) (s : State) : Host.Outcome State Fault Refusal := act (freezeTimeout i) s

/-- INS_SAVE (R304-R307). -/
def execInsSave (h : Hdr) (buf : ImgBuf) (len : BitVec 32) (s : State) : Host.Outcome State Fault Refusal := act (asryn h (.insSave buf len)) s

/-- INS_RESTORE (R302, R305-R308): with what the reads of the named buffer bring. -/
def execInsRestore (h : Hdr) (src : Option (Fin 1024)) (image : ImgRead) (s : State) : Host.Outcome State Fault Refusal :=
  act (asryn h (.insRestore src image)) s

/-- INS_THAW (R302). -/
def execInsThaw (h : Hdr) (s : State) : Host.Outcome State Fault Refusal := act (asryn h .insThaw) s

/-- INS_DISCARD (R302). -/
def execInsDiscard (h : Hdr) (s : State) : Host.Outcome State Fault Refusal := act (asryn h .insDiscard) s

/-- FLOW_REPOINT (R302). -/
def execFlowRepoint (h : Hdr) (f : Fin 16384) (sw : Fin 16) (peer : Fin 16384) (s : State) : Host.Outcome State Fault Refusal :=
  act (asryn h (.flowRepoint f sw peer)) s

/-- INS_RESET (R312, R313). -/
def execInsReset (h : Hdr) (s : State) : Host.Outcome State Fault Refusal := act (asryn h .insReset) s

/-- INSTANCE_RESET_SQUASH (R313 step 3). -/
def execInstanceResetSquash (i : Fin 1024) (s : State) : Host.Outcome State Fault Refusal := act (insSquash i) s

/-- INSTANCE_RESET_COMPLETE (R313 steps 4, 5). -/
def execInstanceResetComplete (i : Fin 1024) (s : State) : Host.Outcome State Fault Refusal := act (insResetDone i) s

/-- LEVEE_RULE_RANGE_WRITE (R320): a write of a rule's BASE or LIMIT. -/
def execLeveeRuleRangeWrite (m : Master) (n : Fin 4096) (limit : Bool) (value : BitVec 64) (s : State) :
    Host.Outcome State Fault Refusal :=
  act (regWhole m .root (if limit then .LEV_RULE_LIMIT else .LEV_RULE_BASE) n.val value.toNat) s

/-- LEVEE_RULE_CTL_WRITE (R14, R320). -/
def execLeveeRuleCtlWrite (m : Master) (n : Fin 4096) (value : BitVec 64) (s : State) : Host.Outcome State Fault Refusal :=
  act (regWhole m .root .LEV_RULE_CTL n.val value.toNat) s

/-- LEVEE_RULE_LOCK (R320): a write of a rule's CTL with LOCK set. -/
def execLeveeRuleLock (m : Master) (n : Fin 4096) (value : BitVec 63) (s : State) : Host.Outcome State Fault Refusal :=
  act (regWhole m .root .LEV_RULE_CTL n.val (value.toNat + 2 ^ 63)) s

end Sys2Proof.Machine
end

