-- ==== Sys2Proof/Machine/Lanes.lean ====
section
/-!
DEFINITION. Machine/Lanes.lean: the commands of the lanes: markers and alignment, training, link tests, margins, equalization and calibration
(spec 12).
-/
namespace Sys2Proof.Machine

/-- LANE_ALIGNMENT_LOSS (R350, R368). -/
def execLaneAlignmentLoss (ln : LaneId) (s : State) : Host.Outcome State Fault Refusal := act (laneAlignLoss ln) s

/-- ALIGNMENT_MARKER (R358-R362, R366, R368, R370, R374, R376). -/
def execAlignmentMarker (ln : LaneId) (symbols : BitVec 128) (frame : List (Fin 4)) (vref : Vrefs) (taps : BitVec 64) (move : Fin 3)
    (s : State) : Host.Outcome State Fault Refusal := act (markerArrive ln symbols frame vref taps move.val) s

/-- TRAIN_START (R364). -/
def execTrainStart (g : Fin 64) (s : State) : Host.Outcome State Fault Refusal := act (trainStart g) s

/-- FCI_LOCK (R354, R364). -/
def execFciLock (g : Fin 64) (code : Fin 4) (s : State) : Host.Outcome State Fault Refusal := act (fciLock g code.val) s

/-- PHASE_SWEEP_DONE (R364). -/
def execPhaseSweepDone (g : Fin 64) (codes : List (Fin 64)) (s : State) : Host.Outcome State Fault Refusal := act (sweepDone g codes) s

/-- LANE_DESKEW_DONE (R364, R367). -/
def execLaneDeskewDone (g : Fin 64) (s : State) : Host.Outcome State Fault Refusal := act (deskewDone g) s

/-- PRESET_HOLD_EXPIRY (R366, R367). -/
def execPresetHoldExpiry (ln : LaneId) (hold : PresetHold) (s : State) : Host.Outcome State Fault Refusal := act (presetHold ln hold) s

/-- TRAIN_DONE (R364, R365, R374). -/
def execTrainDone (g : Fin 64) (fits : List LaneFit) (s : State) : Host.Outcome State Fault Refusal := act (trainDone g fits) s

/-- TRAIN_TIMEOUT (R364). -/
def execTrainTimeout (g : Fin 64) (s : State) : Host.Outcome State Fault Refusal := act (trainTimeout g) s

/-- TRAIN_RETRY (R364): the next attempt. -/
def execTrainRetry (g : Fin 64) (s : State) : Host.Outcome State Fault Refusal := act (trainStart g) s

/-- FCI_LOSS (R368). -/
def execFciLoss (g : Fin 64) (s : State) : Host.Outcome State Fault Refusal := act (fciLoss g) s

/-- LINK_TEST (R370): a write of GRP_LTEST. -/
def execLinkTest (m : Master) (g : Fin 64) (value : BitVec 32) (s : State) : Host.Outcome State Fault Refusal :=
  act (regWhole m (.group g) .GRP_LTEST 0 value.toNat) s

/-- LINK_TEST_END (R370). -/
def execLinkTestEnd (g : Fin 64) (s : State) : Host.Outcome State Fault Refusal := act (linkTestEnd g) s

/-- MARGIN_MEASUREMENT (R377): a write of LN_MRG_CTL. -/
def execMarginMeasurement (m : Master) (ln : LaneId) (value : BitVec 32) (s : State) : Host.Outcome State Fault Refusal :=
  act (regWhole m (.lane ln) .LN_MRG_CTL 0 value.toNat) s

/-- MARGIN_MEASUREMENT_DONE (R377). -/
def execMarginMeasurementDone (ln : LaneId) (errs : BitVec 48) (s : State) : Host.Outcome State Fault Refusal :=
  act (marginDone ln errs.toNat) s

/-- TX_EQ_WRITE (R371-R373): a write of LN_TXEQ. -/
def execTxEqWrite (m : Master) (ln : LaneId) (value : BitVec 32) (s : State) : Host.Outcome State Fault Refusal :=
  act (regWhole m (.lane ln) .LN_TXEQ 0 value.toNat) s

/-- USER_CALIBRATION_WRITE (R375, R376): a write of LN_CAL_USR. -/
def execUserCalibrationWrite (m : Master) (ln : LaneId) (value : BitVec 64) (s : State) : Host.Outcome State Fault Refusal :=
  act (regWhole m (.lane ln) .LN_CAL_USR 0 value.toNat) s

/-- LANE_MARGINING_COMMAND (R378). -/
def execLaneMarginingCommand (ln : LaneId) (active : Bool) (s : State) : Host.Outcome State Fault Refusal := act (laneMargining ln active) s

end Sys2Proof.Machine
end

