-- ==== Sys2Proof/Machine/Millrace.lean ====
section
/-!
DEFINITION. Machine/Millrace.lean: the commands of Millrace: flows and regions, doorbells, descriptors, and the packets between engines (spec 07).
-/
namespace Sys2Proof.Machine

/-- What an engine of Millrace does for a flow, while the engine is not fenced (R434). -/
def millOn (f : Nat) (p : Prog) : Prog := .look fun s => Prog.when (!s.isFenced (flowUnit f)) p

/-- What an engine of Millrace does for a work item. -/
def millItem (id : Nat) (p : Prog) : Prog := .look fun s => Prog.opt (Tab.get? s.dev.mill.items id) fun it => millOn it.flow p

/-- A packet of a type reaches the engine of its flow. -/
def millIn (t : MType) (p : MIn) (k : MIn → Prog) : Prog := millOn p.hdr.dstFlow.val (k { p with hdr := { p.hdr with type := t } })

/-- FLOW_CREATE (R201, R298). -/
def execFlowCreate (h : Hdr) (f : Fin 16384) (i : Fin 1024) (slot : BitVec 16) (peerSw : Fin 16) (peerFlow : Fin 16384)
    (gen : BitVec 8) (s : State) : Host.Outcome State Fault Refusal := act (asryn h (.flowCreate f i slot peerSw peerFlow gen)) s

/-- FLOW_DESTROY (R201). -/
def execFlowDestroy (h : Hdr) (f : Fin 16384) (s : State) : Host.Outcome State Fault Refusal := act (asryn h (.flowDestroy f)) s

/-- EQ_SETUP (R204-R206): a write of MRC_ICMD_CTL.OPC with 1; the operands stand in MRC_ICMD_DATA. -/
def execEqSetup (m : Master) (i : Fin 1024) (s : State) : Host.Outcome State Fault Refusal :=
  act (regWhole m (.inst i) .MRC_ICMD_CTL 0 1) s

/-- FLOW_SETUP (R204-R206): OPC 2. -/
def execFlowSetup (m : Master) (i : Fin 1024) (s : State) : Host.Outcome State Fault Refusal :=
  act (regWhole m (.inst i) .MRC_ICMD_CTL 0 2) s

/-- REGION_REGISTER (R204, R205, R214, R215): OPC 3. -/
def execRegionRegister (m : Master) (i : Fin 1024) (s : State) : Host.Outcome State Fault Refusal :=
  act (regWhole m (.inst i) .MRC_ICMD_CTL 0 3) s

/-- INSTANCE_REGION_REVOKE (R204, R205, R237): OPC 4. -/
def execInstanceRegionRevoke (m : Master) (i : Fin 1024) (s : State) : Host.Outcome State Fault Refusal :=
  act (regWhole m (.inst i) .MRC_ICMD_CTL 0 4) s

/-- REGION_QUERY (R204, R205): OPC 5. -/
def execRegionQuery (m : Master) (i : Fin 1024) (s : State) : Host.Outcome State Fault Refusal :=
  act (regWhole m (.inst i) .MRC_ICMD_CTL 0 5) s

/-- REGION_REVOKE (R237). -/
def execRegionRevoke (h : Hdr) (key : BitVec 32) (s : State) : Host.Outcome State Fault Refusal := act (asryn h (.regionRevoke key)) s

/-- REVOKE_DONE (R237). -/
def execRevokeDone (ix : BitVec 24) (s : State) : Host.Outcome State Fault Refusal := act (revokeDone ix.toNat) s

/-- SQ_DOORBELL (R207, R240). -/
def execSqDoorbell (m : Master) (i slot : Fin 1024) (value : BitVec 32) (s : State) : Host.Outcome State Fault Refusal :=
  act (regWhole m (.inst i) .MRC_SQ_DB slot.val value.toNat) s

/-- CQ_DOORBELL (R207, R240). -/
def execCqDoorbell (m : Master) (i slot : Fin 1024) (value : BitVec 32) (s : State) : Host.Outcome State Fault Refusal :=
  act (regWhole m (.inst i) .MRC_CQ_DB slot.val value.toNat) s

/-- EQ_DOORBELL (R242). -/
def execEqDoorbell (m : Master) (i : Fin 1024) (value : BitVec 32) (s : State) : Host.Outcome State Fault Refusal :=
  act (regWhole m (.inst i) .MRC_EQ_DB 0 value.toNat) s

/-- DESCRIPTOR_FETCHED (R208-R211, R240): the 64 bytes, or none where the fetch failed. -/
def execDescriptorFetched (item : Nat) (bytes : Option (List Byte)) (s : State) : Host.Outcome State Fault Refusal :=
  act (millItem item (descArrive item bytes)) s

/-- LOCAL_READ_COMPLETE (R218). -/
def execLocalReadComplete (item : Nat) (bytes : Option (List Byte)) (s : State) : Host.Outcome State Fault Refusal :=
  act (millItem item (sourceArrive item bytes)) s

/-- WDATA (R203, R221-R223). -/
def execWdata (p : MIn) (data : List Byte) (s : State) : Host.Outcome State Fault Refusal :=
  act (millIn .wdata p fun q => placeStart q data) s

/-- RREQ (R203, R221, R232). -/
def execRreq (p : MIn) (s : State) : Host.Outcome State Fault Refusal := act (millIn .rreq p readStart) s

/-- RREQ_READ_COMPLETE (R232). -/
def execRreqReadComplete (item : Nat) (stat : Fin 9) (data : List Byte) (s : State) : Host.Outcome State Fault Refusal :=
  act (millItem item (readDone item stat.val data)) s

/-- ATOMIC (R203, R221, R233). -/
def execAtomic (p : MIn) (op : AtomOp) (s : State) : Host.Outcome State Fault Refusal :=
  act (millIn .atomic p fun q => atomicStart q op) s

/-- ATOMIC_RESULT (R233). -/
def execAtomicResult (item : Nat) (code : Fin 7) (old : BitVec 64) (s : State) : Host.Outcome State Fault Refusal :=
  act (millItem item (atomicDone item code.val old)) s

/-- PLACEMENT_COMPLETE (R223). -/
def execPlacementComplete (item : Nat) (s : State) : Host.Outcome State Fault Refusal := act (millItem item (placeDone item 0)) s

/-- ACK_DELAY_EXPIRY (R225). -/
def execAckDelayExpiry (f : Fin 16384) (s : State) : Host.Outcome State Fault Refusal :=
  act (millOn f.val (.look fun s => Prog.when ((s.flow? f.val).any fun w => w.ackDue) (ackSend f.val []))) s

/-- ACK (R203, R224, R226, R230, R231). -/
def execAck (p : MIn) (cum start : BitVec 24) (sack : BitVec 256) (trans rejs : List (Nat × Nat)) (more : Bool) (s : State) :
    Host.Outcome State Fault Refusal :=
  act (millIn .ack p fun q => millOpen q fun _ =>
    ackTake p.hdr.dstFlow.val cum.toNat start.toNat sack trans rejs more) s

/-- RDATA (R232). -/
def execRdata (p : MIn) (data : List Byte) (s : State) : Host.Outcome State Fault Refusal :=
  act (millIn .rdata p fun q => rdataTake q data) s

/-- ARSP (R233). -/
def execArsp (p : MIn) (s : State) : Host.Outcome State Fault Refusal := act (millIn .arsp p arspTake) s

/-- TRIM (R230). -/
def execTrim (p : MIn) (s : State) : Host.Outcome State Fault Refusal := act (millIn .trim p trimTake) s

/-- RTO_EXPIRY (R229, R238). -/
def execRtoExpiry (f : Fin 16384) (seq : BitVec 24) (s : State) : Host.Outcome State Fault Refusal :=
  act (millOn f.val (rtoExpiry f.val seq.toNat)) s

/-- A packet that met RETRY, where the flow end keeps one under a sequence number (R231). -/
def rnrPkt (f seq : Nat) (k : MPkt → Prog) : Prog := .look fun s => Prog.opt (s.flow? f) fun w =>
  Prog.opt (w.pkts.find? fun p => p.seq == seq && p.rnrSince.isSome) k

/-- RNR_RESEND (R231). -/
def execRnrResend (f : Fin 16384) (seq : BitVec 24) (s : State) : Host.Outcome State Fault Refusal :=
  act (millOn f.val (rnrPkt f.val seq.toNat fun p => resend f.val p.seq p.blocks)) s

/-- RNR_TIMEOUT (R231, R240). -/
def execRnrTimeout (f : Fin 16384) (seq : BitVec 24) (s : State) : Host.Outcome State Fault Refusal :=
  act (millOn f.val (rnrPkt f.val seq.toNat fun p => Prog.seq (pktEnd f.val p 0x0C 0) (flowError f.val 0x0C (causeSn p.sn 0x0C)))) s

/-- ABORT (R240). -/
def execAbort (p : MIn) (s : State) : Host.Outcome State Fault Refusal :=
  act (millIn .abort p abortTake) s

/-- PATH_RECOVERY_TIMEOUT (R238). -/
def execPathRecoveryTimeout (f : Fin 16384) (s : State) : Host.Outcome State Fault Refusal := act (millOn f.val (pathRecovery f.val)) s

end Sys2Proof.Machine
end

