-- ==== Sys2Proof/Machine/Mover.lean ====
section
/-!
DEFINITION. Machine/Mover.lean: the commands of the data mover (spec 03).
-/
namespace Sys2Proof.Machine

/-- MOVE_PASS_COMPLETE (R83). -/
def execMovePassComplete (t : Fin 65536) (s : State) : Host.Outcome State Fault Refusal := act (movPass t.val) s

/-- COPY_READ_COMPLETE (R82, R95, R150): what the source's module sent, and the flipped bits of a line held in the Reservoir. -/
def execCopyReadComplete (t : Fin 65536) (line : Fin 32768) (data : Line) (came : LineIn) (s : State) :
    Host.Outcome State Fault Refusal := act (movRead t.val line.val data came.poison came.flips) s

/-- DATA_MOVER_PAUSE (R84): a write of DEV_MOV_CTL. -/
def execDataMoverPause (m : Master) (value : BitVec 32) (s : State) : Host.Outcome State Fault Refusal :=
  act (regWhole m .root .DEV_MOV_CTL 0 value.toNat) s

/-- MOVE_QUERY (R85). -/
def execMoveQuery (h : Hdr) (t : Fin 65536) (s : State) : Host.Outcome State Fault Refusal :=
  act (asryn h (.moveQuery t)) s

/-- HOLD_START (R86). -/
def execHoldStart (s : State) : Host.Outcome State Fault Refusal := act holdStart s

/-- HOLD_SOURCE_DRAIN_DONE (R87 step 2). -/
def execHoldSourceDrainDone (s : State) : Host.Outcome State Fault Refusal := act holdDrained s

/-- FLIP (R87, R89). -/
def execFlip (s : State) : Host.Outcome State Fault Refusal := act flip s

/-- HOLD_ABORT (R88). -/
def execHoldAbort (s : State) : Host.Outcome State Fault Refusal := act holdAbort s

/-- DM_COPY (R463): a background copy of a module address range, which the device neither tracks nor checks against the map. -/
def execDmCopy (h : Hdr) (src dst : PortId) (sdpa ddpa len : BitVec 42) (s : State) : Host.Outcome State Fault Refusal :=
  act (asryn h (.dmCopy src dst sdpa ddpa len)) s

/-- DM_COPY_DONE (R463). -/
def execDmCopyDone (s : State) : Host.Outcome State Fault Refusal :=
  act (bgFinish 0x0104 none fun b => reply b.hdr stOk []) s

end Sys2Proof.Machine
end

