-- ==== Sys2Proof/Machine/PowerReset.lean ====
section
/-!
DEFINITION. Machine/PowerReset.lean: the commands of power and reset: rails, the core clock, temperatures, group power, and the resets (spec 16).
-/
namespace Sys2Proof.Machine

/-- POWER_ON_RESET_RELEASE (R444). -/
def execPowerOnResetRelease (s : State) : Host.Outcome State Fault Refusal := act porRelease s

/-- PWROK_RISE (R444, R473, R522): the straps, the reference clocks that are good, and what verification finds in the active and the other firmware slot. -/
def execPwrokRise (pmode : Fin 4) (pid refclk : Fin 16) (active other : Option Fw) (s : State) : Host.Outcome State Fault Refusal :=
  act (pwrokRise Dev.cold pmode.val pid.val refclk.val active other) s

/-- PWROK_FALL (R444). -/
def execPwrokFall (s : State) : Host.Outcome State Fault Refusal := act pwrokFall s

/-- BOOT_COMPLETE (R444, R454, R481): `ident` says whether the derivation of keys succeeded. -/
def execBootComplete (ident : Bool) (s : State) : Host.Outcome State Fault Refusal := act (Prog.seq (bootComplete ident) ringPumpAll) s

/-- RAIL_WARNING (R445): the rails that a sample finds below their warning level. -/
def execRailWarning (below : BitVec 12) (s : State) : Host.Outcome State Fault Refusal := act (railSample below.toNat) s

/-- RAIL_FAULT (R445). -/
def execRailFault (r : Fin 12) (s : State) : Host.Outcome State Fault Refusal := act (railFault r.val) s

/-- VIN_SLOT_FAULT (R405, R445): `lost` are the channels whose VOUT falls below PG_THR with it. -/
def execVinSlotFault (lost : List (Fin 64)) (s : State) : Host.Outcome State Fault Refusal := act (vinFault lost) s

/-- AUX_RAIL_FAULT (R445). -/
def execAuxRailFault (s : State) : Host.Outcome State Fault Refusal := act auxRailFault s

/-- DROOP (R446). -/
def execDroop (d : DroopRead) (s : State) : Host.Outcome State Fault Refusal := act (droop d.sensor.val d.sram) s

/-- DROOP_HOLD_START (R446). -/
def execDroopHoldStart (s : State) : Host.Outcome State Fault Refusal := act droopHold s

/-- DROOP_STEP_UP (R446). -/
def execDroopStepUp (s : State) : Host.Outcome State Fault Refusal := act droopStep s

/-- POWER_CAP_ADJUST (R447). -/
def execPowerCapAdjust (average : BitVec 16) (s : State) : Host.Outcome State Fault Refusal := act (capAdjust average.toNat) s

/-- TEMPERATURE_WARN (R448): a sensor, 0-15 switch die, 16-19 stacks, 20 slot die, and its reading in 0.1 °C. -/
def execTemperatureWarn (n : Fin 21) (t : Int) (s : State) : Host.Outcome State Fault Refusal := act (tempWarn n.val t) s

/-- THERMAL_THROTTLE (R448). -/
def execThermalThrottle (n : Fin 21) (t : Int) (s : State) : Host.Outcome State Fault Refusal := act (tempThrottle n.val t) s

/-- THROTTLE_RELEASE (R448). -/
def execThrottleRelease (n : Fin 21) (t : Int) (s : State) : Host.Outcome State Fault Refusal := act (throttleRelease n.val t) s

/-- THERMAL_TRIP (R448). -/
def execThermalTrip (n : Fin 21) (t : Int) (s : State) : Host.Outcome State Fault Refusal := act (tempTrip n.val t) s

/-- GROUP_POWER_OFF (R451): a write of GRP_PWR with OFF 1. -/
def execGroupPowerOff (m : Master) (g : Fin 64) (s : State) : Host.Outcome State Fault Refusal := act (regWhole m (.group g) .GRP_PWR 0 1) s

/-- GROUP_POWER_ON (R451): a write of GRP_PWR with OFF 0. -/
def execGroupPowerOn (m : Master) (g : Fin 64) (s : State) : Host.Outcome State Fault Refusal := act (regWhole m (.group g) .GRP_PWR 0 0) s

/-- RESET_L_ASSERT (R427, R453, R454). -/
def execResetLAssert (s : State) : Host.Outcome State Fault Refusal := act resetAssert s

/-- RESET_L_RELEASE (R454). -/
def execResetLRelease (active other : Option Fw) (s : State) : Host.Outcome State Fault Refusal := act (resetRelease active other) s

/-- WARM_RESET_DRAIN_DONE (R454). -/
def execWarmResetDrainDone (active other : Option Fw) (s : State) : Host.Outcome State Fault Refusal := act (warmDrained active other) s

/-- DEV_RST_CMD_WARM (R456): a write of DEV_RST_CMD with KIND 1. -/
def execDevRstCmdWarm (m : Master) (key : BitVec 16) (s : State) : Host.Outcome State Fault Refusal :=
  act (regWhole m .root .DEV_RST_CMD 0 (key.toNat * 2 ^ 16 + 1)) s

/-- DEV_RST_CMD_RESTART (R456): a write of DEV_RST_CMD with KIND 2. -/
def execDevRstCmdRestart (m : Master) (key : BitVec 16) (s : State) : Host.Outcome State Fault Refusal :=
  act (regWhole m .root .DEV_RST_CMD 0 (key.toNat * 2 ^ 16 + 2)) s

/-- DEV_RESET (R454). -/
def execDevReset (h : Hdr) (s : State) : Host.Outcome State Fault Refusal := act (asryn h .devReset) s

/-- HW_RESTART (R454, R474). -/
def execHwRestart (h : Hdr) (s : State) : Host.Outcome State Fault Refusal := act (asryn h .hwRestart) s

/-- HEADWATER_READY (R474). -/
def execHeadwaterReady (s : State) : Host.Outcome State Fault Refusal := act (Prog.seq fwReady ringPumpAll) s

/-- UNIT_RESET (R453, R552). -/
def execUnitReset (h : Hdr) (s : State) : Host.Outcome State Fault Refusal := act (asryn h .unitReset) s

end Sys2Proof.Machine
end

