-- ==== Sys2Proof/Machine/RegisterFile.lean ====
section
/-!
DEFINITION. Machine/RegisterFile.lean: the commands of the register path: the writes and reads of registers that have no row of their own (R9-R11).
-/
namespace Sys2Proof.Machine

/-- The part of a register an access at an offset names: the low half of a narrow register is all of it, and its high half does not exist. -/
def partAt (r : RegSpec) : RegPart → Option RegPart
  | .whole => some .whole
  | .low => some (if r.wide then .low else .whole)
  | .high => if r.wide then some .high else none

/-- REGISTER_WRITE (R9, R11, R14): a write of the register that stands at an offset of a unit's block, or of a half of it; the key store and
the OTP take none (R490), and where no register stands the write is dropped. -/
def execRegisterWrite (m : Master) (u : UnitId) (off : Nat) (part : RegPart) (value : BitVec 64) (s : State) :
    Host.Outcome State Fault Refusal :=
  act (.look fun s => match s.regAt u off with
    | some (.reg r n 0) => Prog.opt (partAt r part) fun p => regWrite m u r n p value.toNat
    | _ => .skip) s

/-- LOW_HALF_READ (R9, R11, R499): a read of the low half of a 64-bit register; the high half is latched for the master. -/
def execLowHalfRead (m : Master) (u : UnitId) (off : Nat) (s : State) : Host.Outcome State Fault Refusal :=
  quiet (.look fun s => match s.regAt u off with
    | some (.reg r n 0) => if r.wide then regRead m u r n .low fun v => Prog.send (.regValue m v) else .skip
    | _ => .skip) s

/-- RC_FIELD_READ (R11, R12): a read of a register with a field that clears when read. -/
def execRcFieldRead (m : Master) (u : UnitId) (off : Nat) (part : RegPart) (s : State) : Host.Outcome State Fault Refusal :=
  quiet (.look fun s => match s.regAt u off with
    | some (.reg r n 0) => Prog.opt (partAt r part) fun p =>
        Prog.when (r.fields.any fun f => f.acc == .rc) (regRead m u r n p fun v => Prog.send (.regValue m v))
    | _ => .skip) s

end Sys2Proof.Machine
end

