-- ==== Sys2Proof/Machine/Reservoir.lean ====
section
/-!
DEFINITION. Machine/Reservoir.lean: the commands of the Reservoir and its cache: resize, set reads, range walks, the merge buffer, scrubbing,
the poison list (spec 05).
-/
namespace Sys2Proof.Machine

/-- RSV_RESIZE (R145, R146). -/
def execRsvResize (h : Hdr) (mapGib dirGib : BitVec 8) (s : State) : Host.Outcome State Fault Refusal :=
  act (asryn h (.rsvResize mapGib dirGib)) s

/-- RESIZE_FLUSH_DONE (R146 steps 3, 4). -/
def execResizeFlushDone (s : State) : Host.Outcome State Fault Refusal := act resizeDone s

/-- CACHE_SET_READ_RETURN (R149-R154, R161, R163): a read of the cache region returns, each way with its flipped bits. -/
def execCacheSetReadReturn (id : Nat) (flips : List (Fin 16 × Burst)) (hintBad : Bool) (s : State) :
    Host.Outcome State Fault Refusal := act (Prog.seq (setReturn id flips hintBad readLost) atomSettle) s

/-- RSV_PURGE (R155). -/
def execRsvPurge (h : Hdr) (x : Fin 536870912) (n : BitVec 30) (s : State) : Host.Outcome State Fault Refusal :=
  act (asryn h (.rsvPurge x n)) s

/-- RSV_FLUSH (R155). -/
def execRsvFlush (h : Hdr) (x : Fin 536870912) (n : BitVec 30) (inval : Bool) (s : State) : Host.Outcome State Fault Refusal :=
  act (asryn h (.rsvFlush x n inval)) s

/-- RSV_UNPIN (R155). -/
def execRsvUnpin (h : Hdr) (x : Fin 536870912) (n : BitVec 30) (s : State) : Host.Outcome State Fault Refusal :=
  act (asryn h (.rsvUnpin x n)) s

/-- CACHE_RANGE_WALK_DONE (R155). -/
def execCacheRangeWalkDone (s : State) : Host.Outcome State Fault Refusal := act cacheWalkDone s

/-- RSV_SET_CLEAR (R161). -/
def execRsvSetClear (h : Hdr) (set : Option Nat) (s : State) : Host.Outcome State Fault Refusal := act (asryn h (.rsvSetClear set)) s

/-- The withdrawal of a unit ends: the accesses and the atomic operations that waited proceed (R158). -/
def unitWithdrawn (u : Nat) : Prog := .look fun s => Prog.opt (Tab.get? s.dev.rsv.withdraw u) fun l => Prog.all [
  Prog.rsv fun r => { r with withdraw := Tab.erase r.withdraw u },
  Prog.each l accLocal,
  atomPump]

/-- PINNED_UNIT_WITHDRAWN (R158). -/
def execPinnedUnitWithdrawn (u : BitVec 16) (s : State) : Host.Outcome State Fault Refusal := act (unitWithdrawn u.toNat) s

/-- PARTIAL_WRITE_MERGE (R160). -/
def execPartialWriteMerge (o : Origin) (gpa : BitVec 50) (data : Line) (mask : Mask) (cmode : Fin 4) (s : State) :
    Host.Outcome State Fault Refusal := act (partialWrite o (gpa.toNat / 64 * 64) data mask cmode) s

/-- MERGE_OLD_LINE_ARRIVAL (R160): the line from its target, or the flipped bits of the line read from the Reservoir. -/
def execMergeOldLineArrival (la : BitVec 44) (data : Line) (came : LineIn) (s : State) : Host.Outcome State Fault Refusal :=
  act (mergeArrive la.toNat data came.poison came.flips) s

/-- MERGE_WRITE_COMPLETE (R160). -/
def execMergeWriteComplete (la : BitVec 44) (s : State) : Host.Outcome State Fault Refusal := act (Prog.seq (mergeDone false la.toNat) atomSettle) s

/-- SCRUB_READ (R164, R165). -/
def execScrubRead (st : Fin 4) (c : Fin 32) (s : State) : Host.Outcome State Fault Refusal := act (scrubRead st c) s

/-- SCRUB_READ_RETURN (R161-R164): the bits turned over in the data, metadata and check symbols of the burst, and the errors that later reads will meet. -/
def execScrubReadReturn (st : Fin 4) (c : Fin 32) (data : BitVec 512) (words check : BitVec 64) (came : ScrubIn) (s : State) :
    Host.Outcome State Fault Refusal := act (Prog.seq (struckPut came) (scrubReturn st c (burstParts data words check) came.both millAreaLost)) s

/-- SCRUB_LAP_WARN (R165). -/
def execScrubLapWarn (st : Fin 4) (c : Fin 32) (s : State) : Host.Outcome State Fault Refusal := act (lapWarn st c) s

/-- PSN_CLEAR (R169). -/
def execPsnClear (h : Hdr) (x : Fin 536870912) (line : Option (Fin 32768)) (s : State) : Host.Outcome State Fault Refusal :=
  act (asryn h (.psnClear x line)) s

/-- PSN_QUERY (R169). -/
def execPsnQuery (h : Hdr) (x : Fin 536870912) (s : State) : Host.Outcome State Fault Refusal := act (asryn h (.psnQuery x)) s

end Sys2Proof.Machine
end

