-- ==== Sys2Proof/Machine/Slots.lean ====
section
/-!
DEFINITION. Machine/Slots.lean: the commands of the slot channels: presence, buttons, operations, power-on, faults and the thermal model (spec 14).
-/
namespace Sys2Proof.Machine

/-- PRESENCE_STABLE (R400, R407). -/
def execPresenceStable (k : Fin 64) (latch : Bool) (s : State) : Host.Outcome State Fault Refusal := act (slotPresent k latch) s

/-- REMOVAL (R406, R407). -/
def execRemoval (k : Fin 64) (s : State) : Host.Outcome State Fault Refusal := act (slotRemoval k) s

/-- LATCH_OPEN (R406). -/
def execLatchOpen (k : Fin 64) (s : State) : Host.Outcome State Fault Refusal := act (slotLatchOpen k) s

/-- SHORT_PRESS (R400, R414). -/
def execShortPress (k : Fin 64) (s : State) : Host.Outcome State Fault Refusal := act (slotShortPress k) s

/-- LONG_PRESS (R400, R414). -/
def execLongPress (k : Fin 64) (s : State) : Host.Outcome State Fault Refusal := act (slotLongPress k) s

/-- SLOT_CMD (R402). -/
def execSlotCmd (h : Hdr) (op : BitVec 8) (s : State) : Host.Outcome State Fault Refusal := act (asryn h (.slotCmd op)) s

/-- SLOT_ON (R399, R400, R402): a write of SLT_CMD with OP 1. -/
def execSlotOn (m : Master) (k : Fin 64) (s : State) : Host.Outcome State Fault Refusal := act (regWhole m (.slot k) .SLT_CMD 0 1) s

/-- SLOT_OFF (R402, R403): OP 2. -/
def execSlotOff (m : Master) (k : Fin 64) (s : State) : Host.Outcome State Fault Refusal := act (regWhole m (.slot k) .SLT_CMD 0 2) s

/-- SLOT_ABORT (R400, R402): OP 3. -/
def execSlotAbort (m : Master) (k : Fin 64) (s : State) : Host.Outcome State Fault Refusal := act (regWhole m (.slot k) .SLT_CMD 0 3) s

/-- IDENT_ON (R402, R415): OP 4. -/
def execIdentOn (m : Master) (k : Fin 64) (s : State) : Host.Outcome State Fault Refusal := act (regWhole m (.slot k) .SLT_CMD 0 4) s

/-- IDENT_OFF (R402, R415): OP 5. -/
def execIdentOff (m : Master) (k : Fin 64) (s : State) : Host.Outcome State Fault Refusal := act (regWhole m (.slot k) .SLT_CMD 0 5) s

/-- ARM_TIMEOUT (R400). -/
def execArmTimeout (k : Fin 64) (s : State) : Host.Outcome State Fault Refusal := act (slotArmEnd k) s

/-- VOUT_REACHED_PG_THR (R400). -/
def execVoutReachedPgThr (k : Fin 64) (s : State) : Host.Outcome State Fault Refusal := act (slotRampEnd k) s

/-- RAMP_TIMEOUT (R400, R410). -/
def execRampTimeout (k : Fin 64) (s : State) : Host.Outcome State Fault Refusal := act (slotRampTimeout k) s

/-- PG_ASSERT (R405). -/
def execPgAssert (k : Fin 64) (s : State) : Host.Outcome State Fault Refusal := act (slotPgAssert k) s

/-- PG_LOST (R405). -/
def execPgLost (k : Fin 64) (s : State) : Host.Outcome State Fault Refusal := act (slotPgLost k) s

/-- DISCHARGE_END (R400, R411). -/
def execDischargeEnd (k : Fin 64) (vout : BitVec 16) (s : State) : Host.Outcome State Fault Refusal := act (slotDischarged k vout.toNat) s

/-- COOLDOWN_END (R407). -/
def execCooldownEnd (k : Fin 64) (s : State) : Host.Outcome State Fault Refusal := act (slotCooldownEnd k) s

/-- AUTO_OFF (R400). -/
def execAutoOff (k : Fin 64) (s : State) : Host.Outcome State Fault Refusal := act (slotAutoOff k) s

/-- CURRENT_LIMIT (R408). -/
def execCurrentLimit (k : Fin 64) (s : State) : Host.Outcome State Fault Refusal := act (slotLimit k) s

/-- OUT_OF_REGULATION (R408). -/
def execOutOfRegulation (k : Fin 64) (s : State) : Host.Outcome State Fault Refusal := act (slotLimitEnd k) s

/-- FAULT_TIMER_EXPIRY (R408, R410). -/
def execFaultTimerExpiry (k : Fin 64) (s : State) : Host.Outcome State Fault Refusal := act (slotTimerExpiry k) s

/-- HARD_SHORT (R409, R410). -/
def execHardShort (k : Fin 64) (s : State) : Host.Outcome State Fault Refusal := act (slotHardShort k) s

/-- PASS_TRANSISTOR_FAILURE (R411). -/
def execPassTransistorFailure (k : Fin 64) (s : State) : Host.Outcome State Fault Refusal := act (slotPassFailure k) s

/-- THERMAL_MODEL_UPDATE (R412, R413). -/
def execThermalModelUpdate (k : Fin 64) (sample : SlotSample) (s : State) : Host.Outcome State Fault Refusal := act (slotThermal k sample) s

/-- CURRENT_LIMIT_WRITE (R408): a write of SLT_ILIM. -/
def execCurrentLimitWrite (m : Master) (k : Fin 64) (value : BitVec 32) (s : State) : Host.Outcome State Fault Refusal :=
  act (regWhole m (.slot k) .SLT_ILIM 0 value.toNat) s

end Sys2Proof.Machine
end

