-- ==== Sys2Proof/Machine/Translation.lean ====
section
/-!
DEFINITION. Machine/Translation.lean: the commands of address translation: host requests and home accesses, the extent cache,
windows, staging and epochs, stripe sets (spec 02).
-/
namespace Sys2Proof.Machine

/-- Lines of the extent cache in which bits have flipped since the last access, by their extents; the next lookup of such a line, whoever looks it up, meets the
error (R61). A line with no bit of it flipped, or one that the cache does not hold, is left alone. -/
def xcStrike (l : List (Fin 536870912 × Ecc)) : Prog := Prog.xlat fun v => { v with
  hurt := l.foldl (fun t e =>
    if e.2 = .ok ∨ !(Tab.getD v.cached (xcSet e.1.val) []).contains e.1.val ∨ Tab.get? t e.1.val = some .uncorrectable then t
    else Tab.put t e.1.val e.2) v.hurt }

/-- The permission a CXL.mem request needs; MemClnEvct needs none (R317). -/
def m2sPerm : M2S → Option Perm
  | .memRd | .memRdData => some .r
  | .memWr | .memWrPtl | .memInv => some .w
  | _ => none

/-- A host request that has matched a window (R172, R176, R282, R316). -/
def hostAccess (pt : PortId) (n : Nat) (a : Acc) : Prog := .look fun s =>
  let w : WType := match s.fldn (.port pt) F.PRT_WIN_CTL_WTYPE n with
    | 0 => .priv
    | 1 => .sharedSw
    | _ => .sharedHw
  let cm : Fin 4 := ⟨s.fldn (.port pt) F.PRT_WIN_CTL_CMODE n % 4, Nat.mod_lt _ (by decide)⟩
  let hw := w == WType.sharedHw
  let bi := s.flag (.port pt) F.PRT_HSTAT_BI_EN
  let host := if hw && bi then s.hostOf s.swid pt else none
  let go := Prog.all [
    Prog.when (hw && !bi) (raise 116 (.port pt) 0),
    Prog.when (hw && bi && host.isNone) (raise 83 (.port pt) 0),
    accTranslate { a with wtype := w, cmode := cm, host }]
  match m2sPerm a.op with
  | none => go
  | some p => leveeCheck .hostPort (s.hostIdent pt) 0 a.gpa p .root
      (Prog.seq (relayEvent 124 (.port pt) (a.gpa / 4096)) (answerNone a)) go

/-- CXLMEM_REQUEST (R40, R49, R50, R282, R316). A port that is not in mode H, has CXL.mem off, or is contained takes no request. -/
def execCxlmemRequest (pt : PortId) (op : M2S) (mv : MetaV) (hpa : BitVec 52) (tag : BitVec 16) (data : Line) (mask : Mask)
    (hurt : List (Fin 536870912 × Ecc)) (s : State) : Host.Outcome State Fault Refusal :=
  act (Prog.seq (xcStrike hurt) (.look fun s =>
    let a : Acc := { origin := .host pt tag, op, mv, gpa := 0, data, mask, wtype := .priv, cmode := 0, epoch := 0, tgt := none,
                     host := none, inst := none }
    if !s.portExists pt || s.mode pt.g != .h || !s.flag (.port pt) F.PRT_HSTAT_MEM_EN || s.isContained pt then .skip
    else match op with
      | .memSpecRd => .skip
      | .other => Prog.seq (raise 117 (.port pt) 0) (answerNone a)
      | _ =>
        let h := hpa.toNat / 64 * 64
        match s.winHit pt h with
        | none => Prog.seq (raise 41 (.port pt) (h / 2 ^ 21)) (answerNone a)
        | some n => hostAccess pt n { a with gpa := s.winGpa pt n + (h - s.winBase pt n) })) s

/-- HOME_ACCESS (R51, R173): an access cell of another switch at the home switch of its extent. -/
def execHomeAccess (ing : PortId) (src : Fin 16) (ort : Fin 65536) (gen : Fin 16) (from_ : Option PortId) (op : M2S) (mv : MetaV)
    (gpa : BitVec 50) (wtype : WType) (cmode : Fin 4) (data : Line) (mask : Mask)
    (hurt : List (Fin 536870912 × Ecc)) (s : State) : Host.Outcome State Fault Refusal :=
  act (Prog.seq (xcStrike hurt) (.look fun s =>
    let host := if wtype = .sharedHw then from_.bind fun p => s.hostOf src p else none
    let a : Acc := { origin := .switch src ing.x (ort.val, gen.val), op, mv, gpa := gpa.toNat / 64 * 64, data, mask, wtype, cmode,
                     epoch := 0, tgt := none, host, inst := none }
    if s.mode ing.g != .f then .skip
    else Prog.all [
      Prog.when (wtype == WType.sharedHw && from_.isSome && host.isNone) (raise 83 (.port ing) 0),
      accTranslate a])) s

/-- EXTENT_CACHE_FILL (R59, R60, R62, R68, R163): e5's read of a map entry returns, its line read with the flipped bits. For an extent in the sealed buffer it serves its waiters and is discarded, also
where it is uncorrectable. -/
def execExtentCacheFill (x : Fin 536870912) (flips : Burst) (s : State) : Host.Outcome State Fault Refusal :=
  act (.look fun s =>
    match Tab.get? s.dev.xlat.misses x.val with
    | none => .skip
    | some m =>
      let sealed := match s.dev.xlat.adv with
        | some d => Tab.has d.sealed x.val
        | none => false
      Prog.all [
        Prog.xlat fun v => { v with misses := Tab.erase v.misses x.val },
        regionRead (2 ^ 25) (x.val * 16) flips .skip,
        (if burstBad flips then Prog.all [
            Prog.when (!sealed) (Prog.xlat fun v => { v with bad := if v.bad.contains x.val then v.bad else v.bad ++ [x.val] }),
            raise 44 .root x.val, Prog.each m.waiters answerNone]
          else Prog.all [Prog.when (!sealed) (xcInstall x.val), Prog.each m.waiters fun a => accEntry a m.entry]),
        heldMissPump]) s

/-- WINDOW_ENABLE (R41, R42, R44). -/
def execWindowEnable (m : Master) (pt : PortId) (n : Fin 16) (wtype cmode : Fin 4) (lock : Bool) (s : State) :
    Host.Outcome State Fault Refusal :=
  act (regWhole m (.port pt) .PRT_WIN_CTL n.val (winCtlValue true wtype cmode lock)) s

/-- WINDOW_DISABLE (R42, R44). -/
def execWindowDisable (m : Master) (pt : PortId) (n : Fin 16) (wtype cmode : Fin 4) (s : State) :
    Host.Outcome State Fault Refusal :=
  act (regWhole m (.port pt) .PRT_WIN_CTL n.val (winCtlValue false wtype cmode false)) s

/-- WINDOW_LOCK (R44). -/
def execWindowLock (m : Master) (pt : PortId) (n : Fin 16) (wtype cmode : Fin 4) (en : Bool) (s : State) :
    Host.Outcome State Fault Refusal :=
  act (regWhole m (.port pt) .PRT_WIN_CTL n.val (winCtlValue en wtype cmode true)) s

/-- MAP_STAGE (R57, R64, R66, R75, R93). -/
def execMapStage (h : Hdr) (x : Fin 536870912) (entry : BitVec 128) (s : State) : Host.Outcome State Fault Refusal :=
  act (asryn h (.mapStage x entry)) s

/-- MAP_ADVANCE (R65, R66). -/
def execMapAdvance (h : Hdr) (s : State) : Host.Outcome State Fault Refusal := act (asryn h .mapAdvance) s

/-- SEALED_ENTRIES_WRITTEN (R69). -/
def execSealedEntriesWritten (s : State) : Host.Outcome State Fault Refusal := act sealedWritten s

/-- EPOCH_ADVANCE_COMPLETE (R69). -/
def execEpochAdvanceComplete (s : State) : Host.Outcome State Fault Refusal := act advanceDone s

/-- EPOCH_WARN_EXPIRY (R71): logged once for an advance; WARN_US 0 disables it. -/
def execEpochWarnExpiry (s : State) : Host.Outcome State Fault Refusal :=
  act (.look fun s =>
    match s.dev.xlat.adv with
    | none => .skip
    | some a =>
      if a.warned || s.fld .root F.DEV_EPOCH_WARN_WARN_US == 0 then .skip
      else Prog.seq (Prog.xlat fun v => { v with adv := some { a with warned := true } })
        (raise 46 .root (s.fld .root F.DEV_EPOCH_CUR))) s

/-- SSET_DEFINE (R56). -/
def execSsetDefine (h : Hdr) (n : Fin 4096) (width : Fin 4) (next : BitVec 24) (members : List (Fin 128 × Fin 2097152))
    (s : State) : Host.Outcome State Fault Refusal :=
  act (asryn h (.ssetDefine n width next members)) s

/-- EXTENT_CACHE_INVALIDATE (R63). -/
def execExtentCacheInvalidate (m : Master) (s : State) : Host.Outcome State Fault Refusal :=
  act (regWhole m .root .DEV_XC_CTL 0 1) s

/-- EXTENT_CACHE_INVALIDATE_DONE (R63). -/
def execExtentCacheInvalidateDone (s : State) : Host.Outcome State Fault Refusal :=
  act (Prog.set .root F.DEV_XC_CTL_BUSY 0) s

end Sys2Proof.Machine
end

