-- ==== Sys2Proof/Machine/Dispatch.lean ====
section
/-!
DEFINITION. Machine/Dispatch.lean: one arm per command, each one direct call of its meaning.
-/
namespace Sys2Proof.Machine


/-- The effect of a command on the device (everything but the queue of waiting commands). -/
def exec (i : Instr) (s : State) : Host.Outcome State Fault Refusal :=
  match i with
  | .registerWrite m u off part value => Sys2Proof.Machine.execRegisterWrite m u off part value s
  | .lowHalfRead m u off => Sys2Proof.Machine.execLowHalfRead m u off s
  | .rcFieldRead m u off part => Sys2Proof.Machine.execRcFieldRead m u off part s
  | .cxlmemRequest pt op mv hpa tag data mask xe => Sys2Proof.Machine.execCxlmemRequest pt op mv hpa tag data mask xe s
  | .homeAccess ing src ort gen from_ op mv gpa wtype cmode data mask xe => Sys2Proof.Machine.execHomeAccess ing src ort gen from_ op mv gpa wtype cmode data mask xe s
  | .extentCacheFill x flips => Sys2Proof.Machine.execExtentCacheFill x flips s
  | .windowEnable m pt n wtype cmode lock => Sys2Proof.Machine.execWindowEnable m pt n wtype cmode lock s
  | .windowDisable m pt n wtype cmode => Sys2Proof.Machine.execWindowDisable m pt n wtype cmode s
  | .windowLock m pt n wtype cmode en => Sys2Proof.Machine.execWindowLock m pt n wtype cmode en s
  | .mapStage h x entry => Sys2Proof.Machine.execMapStage h x entry s
  | .mapAdvance h => Sys2Proof.Machine.execMapAdvance h s
  | .sealedEntriesWritten => Sys2Proof.Machine.execSealedEntriesWritten s
  | .epochAdvanceComplete => Sys2Proof.Machine.execEpochAdvanceComplete s
  | .epochWarnExpiry => Sys2Proof.Machine.execEpochWarnExpiry s
  | .ssetDefine h n width next members => Sys2Proof.Machine.execSsetDefine h n width next members s
  | .extentCacheInvalidate m => Sys2Proof.Machine.execExtentCacheInvalidate m s
  | .extentCacheInvalidateDone => Sys2Proof.Machine.execExtentCacheInvalidateDone s
  | .movePassComplete t => Sys2Proof.Machine.execMovePassComplete t s
  | .copyReadComplete t line data came => Sys2Proof.Machine.execCopyReadComplete t line data came s
  | .dataMoverPause m value => Sys2Proof.Machine.execDataMoverPause m value s
  | .moveQuery h t => Sys2Proof.Machine.execMoveQuery h t s
  | .holdStart => Sys2Proof.Machine.execHoldStart s
  | .holdSourceDrainDone => Sys2Proof.Machine.execHoldSourceDrainDone s
  | .flip => Sys2Proof.Machine.execFlip s
  | .holdAbort => Sys2Proof.Machine.execHoldAbort s
  | .dmCopy h src dst sdpa ddpa len => Sys2Proof.Machine.execDmCopy h src dst sdpa ddpa len s
  | .losslessCellArrival c fast => Sys2Proof.Machine.execLosslessCellArrival c fast s
  | .waitingCellAdmit c => Sys2Proof.Machine.execWaitingCellAdmit c s
  | .rmabPacketArrival b => Sys2Proof.Machine.execRmabPacketArrival b s
  | .cellSend x credit ecc => Sys2Proof.Machine.execCellSend x credit ecc s
  | .rmabAgeEviction x => Sys2Proof.Machine.execRmabAgeEviction x s
  | .fpThresholdWrite m k shared value => Sys2Proof.Machine.execFpThresholdWrite m k shared value s
  | .ortResponse pt tag ix gen data poison mv code old => Sys2Proof.Machine.execOrtResponse pt tag ix gen data poison mv code old s
  | .ortTimeout ix => Sys2Proof.Machine.execOrtTimeout ix s
  | .ortLostPathAnswer => Sys2Proof.Machine.execOrtLostPathAnswer s
  | .ortQuarantineExpiry ix => Sys2Proof.Machine.execOrtQuarantineExpiry ix s
  | .poisonAddNoticeSend line => Sys2Proof.Machine.execPoisonAddNoticeSend line s
  | .poisonAddNotice src line n => Sys2Proof.Machine.execPoisonAddNotice src line n s
  | .poisonAddNoticeAck src line => Sys2Proof.Machine.execPoisonAddNoticeAck src line s
  | .egressStall x => Sys2Proof.Machine.execEgressStall x s
  | .rsvResize h mapGib dirGib => Sys2Proof.Machine.execRsvResize h mapGib dirGib s
  | .resizeFlushDone => Sys2Proof.Machine.execResizeFlushDone s
  | .cacheSetReadReturn id flips hintBad => Sys2Proof.Machine.execCacheSetReadReturn id flips hintBad s
  | .rsvPurge h x n => Sys2Proof.Machine.execRsvPurge h x n s
  | .rsvFlush h x n inval => Sys2Proof.Machine.execRsvFlush h x n inval s
  | .rsvUnpin h x n => Sys2Proof.Machine.execRsvUnpin h x n s
  | .rsvSetClear h set => Sys2Proof.Machine.execRsvSetClear h set s
  | .pinnedUnitWithdrawn u => Sys2Proof.Machine.execPinnedUnitWithdrawn u s
  | .partialWriteMerge o gpa data mask cmode => Sys2Proof.Machine.execPartialWriteMerge o gpa data mask cmode s
  | .mergeOldLineArrival la data came => Sys2Proof.Machine.execMergeOldLineArrival la data came s
  | .mergeWriteComplete la => Sys2Proof.Machine.execMergeWriteComplete la s
  | .scrubRead st c => Sys2Proof.Machine.execScrubRead st c s
  | .scrubReadReturn st c data words check came => Sys2Proof.Machine.execScrubReadReturn st c data words check came s
  | .scrubLapWarn st c => Sys2Proof.Machine.execScrubLapWarn st c s
  | .psnClear h x line => Sys2Proof.Machine.execPsnClear h x line s
  | .psnQuery h x => Sys2Proof.Machine.execPsnQuery h x s
  | .coherenceRequest look => Sys2Proof.Machine.execCoherenceRequest look s
  | .directorySetReadReturn set flips => Sys2Proof.Machine.execDirectorySetReadReturn set flips s
  | .birsp h la rsp => Sys2Proof.Machine.execBirsp h la rsp s
  | .biconflict pt c => Sys2Proof.Machine.execBiconflict pt c s
  | .snoopTimeout h la => Sys2Proof.Machine.execSnoopTimeout h la s
  | .containNotice src sw pt => Sys2Proof.Machine.execContainNotice src sw pt s
  | .hostRetire m n value => Sys2Proof.Machine.execHostRetire m n value s
  | .hostWalkComplete => Sys2Proof.Machine.execHostWalkComplete s
  | .dirSetClear h set => Sys2Proof.Machine.execDirSetClear h set s
  | .atomicOp o op gpa => Sys2Proof.Machine.execAtomicOp o op gpa s
  | .atomicReadReturn id data bad => Sys2Proof.Machine.execAtomicReadReturn id data bad s
  | .flowCreate h f ins slot peerSw peerFlow gen => Sys2Proof.Machine.execFlowCreate h f ins slot peerSw peerFlow gen s
  | .flowDestroy h f => Sys2Proof.Machine.execFlowDestroy h f s
  | .eqSetup m ins => Sys2Proof.Machine.execEqSetup m ins s
  | .flowSetup m ins => Sys2Proof.Machine.execFlowSetup m ins s
  | .regionRegister m ins => Sys2Proof.Machine.execRegionRegister m ins s
  | .instanceRegionRevoke m ins => Sys2Proof.Machine.execInstanceRegionRevoke m ins s
  | .regionQuery m ins => Sys2Proof.Machine.execRegionQuery m ins s
  | .regionRevoke h key => Sys2Proof.Machine.execRegionRevoke h key s
  | .revokeDone ix => Sys2Proof.Machine.execRevokeDone ix s
  | .sqDoorbell m ins slot value => Sys2Proof.Machine.execSqDoorbell m ins slot value s
  | .cqDoorbell m ins slot value => Sys2Proof.Machine.execCqDoorbell m ins slot value s
  | .eqDoorbell m ins value => Sys2Proof.Machine.execEqDoorbell m ins value s
  | .descriptorFetched item bytes => Sys2Proof.Machine.execDescriptorFetched item bytes s
  | .localReadComplete item bytes => Sys2Proof.Machine.execLocalReadComplete item bytes s
  | .wdata h data => Sys2Proof.Machine.execWdata h data s
  | .rreq h => Sys2Proof.Machine.execRreq h s
  | .rreqReadComplete item stat data => Sys2Proof.Machine.execRreqReadComplete item stat data s
  | .atomic h op => Sys2Proof.Machine.execAtomic h op s
  | .atomicResult item code old => Sys2Proof.Machine.execAtomicResult item code old s
  | .placementComplete item => Sys2Proof.Machine.execPlacementComplete item s
  | .ackDelayExpiry f => Sys2Proof.Machine.execAckDelayExpiry f s
  | .ack h cum start sack trs rejs more => Sys2Proof.Machine.execAck h cum start sack trs rejs more s
  | .rdata h data => Sys2Proof.Machine.execRdata h data s
  | .arsp h => Sys2Proof.Machine.execArsp h s
  | .trim h => Sys2Proof.Machine.execTrim h s
  | .rtoExpiry f seq => Sys2Proof.Machine.execRtoExpiry f seq s
  | .rnrResend f seq => Sys2Proof.Machine.execRnrResend f seq s
  | .rnrTimeout f seq => Sys2Proof.Machine.execRnrTimeout f seq s
  | .abort h => Sys2Proof.Machine.execAbort h s
  | .pathRecoveryTimeout f => Sys2Proof.Machine.execPathRecoveryTimeout f s
  | .fabricIdWrite m value => Sys2Proof.Machine.execFabricIdWrite m value s
  | .routingTableWrite m n value => Sys2Proof.Machine.execRoutingTableWrite m n value s
  | .effectiveSetRecompute => Sys2Proof.Machine.execEffectiveSetRecompute s
  | .reachAdvertisement g mask seq => Sys2Proof.Machine.execReachAdvertisement g mask seq s
  | .reachRefresh => Sys2Proof.Machine.execReachRefresh s
  | .linkAuthenticationComplete g version root chain signature => Sys2Proof.Machine.execLinkAuthenticationComplete g version root chain signature s
  | .identity g fabId sw grp mapGib => Sys2Proof.Machine.execIdentity g fabId sw grp mapGib s
  | .crinit g shared reserves rbMax => Sys2Proof.Machine.execCrinit g shared reserves rbMax s
  | .authTimeout g => Sys2Proof.Machine.execAuthTimeout g s
  | .fabTrustSet h digests => Sys2Proof.Machine.execFabTrustSet h digests s
  | .fabLinkRetry h => Sys2Proof.Machine.execFabLinkRetry h s
  | .fabComplete h => Sys2Proof.Machine.execFabComplete h s
  | .groupModeChange m g value => Sys2Proof.Machine.execGroupModeChange m g value s
  | .groupPhyOffDone g => Sys2Proof.Machine.execGroupPhyOffDone g s
  | .groupPowerUpDone g => Sys2Proof.Machine.execGroupPowerUpDone g s
  | .hostPortConfigWrite m pt value => Sys2Proof.Machine.execHostPortConfigWrite m pt value s
  | .modulePortConfigWrite m pt value => Sys2Proof.Machine.execModulePortConfigWrite m pt value s
  | .hdmDecoderCommit pt n base size ways => Sys2Proof.Machine.execHdmDecoderCommit pt n base size ways s
  | .hdmDecoderDecommit pt n => Sys2Proof.Machine.execHdmDecoderDecommit pt n s
  | .cdatRead pt => Sys2Proof.Machine.execCdatRead pt s
  | .identifyMemoryDevice pt => Sys2Proof.Machine.execIdentifyMemoryDevice pt s
  | .getPartitionInfo pt => Sys2Proof.Machine.execGetPartitionInfo pt s
  | .getSupportedLogs pt => Sys2Proof.Machine.execGetSupportedLogs pt s
  | .getLog pt effects => Sys2Proof.Machine.execGetLog pt effects s
  | .getEventRecords pt => Sys2Proof.Machine.execGetEventRecords pt s
  | .clearEventRecords pt handles => Sys2Proof.Machine.execClearEventRecords pt handles s
  | .getHealthInfo pt => Sys2Proof.Machine.execGetHealthInfo pt s
  | .getPoisonList pt => Sys2Proof.Machine.execGetPoisonList pt s
  | .cxlioMemoryRequest pt fn bar2 write addr lenM1 value tag bi => Sys2Proof.Machine.execCxlioMemoryRequest pt fn bar2 write addr lenM1 value tag bi s
  | .hostLinkUp pt cxl rate width flit pre post => Sys2Proof.Machine.execHostLinkUp pt cxl rate width flit pre post s
  | .bmeClear pt fn => Sys2Proof.Machine.execBmeClear pt fn s
  | .bmeSet pt fn => Sys2Proof.Machine.execBmeSet pt fn s
  | .bmeHoldExpiry pt fn => Sys2Proof.Machine.execBmeHoldExpiry pt fn s
  | .portReset pt cause => Sys2Proof.Machine.execPortReset pt cause s
  | .portResetComplete pt => Sys2Proof.Machine.execPortResetComplete pt s
  | .moduleEnumerationStart pt => Sys2Proof.Machine.execModuleEnumerationStart pt s
  | .moduleLinkTrained pt cxl rate width classOk pre post => Sys2Proof.Machine.execModuleLinkTrained pt cxl rate width classOk pre post s
  | .memoryActive pt => Sys2Proof.Machine.execMemoryActive pt s
  | .moduleMailboxResponse pt capacity commit data => Sys2Proof.Machine.execModuleMailboxResponse pt capacity commit data s
  | .enumerationTimeout pt => Sys2Proof.Machine.execEnumerationTimeout pt s
  | .eventPoll pt records => Sys2Proof.Machine.execEventPoll pt records s
  | .moduleFatalError pt => Sys2Proof.Machine.execModuleFatalError pt s
  | .moduleLinkDown pt => Sys2Proof.Machine.execModuleLinkDown pt s
  | .modMbox h opcode data => Sys2Proof.Machine.execModMbox h opcode data s
  | .vfEnableChange pt n => Sys2Proof.Machine.execVfEnableChange pt n s
  | .functionLevelReset pt fn => Sys2Proof.Machine.execFunctionLevelReset pt fn s
  | .mailboxSlotWrite m ins h2m j value => Sys2Proof.Machine.execMailboxSlotWrite m ins h2m j value s
  | .h2mFullSet m ins => Sys2Proof.Machine.execH2mFullSet m ins s
  | .h2mFullClear m ins => Sys2Proof.Machine.execH2mFullClear m ins s
  | .m2hFullSet m ins => Sys2Proof.Machine.execM2hFullSet m ins s
  | .m2hFullClear m ins => Sys2Proof.Machine.execM2hFullClear m ins s
  | .insFreeze h => Sys2Proof.Machine.execInsFreeze h s
  | .freezeDrainEnd ins => Sys2Proof.Machine.execFreezeDrainEnd ins s
  | .freezeDrainTimeout ins => Sys2Proof.Machine.execFreezeDrainTimeout ins s
  | .insSave h buf len => Sys2Proof.Machine.execInsSave h buf len s
  | .insRestore h src image => Sys2Proof.Machine.execInsRestore h src image s
  | .insThaw h => Sys2Proof.Machine.execInsThaw h s
  | .insDiscard h => Sys2Proof.Machine.execInsDiscard h s
  | .flowRepoint h f sw peer => Sys2Proof.Machine.execFlowRepoint h f sw peer s
  | .insReset h => Sys2Proof.Machine.execInsReset h s
  | .instanceResetSquash ins => Sys2Proof.Machine.execInstanceResetSquash ins s
  | .instanceResetComplete ins => Sys2Proof.Machine.execInstanceResetComplete ins s
  | .leveeRuleRangeWrite m n limit value => Sys2Proof.Machine.execLeveeRuleRangeWrite m n limit value s
  | .leveeRuleCtlWrite m n value => Sys2Proof.Machine.execLeveeRuleCtlWrite m n value s
  | .leveeRuleLock m n value => Sys2Proof.Machine.execLeveeRuleLock m n value s
  | .debugAccess space write addr len data => Sys2Proof.Machine.execDebugAccess space write addr len data s
  | .flit g flit => Sys2Proof.Machine.execFlit g flit s
  | .creditReturnTimer g => Sys2Proof.Machine.execCreditReturnTimer g s
  | .ackTimeout g => Sys2Proof.Machine.execAckTimeout g s
  | .rxPoolConfigWrite m g lim value => Sys2Proof.Machine.execRxPoolConfigWrite m g lim value s
  | .reshape m g value => Sys2Proof.Machine.execReshape m g value s
  | .pauseReq g width base rate token => Sys2Proof.Machine.execPauseReq g width base rate token s
  | .pauseRsp g result token => Sys2Proof.Machine.execPauseRsp g result token s
  | .retrainDone g good => Sys2Proof.Machine.execRetrainDone g good s
  | .retrainTimeout g => Sys2Proof.Machine.execRetrainTimeout g s
  | .laneAlignmentLoss ln => Sys2Proof.Machine.execLaneAlignmentLoss ln s
  | .alignmentMarker ln symbols frame vref taps move => Sys2Proof.Machine.execAlignmentMarker ln symbols frame vref taps move s
  | .trainStart g => Sys2Proof.Machine.execTrainStart g s
  | .fciLock g code => Sys2Proof.Machine.execFciLock g code s
  | .phaseSweepDone g codes => Sys2Proof.Machine.execPhaseSweepDone g codes s
  | .laneDeskewDone g => Sys2Proof.Machine.execLaneDeskewDone g s
  | .presetHoldExpiry ln hold => Sys2Proof.Machine.execPresetHoldExpiry ln hold s
  | .trainDone g fits => Sys2Proof.Machine.execTrainDone g fits s
  | .trainTimeout g => Sys2Proof.Machine.execTrainTimeout g s
  | .trainRetry g => Sys2Proof.Machine.execTrainRetry g s
  | .fciLoss g => Sys2Proof.Machine.execFciLoss g s
  | .linkTest m g value => Sys2Proof.Machine.execLinkTest m g value s
  | .linkTestEnd g => Sys2Proof.Machine.execLinkTestEnd g s
  | .marginMeasurement m ln value => Sys2Proof.Machine.execMarginMeasurement m ln value s
  | .marginMeasurementDone ln errs => Sys2Proof.Machine.execMarginMeasurementDone ln errs s
  | .txEqWrite m ln value => Sys2Proof.Machine.execTxEqWrite m ln value s
  | .userCalibrationWrite m ln value => Sys2Proof.Machine.execUserCalibrationWrite m ln value s
  | .sysclkLoss c => Sys2Proof.Machine.execSysclkLoss c s
  | .refclkLoss q => Sys2Proof.Machine.execRefclkLoss q s
  | .groupPllUnlock g => Sys2Proof.Machine.execGroupPllUnlock g s
  | .auxclkLoss => Sys2Proof.Machine.execAuxclkLoss s
  | .clockRestored c => Sys2Proof.Machine.execClockRestored c s
  | .crossingAcknowledge u off => Sys2Proof.Machine.execCrossingAcknowledge u off s
  | .presenceStable k latch => Sys2Proof.Machine.execPresenceStable k latch s
  | .removal k => Sys2Proof.Machine.execRemoval k s
  | .latchOpen k => Sys2Proof.Machine.execLatchOpen k s
  | .shortPress k => Sys2Proof.Machine.execShortPress k s
  | .longPress k => Sys2Proof.Machine.execLongPress k s
  | .slotCmd h op => Sys2Proof.Machine.execSlotCmd h op s
  | .slotOn m k => Sys2Proof.Machine.execSlotOn m k s
  | .slotOff m k => Sys2Proof.Machine.execSlotOff m k s
  | .slotAbort m k => Sys2Proof.Machine.execSlotAbort m k s
  | .identOn m k => Sys2Proof.Machine.execIdentOn m k s
  | .identOff m k => Sys2Proof.Machine.execIdentOff m k s
  | .armTimeout k => Sys2Proof.Machine.execArmTimeout k s
  | .voutReachedPgThr k => Sys2Proof.Machine.execVoutReachedPgThr k s
  | .rampTimeout k => Sys2Proof.Machine.execRampTimeout k s
  | .pgAssert k => Sys2Proof.Machine.execPgAssert k s
  | .pgLost k => Sys2Proof.Machine.execPgLost k s
  | .dischargeEnd k vout => Sys2Proof.Machine.execDischargeEnd k vout s
  | .cooldownEnd k => Sys2Proof.Machine.execCooldownEnd k s
  | .autoOff k => Sys2Proof.Machine.execAutoOff k s
  | .currentLimit k => Sys2Proof.Machine.execCurrentLimit k s
  | .faultTimerExpiry k => Sys2Proof.Machine.execFaultTimerExpiry k s
  | .hardShort k => Sys2Proof.Machine.execHardShort k s
  | .passTransistorFailure k => Sys2Proof.Machine.execPassTransistorFailure k s
  | .thermalModelUpdate k sample => Sys2Proof.Machine.execThermalModelUpdate k sample s
  | .currentLimitWrite m k value => Sys2Proof.Machine.execCurrentLimitWrite m k value s
  | .transmitterIdleFailure g => Sys2Proof.Machine.execTransmitterIdleFailure g s
  | .faultAck h cls => Sys2Proof.Machine.execFaultAck h cls s
  | .faultAckWrite m value => Sys2Proof.Machine.execFaultAckWrite m value s
  | .faultQuery h => Sys2Proof.Machine.execFaultQuery h s
  | .faultRelease h => Sys2Proof.Machine.execFaultRelease h s
  | .engineFault e => Sys2Proof.Machine.execEngineFault e s
  | .watchdogExpiry => Sys2Proof.Machine.execWatchdogExpiry s
  | .faultInjection m value => Sys2Proof.Machine.execFaultInjection m value s
  | .pwrokRise pmode pid refclk active other => Sys2Proof.Machine.execPwrokRise pmode pid refclk active other s
  | .pwrokFall => Sys2Proof.Machine.execPwrokFall s
  | .bootComplete ident => Sys2Proof.Machine.execBootComplete ident s
  | .railWarning below => Sys2Proof.Machine.execRailWarning below s
  | .railFault r => Sys2Proof.Machine.execRailFault r s
  | .vinSlotFault lost => Sys2Proof.Machine.execVinSlotFault lost s
  | .auxRailFault => Sys2Proof.Machine.execAuxRailFault s
  | .droop reading => Sys2Proof.Machine.execDroop reading s
  | .droopStepUp => Sys2Proof.Machine.execDroopStepUp s
  | .powerCapAdjust average => Sys2Proof.Machine.execPowerCapAdjust average s
  | .temperatureWarn n t => Sys2Proof.Machine.execTemperatureWarn n t s
  | .thermalThrottle n t => Sys2Proof.Machine.execThermalThrottle n t s
  | .thermalTrip n t => Sys2Proof.Machine.execThermalTrip n t s
  | .groupPowerOff m g => Sys2Proof.Machine.execGroupPowerOff m g s
  | .groupPowerOn m g => Sys2Proof.Machine.execGroupPowerOn m g s
  | .resetLAssert => Sys2Proof.Machine.execResetLAssert s
  | .resetLRelease active other => Sys2Proof.Machine.execResetLRelease active other s
  | .warmResetDrainDone active other => Sys2Proof.Machine.execWarmResetDrainDone active other s
  | .devRstCmdWarm m key => Sys2Proof.Machine.execDevRstCmdWarm m key s
  | .devRstCmdRestart m key => Sys2Proof.Machine.execDevRstCmdRestart m key s
  | .devReset h => Sys2Proof.Machine.execDevReset h s
  | .hwRestart h => Sys2Proof.Machine.execHwRestart h s
  | .headwaterReady => Sys2Proof.Machine.execHeadwaterReady s
  | .unitReset h => Sys2Proof.Machine.execUnitReset h s
  | .ping h => Sys2Proof.Machine.execPing h s
  | .regRead h off width => Sys2Proof.Machine.execRegRead h off width s
  | .regWrite h off width value => Sys2Proof.Machine.execRegWrite h off width value s
  | .poolRead h gpa len => Sys2Proof.Machine.execPoolRead h gpa len s
  | .poolWrite h gpa len data => Sys2Proof.Machine.execPoolWrite h gpa len data s
  | .rsvRead h addr len flips => Sys2Proof.Machine.execRsvRead h addr len flips s
  | .rsvWrite h addr len data => Sys2Proof.Machine.execRsvWrite h addr len data s
  | .mctpVendorMessage p => Sys2Proof.Machine.execMctpVendorMessage p s
  | .commandRingTail pt value => Sys2Proof.Machine.execCommandRingTail pt value s
  | .commandRingFetch pt p => Sys2Proof.Machine.execCommandRingFetch pt p s
  | .replyRingHead pt value => Sys2Proof.Machine.execReplyRingHead pt value s
  | .commandStart new => Sys2Proof.Machine.execCommandStart new s
  | .entdaa addr => Sys2Proof.Machine.execEntdaa addr s
  | .setEndpointId eid => Sys2Proof.Machine.execSetEndpointId eid s
  | .getEndpointId => Sys2Proof.Machine.execGetEndpointId s
  | .getMctpVersionSupport type => Sys2Proof.Machine.execGetMctpVersionSupport type s
  | .getMessageTypeSupport => Sys2Proof.Machine.execGetMessageTypeSupport s
  | .getVendorDefinedMessageSupport sel => Sys2Proof.Machine.execGetVendorDefinedMessageSupport sel s
  | .getVersion r => Sys2Proof.Machine.execGetVersion r s
  | .getCapabilities r flags => Sys2Proof.Machine.execGetCapabilities r flags s
  | .negotiateAlgorithms r asym hash => Sys2Proof.Machine.execNegotiateAlgorithms r asym hash s
  | .getDigests r => Sys2Proof.Machine.execGetDigests r s
  | .getCertificate r slot off len => Sys2Proof.Machine.execGetCertificate r slot off len s
  | .challenge r slot nonce summary => Sys2Proof.Machine.execChallenge r slot nonce summary s
  | .getMeasurements r op sign slot nonce => Sys2Proof.Machine.execGetMeasurements r op sign slot nonce s
  | .fwWrite h off slot data => Sys2Proof.Machine.execFwWrite h off slot data s
  | .fwActivate h slot => Sys2Proof.Machine.execFwActivate h slot s
  | .activationPoint => Sys2Proof.Machine.execActivationPoint s
  | .oldImageUnload => Sys2Proof.Machine.execOldImageUnload s
  | .activationTimeout => Sys2Proof.Machine.execActivationTimeout s
  | .ucodeLoad h => Sys2Proof.Machine.execUcodeLoad h s
  | .quiesceDone e => Sys2Proof.Machine.execQuiesceDone e s
  | .quiesceAbandon e => Sys2Proof.Machine.execQuiesceAbandon e s
  | .cfgWrite h off slot data => Sys2Proof.Machine.execCfgWrite h off slot data s
  | .cfgCommit h slot => Sys2Proof.Machine.execCfgCommit h slot s
  | .unitCertGet h off => Sys2Proof.Machine.execUnitCertGet h off s
  | .unitSign h nonce => Sys2Proof.Machine.execUnitSign h nonce s
  | .dbgmSelect sel => Sys2Proof.Machine.execDbgmSelect sel s
  | .debugDisable m => Sys2Proof.Machine.execDebugDisable m s
  | .ftmAuth ok => Sys2Proof.Machine.execFtmAuth ok s
  | .eventSelectWrite m u j value => Sys2Proof.Machine.execEventSelectWrite m u j value s
  | .counterClear m u freeze => Sys2Proof.Machine.execCounterClear m u freeze s
  | .intervalBoundary => Sys2Proof.Machine.execIntervalBoundary s
  | .intervalNow m value en => Sys2Proof.Machine.execIntervalNow m value en s
  | .snapshotCopy u => Sys2Proof.Machine.execSnapshotCopy u s
  | .samplingEnable m value => Sys2Proof.Machine.execSamplingEnable m value s
  | .sampleRingWrite m value => Sys2Proof.Machine.execSampleRingWrite m value s
  | .sampleEnd n e => Sys2Proof.Machine.execSampleEnd n e s
  | .sampleRecordAck => Sys2Proof.Machine.execSampleRecordAck s
  | .outOfRegulation k => Sys2Proof.Machine.execOutOfRegulation k s
  | .droopHoldStart => Sys2Proof.Machine.execDroopHoldStart s
  | .throttleRelease n t => Sys2Proof.Machine.execThrottleRelease n t s
  | .powerOnResetRelease => Sys2Proof.Machine.execPowerOnResetRelease s
  | .perstRelease c => Sys2Proof.Machine.execPerstRelease c s
  | .configurationRequest pt fn off write => Sys2Proof.Machine.execConfigurationRequest pt fn off write s
  | .containNoticeAck h src => Sys2Proof.Machine.execContainNoticeAck h src s
  | .cacheRangeWalkDone => Sys2Proof.Machine.execCacheRangeWalkDone s
  | .dmCopyDone => Sys2Proof.Machine.execDmCopyDone s
  | .flashWriteDone => Sys2Proof.Machine.execFlashWriteDone s
  | .firmwareSlotVerified f => Sys2Proof.Machine.execFirmwareSlotVerified f s
  | .laneMarginingCommand ln active => Sys2Proof.Machine.execLaneMarginingCommand ln active s

end Sys2Proof.Machine
end

