-- ==== Sys2Proof/Machine/Step.lean ====
section
/-!
DEFINITION. Machine/Step.lean: one step of the device.
-/
namespace Sys2Proof.Machine

/-- The state without the command at the front of its queue. -/
def State.popped (s : State) (rest : List Instr) : State := { s with pending := rest }

/-- An idle step: the timebase runs on by one step of 4 ns (R394; log entry 2). -/
def State.idle (s : State) : State := { s with time := s.time + 4 }

/-- One step: the command at the front of the queue takes its effect; with none waiting, time passes (log entry 2). -/
def step (s : State) : Host.Outcome State Fault Refusal :=
  match s.pending with
  | [] => .next s.idle
  | c :: rest => exec c (s.popped rest)

/-- The state with the command that a word spells at the front of its queue; no word spells one, so the state as it is (log entry 1). -/
def State.withFetchWord (s : State) (nbits w : Nat) : State :=
  match decodeTableWord nbits w with
  | none => s
  | some c => { s with pending := c :: s.pending }

end Sys2Proof.Machine
end

