-- ==== Sys2Proof/Safety.lean ====
section
/-!
DEFINITION. Safety.lean: what every reachable state of the device satisfies, and what a safe step is.
-/
namespace Sys2Proof.Machine

/-- The invariant of the device: the register store and the Reservoir's bytes are in canonical form, and no register field holds more than its
width; the history queue, Headwater's command queue and its background commands keep their limits (R433, R465, R466). -/
structure State.Inv (s : State) : Prop where
  regs : Regs.wf s.regs = true
  mem : Memory.wf s.mem = true
  hist : s.hist.length ≤ histMax
  cmdq : s.cmdq.length ≤ cmdMax
  bg : s.bg.length ≤ bgMax

/-- A safe step: the device goes on. -/
def State.StepSafe (s : State) : Prop := ∃ t, step s = .next t

end Sys2Proof.Machine
end

