-- ==== Sys2Proof/Certificates/Slice0/Obligations.lean ====
section
/-!
DEFINITION. Certificates/Slice0/Obligations.lean: the statements about the device. Each takes the rules it names and says what the commands of
one family do: that each completes under conditions on the state and the operands alone, with what effect, and what it leaves unchanged.
-/
namespace Sys2Proof.Statements
open Sys2Proof Sys2Proof.Machine

/-- The command answers a next state, of which P holds. -/
def Completes (c : Instr) (s : State) (P : State → Prop) : Prop := ∃ t, exec c s = .next t ∧ P t

/-- Every register field but those at the given places holds what it held. -/
def KeepRegs (s t : State) (places : List Nat) : Prop := ∀ k, k ∉ places → Tab.get? t.regs k = Tab.get? s.regs k

/-- What a command starts from: nothing sent yet, and no safe action fired (the model's own records, log entry 5). -/
def begun (s : State) : State :=
  { s with
    out := []
    dev := { s.dev with ws := { s.dev.ws with fire := [] } } }

/-- What a write of a register starts from (R9): the low half that the master held is gone. -/
def writing (m : Master) (s : State) : State :=
  { begun s with
    dev := { (begun s).dev with io := { s.dev.io with low := s.dev.io.low.filter fun h => h.master != m } } }

/-- A write of the register at an address is in flight, and nothing waits behind it (R388). -/
def crossedAt (a : Nat) (s : State) : State :=
  { s with dev := { s.dev with io := { s.dev.io with crossing := Tab.put s.dev.io.crossing a { flight := true, shadow := none, kept := none } } } }

/-- Nothing but register fields differs. -/
def OnlyRegs (s t : State) : Prop := t = { s with regs := t.regs }

/-- The history queue holds an entry for the event, under the path code of the domain, with the level, argument and time (R433). The spec gives the events no
arguments: what a statement says of one is the model's choice (log entry 16). -/
def Logs (t : State) (ev : Nat) (dom : UnitId) (lvl arg time : Nat) : Prop :=
  ∃ e ∈ t.hist, e.event = ev ∧ e.path = pathCode dom ∧ e.level = lvl ∧ e.arg = arg % 2 ^ 64 ∧ e.time = time

/-- A fault of the class is open in the domain, raised by the unit (R430). -/
def Opens (t : State) (dom : UnitId) (cls : Nat) (u : UnitId) : Prop :=
  ∃ c ∈ Tab.getD t.dev.ws.faults (pathCode dom) [], c.cls = cls ∧ ∃ f ∈ c.list, f.unit = pathCode u

/-- Whether the history queue takes two more entries without losing one. -/
def Room (s : State) : Prop := s.hist.length + 2 ≤ histMax

/-- Whether the rate limit of an event at a unit lets it be logged (R429): none has been logged within its limit's record. -/
def Unlimited (s : State) (ev : Nat) (u : UnitId) : Prop := rateGroup ev = none ∨ Tab.get? s.dev.ws.stamps (limitKey ev u) = none

/-- A write of a register reaches its domain now: the unit is there, its domain has a clock, no write of it is in flight, and none of its domain waits in a
shadow (R386-R393). -/
def Writable (s : State) (u : UnitId) (id : RegId) (n : Nat) : Prop :=
  s.unitExists u = true ∧ s.regHere u id = true ∧ s.clocked (regDomain u id) = true ∧ s.crossFree (regAddr u id n) = true

/-- An Asryn command of an opcode runs as it comes (R465, R466): Headwater is ready, nothing in the queue is ahead of it, no running command holds it back,
and the safe state does not exclude it. -/
def RunsNow (s : State) (h : Hdr) (op : Nat) : Prop :=
  s.flag .root F.HW_STAT_READY = true ∧ s.flag .root F.HW_STAT_RECOVERY = false ∧ s.ahead = 0 ∧ s.blocked h op = false ∧
    (s.dev.ws.safe = false ∨ safeOpcode op = true)

/-- The command names the unit, which is there and not fenced (R32, R461). -/
def Names (s : State) (h : Hdr) (u : UnitId) : Prop := unitOfCode h.target.toNat = some u ∧ s.unavailable u = false

/-- A message has been sent, to another switch on a member of its effective set (R249). -/
def Gone (t : State) (o : Out) : Prop := o ∈ t.out ∨ ∃ y, .leave y o ∈ t.out

/-- A switch is this one, or its effective set has a member (R248, R251). -/
abbrev Reaches (s : State) (d : Fin 16) : Prop := d = s.swid ∨ s.members d ≠ []

/-- A message of a unit behind an internal port has been sent, or stands behind what of its class waits there (R117). -/
def Sent (t : State) (o : Out) : Prop := Gone t o ∨ ∃ k, Wait.out o ∈ Tab.getD t.dev.flood.waiting k []

/-- Nothing waits at an internal port (R117). -/
def Unheld (s : State) : Prop := (∀ n : Fin 8, ∀ c ∈ allCls, s.ingressFree (XPort.int n) c = true) ∧
  (∀ c ∈ allCls, s.shCount c < s.shMax c) ∧ 4096 < s.shFree

/-- No link waits in AUTH for Headwater to authenticate it (R262). -/
def NoneWaits (s : State) : Prop := ∀ e ∈ s.dev.fab.auth, e.2 = true

/-- No CTRL message of a type is held at a fabric link (R331). -/
def NoneHeld (s : State) (g : Fin 64) (ty : Nat) : Prop := ∀ m ∈ (s.flink g).ctrlHeld, m.toNat % 256 ≠ ty

/-- The reply to a command as one message over MCTP (R459). -/
def mctpReply (h : Hdr) (status first nfail : Nat) (data : List Nat) : Out :=
  .reply ((⟨h, status, first, nfail, data⟩ : Reply).head false ++ (⟨h, status, first, nfail, data⟩ : Reply).bytes)

/-- The command is answered on the path by which it came (R467): over MCTP, in an entry of the reply ring (sent, behind what waits at X7, held while the function may not master, or
waiting for a slot), or in the CMD_RES of its unit; a QUIET success over MCTP or a ring has no reply (R459). -/
def Answered (t : State) (h : Hdr) (status first nfail : Nat) (data : List Nat) : Prop :=
  match h.path with
  | .mctp => (h.quiet = true ∧ status = stOk) ∨ mctpReply h status first nfail data ∈ t.out
  | .ring pt => (h.quiet = true ∧ status = stOk) ∨ (⟨h, status, first, nfail, data⟩ : Reply) ∈ (t.ringOf pt).waiting ∨
      ∃ a ph, Sent t (.busWrite pt 0 a ((⟨h, status, first, nfail, data⟩ : Reply).head ph) .ring) ∨
        .busWrite pt 0 a ((⟨h, status, first, nfail, data⟩ : Reply).head ph) .ring ∈ Tab.getD t.dev.ports.held (fnKey pt 0) []
  | .unit u => t.fld u F.CMD_RES_STATUS = status ∧ t.fld u F.CMD_RES_FIRST = first ∧ t.fld u F.CMD_NFAIL_NFAIL = nfail ∧
      t.fld u F.CMD_RES_BUSY = 0

/-- Answered with success. -/
def Done (t : State) (h : Hdr) (data : List Nat) : Prop := Answered t h stOk 0 0 data

/-- The places that noting an event at a unit may change (R433, R496): the counters of the unit and of the root, and those of the history queue's end. -/
def notedPlaces (u : UnitId) : List Nat :=
  (List.range 9).map (fkey u F.GAU_CNT_COUNT) ++ (List.range 9).map (fkey .root F.GAU_CNT_COUNT) ++
    [fkey u F.GAU_OVF_OVF 0, fkey .root F.GAU_OVF_OVF 0, fkey .root F.DEV_WS_HEAD_NEXT_SEQ 0, fkey .root F.DEV_WS_HEAD_OVW 0]

/-- t is r but for what noting events of level L0 at the unit changes: their counts, their history entries, their rate limits, and the
records for a host. -/
def Notes (u : UnitId) (r t : State) : Prop :=
  KeepRegs r t (notedPlaces u) ∧ ∃ st su rec, t = { r with
    regs := t.regs
    hist := t.hist
    dev := { r.dev with
      ws := { r.dev.ws with stamps := st, supp := su }
      ports := { r.dev.ports with records := rec } } }

/-- No fault of the class is open in the domain, and fewer than nine classes are (R429, R430): a fault of the class has its own level there. -/
def FirstOf (s : State) (dom : UnitId) (cls : Nat) : Prop :=
  (∀ c ∈ Tab.getD s.dev.ws.faults (pathCode dom) [], c.cls ≠ cls) ∧ (Tab.getD s.dev.ws.faults (pathCode dom) []).length < 9

/-- t is r but for what raising events at the unit changes where no safe action fires: beside what `Notes` names, the open faults. -/
def Files (u : UnitId) (r t : State) : Prop :=
  KeepRegs r t (notedPlaces u) ∧ ∃ st su fa rec, t = { r with
    regs := t.regs
    hist := t.hist
    dev := { r.dev with
      ws := { r.dev.ws with stamps := st, supp := su, faults := fa }
      ports := { r.dev.ports with records := rec } } }

/-- The places of register fields of a unit. -/
def places (u : UnitId) (fs : List Fld) : List Nat := fs.map fun f => fkey u f 0

/-- The places where an answer on the path of a command leaves its status: the CMD_RES and CMD_NFAIL of its unit (R546). -/
def answerPlaces (h : Hdr) : List Nat :=
  match h.path with
  | .unit u => places u [F.CMD_RES_STATUS, F.CMD_RES_FIRST, F.CMD_NFAIL_NFAIL, F.CMD_RES_BUSY]
  | _ => []

/-- t is r but for what answering a command changes: the status in its unit, or the reply sent, held or waiting and its vector
(R467); at X7 both may stand behind what waits there (R117). -/
def Replied (h : Hdr) (r t : State) : Prop :=
  KeepRegs r t (answerPlaces h) ∧ (Unheld r → t.dev.flood = r.dev.flood) ∧ t = { r with
    regs := t.regs
    out := t.out
    dev := { r.dev with
      flood := { r.dev.flood with waiting := t.dev.flood.waiting }
      hw := { r.dev.hw with rings := t.dev.hw.rings }
      ports := { r.dev.ports with held := t.dev.ports.held, msixPend := t.dev.ports.msixPend } } }

/-- Whether a register field lies in a port or lane of a group and clears on a unit reset (R15, R271). -/
def groupCleared (g : Fin 64) (k : Nat) : Prop :=
  ∃ u f, keyField k = some (u, f) ∧ inGroup g u = true ∧ u ≠ .group g ∧ f.keep = .U

/-- Whether a register field clears on a unit reset of some units (R15, R552): it is of class U and lies in one of them. -/
def unitCleared (us : List UnitId) (k : Nat) : Prop :=
  ∃ v f, keyField k = some (v, f) ∧ v ∈ us ∧ f.keep = .U ∧ resetKeeps f = false

/-- A write of a group's power or mode is refused (R270, R451): the reason stands in REFUSE, and EV115 is noted at the group. -/
def GroupRefused (m : Master) (s t : State) (g : Fin 64) (n : Nat) : Prop := ∃ r,
  r.fld (.group g) F.GRP_STAT_REFUSE = n ∧ KeepRegs s r (places (.group g) [F.GRP_STAT_REFUSE]) ∧ OnlyRegs (writing m s) r ∧
    Notes (.group g) r t ∧ (Room s → Logs t 115 (.group g) 0 n s.time)

end Sys2Proof.Statements

open Sys2Proof Sys2Proof.Machine Sys2Proof.Statements

/-! ### Gauge (spec 18) -/

/-- R496, R497: a write of a selector with a code of the table, a volume code on an even counter only, sets the selector's four fields and changes no
other field; in the core domain, any other write leaves the selector and logs EV199 with the counter's number.
R500: a write of GAU_CTL with CLR 1 zeroes every counter, every slot account and the overflow bits of the unit and sets FREEZE as written; the
snapshots, the selectors and every other unit's fields stay. -/
def Obligations.SelectorsAndCounterClear : Prop :=
  (∀ (s : State) (m : Master) (u : UnitId) (j : Fin 8) (v : BitVec 32), Writable s u .GAU_EVSEL j.val →
    (gaugeCode (v.toNat % 256) = true ∧ (isVolume (v.toNat % 256) = true → j.val % 2 = 0) →
      Completes (.eventSelectWrite m u j v) s fun t =>
        t.fldn u F.GAU_EVSEL_EN j.val = v.toNat / 2 ^ 31 ∧ t.fldn u F.GAU_EVSEL_EVNUM j.val = v.toNat / 2 ^ 16 % 2 ^ 9 ∧
        t.fldn u F.GAU_EVSEL_CLSMASK j.val = v.toNat / 2 ^ 8 % 2 ^ 7 ∧ t.fldn u F.GAU_EVSEL_CODE j.val = v.toNat % 2 ^ 8 ∧
        KeepRegs s t [fkey u F.GAU_EVSEL_EN j.val, fkey u F.GAU_EVSEL_EVNUM j.val, fkey u F.GAU_EVSEL_CLSMASK j.val,
          fkey u F.GAU_EVSEL_CODE j.val] ∧
        t = { writing m s with
          regs := t.regs
          dev := { (writing m s).dev with io := { (writing m s).dev.io with crossing := t.dev.io.crossing } } }) ∧
    (¬(gaugeCode (v.toNat % 256) = true ∧ (isVolume (v.toNat % 256) = true → j.val % 2 = 0)) → gaugeDomain u = .core →
      Completes (.eventSelectWrite m u j v) s fun t =>
        (∀ f ∈ [F.GAU_EVSEL_EN, F.GAU_EVSEL_EVNUM, F.GAU_EVSEL_CLSMASK, F.GAU_EVSEL_CODE], t.fldn u f j.val = s.fldn u f j.val) ∧
        (Room s → Logs t 199 (s.domainOf u) 0 j.val s.time) ∧ t.mem = s.mem)) ∧
  (∀ (s : State) (m : Master) (u : UnitId) (freeze : Bool), Writable s u .GAU_CTL 0 →
    Completes (.counterClear m u freeze) s fun t =>
      (∀ j < 8, t.fldn u F.GAU_CNT_COUNT j = 0) ∧ (∀ a < 4, t.fldn u F.GAU_SLOT_COUNT a = 0) ∧ t.fld u F.GAU_OVF_OVF = 0 ∧
      t.fld u F.GAU_CTL_FREEZE = b2n freeze ∧
      KeepRegs s t ([fkey u F.GAU_CTL_FREEZE 0, fkey u F.GAU_OVF_OVF 0] ++ (List.range 8).map (fkey u F.GAU_CNT_COUNT) ++
        (List.range 4).map (fkey u F.GAU_SLOT_COUNT)) ∧
      t = { writing m s with
        regs := t.regs
        dev := { (writing m s).dev with io := { (writing m s).dev.io with crossing := t.dev.io.crossing } } })

/-- R502, R503: where the timebase stands at a multiple of the enabled interval, and at a write of GAU_IVL_CFG with NOW 1, the next boundary is numbered and
timed, and no other; a unit with a clock that copies its counters then takes them, its accounts and the boundary's number into its snapshot and
changes nothing else. -/
def Obligations.GaugeIntervals : Prop :=
  (∀ s : State, s.flag .root F.GAU_IVL_CFG_EN = true → s.time % (s.fld .root F.GAU_IVL_CFG_PERIOD_US * 1000) = 0 →
    Completes .intervalBoundary s fun t =>
      t.fld .root F.GAU_IVL_SEQ = (s.fld .root F.GAU_IVL_SEQ + 1) % 2 ^ 32 ∧ t.fld .root F.GAU_IVL_TIME_TIME = s.time % 2 ^ 64 ∧
      KeepRegs s t [fkey .root F.GAU_IVL_SEQ 0, fkey .root F.GAU_IVL_TIME_TIME 0] ∧ OnlyRegs (begun s) t) ∧
  (∀ s : State, s.flag .root F.GAU_IVL_CFG_EN = false ∨ s.time % (s.fld .root F.GAU_IVL_CFG_PERIOD_US * 1000) ≠ 0 →
    Completes .intervalBoundary s fun t => t = begun s) ∧
  (∀ (s : State) (m : Master) (v : BitVec 30) (en : Bool),
    Completes (.intervalNow m v en) s fun t =>
      t.fld .root F.GAU_IVL_SEQ = (s.fld .root F.GAU_IVL_SEQ + 1) % 2 ^ 32 ∧ t.fld .root F.GAU_IVL_TIME_TIME = s.time % 2 ^ 64 ∧
      t.fld .root F.GAU_IVL_CFG_EN = b2n en ∧ t.fld .root F.GAU_IVL_CFG_PERIOD_US = max 1 (min 1000000 (v.toNat % 2 ^ 20)) ∧
      KeepRegs s t [fkey .root F.GAU_IVL_SEQ 0, fkey .root F.GAU_IVL_TIME_TIME 0, fkey .root F.GAU_IVL_CFG_EN 0,
        fkey .root F.GAU_IVL_CFG_PERIOD_US 0] ∧ OnlyRegs (writing m s) t) ∧
  (∀ (s : State) (u : UnitId), s.unitExists u = true → s.clocked (gaugeDomain u) = true →
    Completes (.snapshotCopy u) s fun t =>
      (∀ j < 8, t.fldn u F.GAU_SNAP_COUNT j = s.fldn u F.GAU_CNT_COUNT j % 2 ^ 48) ∧
      (∀ a < 4, t.fldn u F.GAU_SLOT_SNAP_COUNT a = s.fldn u F.GAU_SLOT_COUNT a % 2 ^ 64) ∧
      t.fld u F.GAU_IVL_SEQ = s.fld .root F.GAU_IVL_SEQ % 2 ^ 32 ∧
      KeepRegs s t (fkey u F.GAU_IVL_SEQ 0 :: (List.range 8).map (fkey u F.GAU_SNAP_COUNT) ++
        (List.range 4).map (fkey u F.GAU_SLOT_SNAP_COUNT)) ∧ OnlyRegs (begun s) t)

/-- R507, R508, R510: enabling sampling starts the ring at 0 and loads every ingress's gap counter from its seed; a ring that lies in its area is taken
while sampling is off; a followed transaction that ends leaves its record's 64 bytes at the next place of the ring, where the ring has room; an
acknowledged record moves the tail. The bytes outside the record stay. The model's choices and readings that this rests on: log entries 6, 21, 96. -/
def Obligations.SamplingAndItsRing : Prop :=
  (∀ (s : State) (m : Master) (v : BitVec 31), s.flag .root F.GAU_SMP_CFG_EN = false →
    Completes (.samplingEnable m v) s fun t =>
      t.fld .root F.GAU_SMP_CFG_EN = 1 ∧ t.fld .root F.GAU_SMP_CFG_LOG2N = max 8 (min 24 (v.toNat % 2 ^ 5)) ∧
      t.fld .root F.GAU_SMP_CFG_SEED = v.toNat / 2 ^ 14 % 2 ^ 8 ∧
      t.fld .root F.GAU_SMP_PTR_HEAD = 0 ∧ t.fld .root F.GAU_SMP_PTR_TAIL = 0 ∧ t.dev.gau.flight = 0 ∧ t.dev.gau.seq = 0 ∧
      (∀ ix < 72, Tab.get? t.dev.gau.gens ix =
        some (smpLoad (max 8 (min 24 (v.toNat % 2 ^ 5))) (smpSeed (v.toNat / 2 ^ 14 % 2 ^ 8) ix))) ∧
      t = { writing m s with
        regs := t.regs
        dev := { (writing m s).dev with gau := t.dev.gau } }) ∧
  (∀ (s : State) (m : Master) (v : BitVec 64), s.flag .root F.GAU_SMP_CFG_EN = false →
    v.toNat / 2 ^ 12 % 2 ^ 18 * 4096 + 2 ^ max 12 (min 30 (v.toNat % 2 ^ 5)) ≤ 2 ^ 30 →
    Completes (.sampleRingWrite m v) s fun t =>
      t.fld .root F.GAU_SMP_RING_BASE = v.toNat / 2 ^ 12 % 2 ^ 18 ∧
      t.fld .root F.GAU_SMP_RING_LOG2SZ = max 12 (min 30 (v.toNat % 2 ^ 5)) ∧
      KeepRegs s t [fkey .root F.GAU_SMP_RING_BASE 0, fkey .root F.GAU_SMP_RING_LOG2SZ 0] ∧ OnlyRegs (writing m s) t) ∧
  (∀ (s : State) (n : Nat) (e : SmpEnd) (k : Sample), Tab.get? s.dev.gau.samples n = some k →
    (s.flag .root F.GAU_SMP_CFG_WRAP = true ∨
      (s.fld .root F.GAU_SMP_PTR_TAIL + s.dev.gau.flight + 1) % s.smpSize ≠ s.fld .root F.GAU_SMP_PTR_HEAD % s.smpSize) →
    Completes (.sampleEnd n e) s fun t =>
      (∃ dst < 4096, ∀ b < 64, memRead t.mem (0xC0000000 + s.fld .root F.GAU_SMP_RING_BASE * 4096 +
        (s.fld .root F.GAU_SMP_PTR_TAIL + s.dev.gau.flight) % s.smpSize * 64 + b) = (smpRecord k e s.dev.gau.seq s.time dst).getD b 0) ∧
      (∀ a, ¬(0xC0000000 + s.fld .root F.GAU_SMP_RING_BASE * 4096 +
          (s.fld .root F.GAU_SMP_PTR_TAIL + s.dev.gau.flight) % s.smpSize * 64 ≤ a ∧
          a < 0xC0000000 + s.fld .root F.GAU_SMP_RING_BASE * 4096 +
          (s.fld .root F.GAU_SMP_PTR_TAIL + s.dev.gau.flight) % s.smpSize * 64 + 64) → memRead t.mem a = memRead s.mem a) ∧
      t.dev.gau.samples = Tab.erase s.dev.gau.samples n ∧ t.dev.gau.flight = s.dev.gau.flight + 1 ∧
      t.dev.gau.seq = (s.dev.gau.seq + 1) % 2 ^ 32 ∧ t.regs = s.regs) ∧
  (∀ s : State, 0 < s.dev.gau.flight →
    Completes .sampleRecordAck s fun t =>
      t.dev.gau.flight = s.dev.gau.flight - 1 ∧
      t.fld .root F.GAU_SMP_PTR_TAIL = (s.fld .root F.GAU_SMP_PTR_TAIL + 1) % s.smpSize % 2 ^ 24 ∧ t.mem = s.mem)

/-! ### Registers (spec 01) and clock domains (spec 13) -/

/-- The registers whose writes no rule but R11, R14 and R551 governs: what is written is what they hold. -/
def plainRegs : List RegId := [.DEV_EPOCH_WARN, .DEV_MOV_HOLD, .DEV_FP_PO, .DEV_FP_RB, .DEV_STALL, .DEV_ORT_CFG,
  .DEV_ORT_CFG2, .DEV_RSV_CCTL, .DEV_PL_CTL, .RSV_SCRUB_CTL, .RSV_CE_CTL, .DEV_COH_CFG, .DEV_COH_SNP, .MRC_CFG, .MRC_RTO, .MRC_RNR,
  .MRC_REC, .DEV_FAB_CFG, .PRT_FAB_PEER, .PRT_BME_HOLD, .INS_CFG, .DEV_INS_RST, .DEV_INS_FRZ, .PRT_FL_CFG, .GRP_FC_CFG, .LN_RXEQ,
  .LN_RXDFE, .SLT_CFG, .SLT_TIME, .SLT_VTHR, .SLT_THM, .SLT_TAU, .SLT_TLIM, .SLT_NTC, .DEV_PWR_CAP, .DEV_THERM_CFG, .HW_WDT,
  .GAU_OVF, .GAU_SMP_PORTS]

/-- R9, R11, R551: a write of a whole plain register that places no reserved encoding brings each field to what its access code and its range make of
the written value, and changes no other field; a write of a low half is held for its master and changes no field; a write of a high
half takes the low half that its master holds. -/
def Obligations.RegisterWrite : Prop :=
  (∀ (s : State) (m : Master) (u : UnitId) (off n : Nat) (id : RegId) (v : BitVec 64), id ∈ plainRegs →
    s.regAt u off = some (.reg (regSpec (unitClass u) id) n 0) → Writable s u id n →
    (regLegal (regSpec (unitClass u) id) v.toNat = true →
      Completes (.registerWrite m u off .whole v) s fun t =>
        (∀ f ∈ (regSpec (unitClass u) id).fields, t.fldn u f n = match f.acc with
          | .rw => f.bring (f.part v.toNat) % 2 ^ f.w
          | .w1c => (s.fldn u f n ^^^ (s.fldn u f n &&& f.part v.toNat)) % 2 ^ f.w
          | _ => s.fldn u f n) ∧
        KeepRegs s t ((regSpec (unitClass u) id).fields.map fun f => fkey u f n) ∧
        t = { writing m s with
          regs := t.regs
          dev := { (writing m s).dev with io := { (writing m s).dev.io with crossing := t.dev.io.crossing } } }) ∧
    ((regSpec (unitClass u) id).wide = true →
      Completes (.registerWrite m u off .low v) s fun t =>
        t = { writing m s with
          dev := { (writing m s).dev with io := { (writing m s).dev.io with
            low := (writing m s).dev.io.low ++ [{ master := m, addr := regAddr u id n, value := v.toNat % 2 ^ 32 }] } } }) ∧
    (∀ low : Nat, (regSpec (unitClass u) id).wide = true → halfOf s.dev.io.low m (regAddr u id n) = some low →
      regLegal (regSpec (unitClass u) id) (low + v.toNat % 2 ^ 32 * 2 ^ 32) = true →
      Completes (.registerWrite m u off .high v) s fun t =>
        ∀ f ∈ (regSpec (unitClass u) id).fields, f.acc = .rw →
          t.fldn u f n = f.bring (f.part (low + v.toNat % 2 ^ 32 * 2 ^ 32)) % 2 ^ f.w)) ∧
  (∀ (s : State) (m : Master) (v : BitVec 64), Writable s .root .DEV_MOV_CTL 0 → regLegal (regSpec .root .DEV_MOV_CTL) v.toNat = true →
    Completes (.registerWrite m .root (regSpec .root .DEV_MOV_CTL).off .whole v) s fun t =>
      (∀ f ∈ (regSpec .root .DEV_MOV_CTL).fields, f.acc = .rw → t.fld .root f = f.bring (f.part v.toNat) % 2 ^ f.w) ∧
      (∀ k w, Tab.get? s.dev.mov.slots k = some w → Tab.get? t.dev.mov.slots k = some
        (if w.state = .ready ∧ t.fld .root F.DEV_MOV_CTL_HOLD_LINES < maskCount (s.marksOf k) then { w with state := .copy, word := 0, todo := 0 } else w)) ∧
      KeepRegs s t ((regSpec .root .DEV_MOV_CTL).fields.map fun f => fkey .root f 0) ∧ t.mem = s.mem)

/-- R9, R11, R12: a read of the low half of a 64-bit register returns it and latches the high half for the master; a read returns the value a field that
clears when read held and leaves the field zero, whichever master reads it, and a read of half a register so clears the fields of that half; no other field changes. -/
def Obligations.RegisterReads : Prop :=
  (∀ (s : State) (m : Master) (u : UnitId) (off n : Nat) (r : RegSpec), s.regAt u off = some (.reg r n 0) → r.wide = true →
    halfOf s.dev.io.gauge m (regAddr u r.id n) = none →
    Completes (.lowHalfRead m u off) s fun t =>
      t.out = [.regValue m (s.regValue u r n % 2 ^ 32)] ∧
      halfOf t.dev.io.high m (regAddr u r.id n) = some (s.regValue u r n / 2 ^ 32) ∧
      KeepRegs s t ((r.fields.filter fun f => f.acc == .rc).map fun f => fkey u f n) ∧
      t = { s with
        regs := t.regs
        out := t.out
        dev := { s.dev with io := { s.dev.io with high := t.dev.io.high, gauge := t.dev.io.gauge } } }) ∧
  (∀ (s : State) (m : Master) (u : UnitId) (off n : Nat) (r : RegSpec), s.regAt u off = some (.reg r n 0) →
    (r.fields.any fun f => f.acc == .rc) = true → r ∈ regsOf (unitClass u) → halfOf s.dev.io.gauge m (regAddr u r.id n) = none →
    Completes (.rcFieldRead m u off .whole) s fun t =>
      t.out = [.regValue m (s.regValue u r n)] ∧ (∀ f ∈ r.fields, f.acc = .rc → t.fldn u f n = 0) ∧
      KeepRegs s t ((r.fields.filter fun f => f.acc == .rc).map fun f => fkey u f n) ∧
      t = { s with
        regs := t.regs
        out := t.out
        dev := { s.dev with io := { s.dev.io with gauge := t.dev.io.gauge } } }) ∧
  (∀ (s : State) (m : Master) (u : UnitId) (off n : Nat) (r : RegSpec) (part : RegPart), s.regAt u off = some (.reg r n 0) →
    (r.fields.any fun f => f.acc == .rc) = true → r ∈ regsOf (unitClass u) → part = .low ∨ (part = .high ∧ r.wide = true) →
    Completes (.rcFieldRead m u off part) s fun t =>
      (∀ f ∈ r.fields, f.acc = .rc → (f.lo < 32 ↔ part = .low) → t.fldn u f n = 0) ∧
      KeepRegs s t ((r.fields.filter fun f => f.acc == .rc).map fun f => fkey u f n) ∧
      t = { s with
        regs := t.regs
        out := t.out
        dev := { s.dev with io := t.dev.io } })

/-- R383, R386-R388: the loss of a main clock clears its status bit, opens the fault of EV147 at the root, and brings the device safe state with that
event as its cause; that of a reference clock clears its quadrant's bit alone where the quadrant has no host or module port; that of AUXCLK moves the
always-on domain to the internal oscillator and opens the fault of EV149; a group PLL out of lock opens the fault of EV151 at its group; a clock taken
back sets its bit and logs EV150; the acknowledge of a crossing with nothing behind it ends it and changes nothing else. The model's choices and
readings that this rests on: log entries 16, 70, 100, 151. -/
def Obligations.ClockEvents : Prop :=
  (∀ (s : State) (c : MainClock),
    Completes (.sysclkLoss c) s fun t =>
      t.fld .root (match c with
        | .sysclk => F.DEV_CLK_STAT_SYSCLK_OK | .corePll => F.DEV_CLK_STAT_LOCK_CORE
        | .hwPll => F.DEV_CLK_STAT_LOCK_HW | .rsvPll => F.DEV_CLK_STAT_LOCK_RSV) = 0 ∧
      Opens t .root 7 .root ∧ t.dev.ws.safe = true ∧ (s.dev.ws.safe = false → t.fld .root F.DEV_WS_STAT_CAUSE_EV = 147)) ∧
  (∀ (s : State) (q : Fin 4), (∀ g : Fin 64, g.val / 16 = q.val → s.mode g ≠ .h ∧ s.mode g ≠ .m) →
    Completes (.refclkLoss q) s fun t =>
      (∀ p : Fin 4, bitOf (t.fld .root F.DEV_CLK_STAT_REFCLK_OK) p.val =
        (bitOf (s.fld .root F.DEV_CLK_STAT_REFCLK_OK) p.val && decide (p ≠ q))) ∧
      KeepRegs s t [fkey .root F.DEV_CLK_STAT_REFCLK_OK 0] ∧ OnlyRegs (begun s) t) ∧
  (∀ (s : State) (g : Fin 64), s.mode g ≠ .off → Completes (.groupPllUnlock g) s fun t => Opens t (.group g) 7 (.group g)) ∧
  (∀ s : State,
    Completes .auxclkLoss s fun t =>
      t.fld .root F.DEV_CLK_STAT_AUXCLK_OK = 0 ∧ t.fld .root F.DEV_CLK_STAT_AUX_INT = 1 ∧ Opens t .root 7 .root) ∧
  (∀ s : State, Room s → s.fld .root F.DEV_CLK_STAT_AUXCLK_OK = 0 →
    Completes (.clockRestored none) s fun t =>
      t.fld .root F.DEV_CLK_STAT_AUXCLK_OK = 1 ∧ t.fld .root F.DEV_CLK_STAT_AUX_INT = 0 ∧ Logs t 150 .root 0 4 s.time ∧ t.mem = s.mem) ∧
  (∀ (s : State) (q : Fin 4), Room s → bitOf (s.fld .root F.DEV_CLK_STAT_REFCLK_OK) q.val = false →
    (∀ g : Fin 64, g.val / 16 = q.val → s.mode g ≠ .h) →
    Completes (.clockRestored (some q)) s fun t =>
      bitOf (t.fld .root F.DEV_CLK_STAT_REFCLK_OK) q.val = true ∧ Logs t 150 .root 0 q.val s.time ∧ t.mem = s.mem) ∧
  (∀ (s : State) (u : UnitId) (off n : Nat) (r : RegSpec), s.regAt u off = some (.reg r n 0) →
    off < 0x14020000 → Tab.get? s.dev.io.crossing (regAddr u r.id n) = some { flight := true, shadow := none, kept := none } →
    s.dev.io.order = [] → Completes (.crossingAcknowledge u off) s fun t =>
      t = { begun s with
        dev := { (begun s).dev with io := { s.dev.io with crossing := Tab.erase s.dev.io.crossing (regAddr u r.id n) } } })

/-! ### Power and reset (spec 16) -/

/-- R444, R445: power-on reset in a held cold reset records a power-up; a rise of PWROK releases the cold reset: time starts again, nothing is in the
history queue, the straps and clocks are sampled, the cause is recorded, and the active slot's image boots, else the other slot's, else Headwater is
in recovery; PWROK low and a fault of VDD_AUX hold the cold reset in the safe state, without a change of CAUSE_EV. The model's choices and readings
that this rests on: log entries 9, 68. -/
def Obligations.ColdReset : Prop :=
  (∀ s : State, s.dev.pwr.phase = .held → s.dev.pwr.src ≠ 3 →
    Completes .powerOnResetRelease s fun t =>
      t.dev.pwr.src = 1 ∧ t.fld .root F.DEV_CLK_STAT_AUXCLK_OK = 1 ∧ KeepRegs s t [fkey .root F.DEV_CLK_STAT_AUXCLK_OK 0] ∧
      t = { begun s with
        regs := t.regs
        dev := { (begun s).dev with pwr := { s.dev.pwr with src := 1 } } }) ∧
  (∀ (s : State) (pmode : Fin 4) (pid refclk : Fin 16) (a b : Option Fw), s.dev.pwr.phase = .held →
    Completes (.pwrokRise pmode pid refclk a b) s fun t =>
      t.dev.pwr.phase = .boot ∧ t.dev.pwr.warm = false ∧ t.time = 0 ∧ t.mem = [] ∧ t.cmdq = [] ∧ t.bg = [] ∧
      t.fld .root F.DEV_STRAP_PMODE = pmode.val ∧ t.fld .root F.DEV_STRAP_PID = pid.val ∧
      t.fld .root F.DEV_CLK_STAT_REFCLK_OK = refclk.val ∧ t.fld .root F.DEV_CLK_STAT_SYSCLK_OK = 1 ∧
      t.fld .root F.DEV_RST_CAUSE_SRC = s.dev.pwr.src % 2 ^ F.DEV_RST_CAUSE_SRC.w ∧
      t.fld .root F.DEV_RST_CAUSE_TRIPPED = b2n s.dev.pwr.tripped ∧
      t.fld .root F.HW_STAT_RECOVERY = b2n (a.isNone && b.isNone) ∧
      (∀ f, a.or b = some f → t.dev.hw.run = f ∧ t.dev.hw.boot = f ∧ t.dev.hw.cold = f ∧
        t.dev.hw.fwSlot = (if a.isSome then s.dev.hw.fwSlot else if s.dev.hw.fwSlot = 0 then 1 else 0)) ∧
      t.dev.xlat = Dev.cold.xlat ∧ t.dev.mill = Dev.cold.mill ∧ t.dev.coh = Dev.cold.coh ∧ t.dev.hw.flash = s.dev.hw.flash) ∧
  (∀ (s : State) (c : Instr) (src : Nat), (c = .pwrokFall ∧ src = 2) ∨ (c = .auxRailFault ∧ src = 3) → s.dev.pwr.phase ≠ .held →
    Completes c s fun t =>
      t.dev.pwr.phase = .held ∧ t.dev.pwr.src = src ∧ t.dev.pwr.tripped = s.dev.pwr.trip ∧ t.dev.pwr.trip = false ∧
      t.dev.ws.safe = true ∧ t.dev.ws.aliveOn = false ∧ t.fld .root F.HW_STAT_READY = 0 ∧
      t.fld .root F.DEV_WS_STAT_CAUSE_EV = s.fld .root F.DEV_WS_STAT_CAUSE_EV ∧ (s.hist.length ≤ histMax → t.hist = s.hist) ∧
      t.dev.ws.faults = s.dev.ws.faults)

/-- R264, R444, R454, R474: the boot that follows a reset ends with the device running and Headwater ready, its stacks on, READY of the fabric set where
no group is in mode F, and, after a cold reset, its engines on and identity as the derivation of keys left it; a Headwater restart ends with Headwater
ready, and with ALIVE again outside the safe state. R455: a Headwater restart, by DEV_RST_CMD with its key and KIND 2 or by HW_RESTART, clears READY,
stops ALIVE and ends every command that waits or runs; the watchdog counts its expiry and restarts Headwater. R436: the firmware that starts then
reports ready with EV170, whose fault is open in the device domain. The model's choices and readings that this rests on: log entries 16, 64, 141, 151. -/
def Obligations.BootAndRestart : Prop :=
  ((∀ (s : State) (ident : Bool), s.dev.pwr.phase = .boot → s.flag .root F.HW_STAT_RECOVERY = false →
    Completes (.bootComplete ident) s fun t =>
      t.dev.pwr.phase = .run ∧ t.fld .root F.HW_STAT_READY = 1 ∧ t.fld .root F.DEV_PD_STAT2_HW = 1 ∧
      t.fld .root F.DEV_PD_STAT2_STK_ON = 15 ∧ ((∀ g, t.mode g ≠ .f) → t.fld .root F.DEV_FAB_STAT_READY = 1) ∧ (s.dev.pwr.warm = false → t.dev.hw.ident = ident) ∧
      (s.dev.pwr.warm = true → t.dev.hw.ident = s.dev.hw.ident)) ∧
  (∀ s : State, s.dev.pwr.phase = .run → s.dev.pwr.restart = true → s.flag .root F.HW_STAT_RECOVERY = false →
    Completes .headwaterReady s fun t =>
      t.fld .root F.HW_STAT_READY = 1 ∧ t.dev.pwr.restart = false ∧ t.dev.pwr.expiry = none ∧
      (s.dev.ws.safe = false → (s.dev.pwr.expiry = none ∨ FirstOf s .root 13) → t.dev.ws.aliveOn = true) ∧
      (s.dev.pwr.expiry ≠ none → Opens t .root 13 .root))) ∧
  ((∀ (s : State) (m : Master), s.dev.pwr.phase = .run → s.dev.pwr.restart = false →
    Completes (.devRstCmdRestart m 0x5752) s fun t =>
      t.dev.pwr.restart = true ∧ t.fld .root F.HW_STAT_READY = 0 ∧ t.dev.ws.aliveOn = false ∧ t.dev.hw.act = none ∧ t.cmdq = [] ∧ t.bg = []) ∧
  (∀ (s : State) (h : Hdr), RunsNow s h 0x0006 → unitOfCode h.target.toNat = some .root → s.dev.pwr.phase = .run → s.dev.pwr.restart = false →
    Completes (.hwRestart h) s fun t =>
      t.dev.pwr.restart = true ∧ t.fld .root F.HW_STAT_READY = 0 ∧ t.dev.ws.aliveOn = false ∧ t.cmdq = [] ∧ t.bg = [] ∧
      (h.path = .mctp → h.quiet = false → mctpReply h stOk 0 0 [] ∈ t.out)) ∧
  (∀ s : State, s.dev.pwr.phase = .run → s.dev.pwr.restart = false →
    Completes .watchdogExpiry s fun t =>
      t.dev.pwr.restart = true ∧ t.fld .root F.HW_STAT_READY = 0 ∧ t.cmdq = [] ∧ t.bg = [] ∧ t.dev.pwr.expiry = some s.time ∧
      t.fld .root F.HW_WDT_EXPIRED = min (2 ^ F.HW_WDT_EXPIRED.w - 1) (s.fld .root F.HW_WDT_EXPIRED + 1)))

/-- R427, R453, R454: RESET_L low, DEV_RST_CMD with its key and KIND 1, and DEV_RESET start a warm reset where none runs and the safe state does not
absorb it: the cause is recorded, the count of warm resets rises, Headwater stops, its queue and its background commands are gone; RESET_L that starts
none is recorded alone. R454, R457: with the stacks drained, a warm reset waits in self-refresh while RESET_L is low; with it high, and at its rise,
fields clear and the active slot's image boots, the Reservoir's bytes, the committed map, the history queue and the fenced units kept and no fault
open. A rise that ends no wait is recorded alone. The model's choices and readings that this rests on: log entries 66, 67, 151. -/
def Obligations.WarmReset : Prop :=
  ((∀ s : State, s.mayWarm = true →
    Completes .resetLAssert s fun t =>
      t.dev.pwr.resetLow = true ∧ t.dev.pwr.phase = .drain ∧ t.dev.pwr.warm = true ∧ t.fld .root F.DEV_RST_CAUSE_SRC = 4 ∧
      t.fld .root F.DEV_RST_CAUSE_WARMS = min (2 ^ F.DEV_RST_CAUSE_WARMS.w - 1) (s.fld .root F.DEV_RST_CAUSE_WARMS + 1) ∧
      t.fld .root F.HW_STAT_READY = 0 ∧ t.dev.ws.aliveOn = false ∧ t.cmdq = [] ∧ t.bg = []) ∧
  (∀ s : State, s.mayWarm = false →
    Completes .resetLAssert s fun t => t = { begun s with dev := { (begun s).dev with pwr := { s.dev.pwr with resetLow := true } } }) ∧
  (∀ (s : State) (m : Master), s.mayWarm = true →
    Completes (.devRstCmdWarm m 0x5752) s fun t =>
      t.dev.pwr.phase = .drain ∧ t.dev.pwr.warm = true ∧ t.fld .root F.DEV_RST_CAUSE_SRC = 5 ∧ t.fld .root F.HW_STAT_READY = 0 ∧
      t.cmdq = [] ∧ t.bg = []) ∧
  (∀ (s : State) (h : Hdr), RunsNow s h 0x0005 → unitOfCode h.target.toNat = some .root → s.mayWarm = true →
    Completes (.devReset h) s fun t =>
      t.dev.pwr.phase = .drain ∧ t.fld .root F.DEV_RST_CAUSE_SRC = 6 ∧ t.fld .root F.HW_STAT_READY = 0 ∧ t.cmdq = [] ∧ t.bg = [] ∧
      (h.path = .mctp → h.quiet = false → mctpReply h stOk 0 0 [] ∈ t.out))) ∧
  ((∀ (s : State) (a b : Option Fw), s.dev.pwr.phase = .drain → s.dev.pwr.resetLow = true →
    Completes (.warmResetDrainDone a b) s fun t => t.dev.pwr.phase = .drained ∧ t.dev.rsv.selfRefresh = true) ∧
  (∀ (s : State) (f : Fw) (b : Option Fw), s.dev.pwr.phase = .drain → s.dev.pwr.resetLow = false →
    Completes (.warmResetDrainDone (some f) b) s fun t =>
      t.dev.pwr.phase = .boot ∧ t.dev.hw.run = f ∧ t.dev.ws.faults = [] ∧ t.dev.mill.flows = [] ∧ t.cmdq = [] ∧ t.bg = []) ∧
  (∀ (s : State) (f : Fw) (b : Option Fw), s.dev.pwr.phase = .drained →
    Completes (.resetLRelease (some f) b) s fun t =>
      t.dev.pwr.phase = .boot ∧ t.dev.pwr.resetLow = false ∧ t.dev.hw.run = f ∧ t.dev.hw.boot = f ∧ t.dev.hw.cold = (if s.dev.pwr.warm then s.dev.hw.cold else f) ∧
      t.dev.ws.faults = [] ∧ t.dev.ws.fenced = s.dev.ws.fenced ∧ t.dev.mill.flows = [] ∧ t.dev.xlat.adv = none ∧
      (s.dev.xlat.adv = none → t.dev.xlat.map = s.dev.xlat.map) ∧ t.hist = s.hist ∧ t.mem = s.mem ∧ t.cmdq = [] ∧ t.bg = []) ∧
  (∀ (s : State) (a b : Option Fw), s.dev.pwr.phase ≠ .drained →
    Completes (.resetLRelease a b) s fun t => t = { begun s with dev := { (begun s).dev with pwr := { s.dev.pwr with resetLow := false } } }))

/-- R445: a sample of the rails that the supervisors watch is kept, with what has ever been below; a rail of the core group below its fault level opens
the fault of EV177 and brings the device safe state; VIN_SLOT below its own opens that of EV178 and takes the power-good of the channels it takes
down. R446, R447: a droop shows its rail in DEV_RAIL_STAT, halves the core clock and is counted once while it lasts; its end records its length and
starts the hold; the clock steps up while nothing holds it; the cap lowers and raises the ceiling by one step. The model's choices and readings that
this rests on: log entries 7, 16, 58, 151. -/
def Obligations.RailsAndCoreClock : Prop :=
  ((∀ (s : State) (below : BitVec 12),
    Completes (.railWarning below) s fun t =>
      t.fld .root F.DEV_RAIL_STAT_BELOW = below.toNat / 4 * 4 + s.fld .root F.DEV_RAIL_STAT_BELOW % 4 ∧
      (∀ r, 2 ≤ r → r < 12 → bitOf (t.fld .root F.DEV_RAIL_STAT_WARNED) r = (bitOf (s.fld .root F.DEV_RAIL_STAT_WARNED) r || bitOf below.toNat r)) ∧
      (∀ r, 2 ≤ r → r < 12 → bitOf below.toNat r = true → bitOf (s.fld .root F.DEV_RAIL_STAT_BELOW) r = false →
        (∀ q, q < 12 → q ≠ r → 2 ≤ q → bitOf below.toNat q = true → bitOf (s.fld .root F.DEV_RAIL_STAT_BELOW) q = true) →
        Room s → Unlimited s 176 .root → Logs t 176 .root 0 r s.time) ∧ t.mem = s.mem ∧ t.dev.pwr = s.dev.pwr) ∧
  (∀ (s : State) (r : Fin 12), r ≠ 8 → r ≠ 9 → r ≠ 11 →
    Completes (.railFault r) s fun t =>
      bitOf (t.fld .root F.DEV_RAIL_STAT_BELOW) r.val = true ∧ bitOf (t.fld .root F.DEV_RAIL_STAT_WARNED) r.val = true ∧
      Opens t .root 11 .root ∧ t.dev.ws.safe = true) ∧
  (∀ (s : State) (lost : List (Fin 64)),
    Completes (.vinSlotFault lost) s fun t =>
      bitOf (t.fld .root F.DEV_RAIL_STAT_BELOW) 11 = true ∧ bitOf (t.fld .root F.DEV_RAIL_STAT_WARNED) 11 = true ∧ Opens t .root 11 .root ∧
      ∀ k ∈ lost, (s.slotSt k).drives = true → t.slotPg k = false)) ∧
  ((∀ (s : State) (n : DroopRead),
    Completes (.droop n) s fun t =>
      bitOf (t.fld .root F.DEV_RAIL_STAT_BELOW) (b2n n.sram) = true ∧ bitOf (t.fld .root F.DEV_RAIL_STAT_WARNED) (b2n n.sram) = true ∧
      n.sensor.val ∈ t.dev.pwr.droop ∧ t.dev.pwr.steps = 0 ∧ t.dev.pwr.rising = false ∧ t.dev.pwr.since = some (s.dev.pwr.since.getD s.time) ∧
      t.coreSlow = true ∧
      t.fld .root F.DEV_DROOP_STAT_COUNT = (if s.dev.pwr.droop = [] then (s.fld .root F.DEV_DROOP_STAT_COUNT + 1) % 2 ^ 32
        else s.fld .root F.DEV_DROOP_STAT_COUNT) ∧
      (s.dev.pwr.droop = [] → Room s → Unlimited s 175 .root → Logs t 175 .root 0 0 s.time) ∧ t.mem = s.mem) ∧
  (∀ (s : State) (t0 : Nat), s.dev.pwr.since = some t0 →
    Completes .droopHoldStart s fun t =>
      t.fld .root F.DEV_DROOP_STAT_MAX_NS = max (s.fld .root F.DEV_DROOP_STAT_MAX_NS) (min 65535 (s.time - t0)) ∧
      t.fld .root F.DEV_RAIL_STAT_BELOW = s.fld .root F.DEV_RAIL_STAT_BELOW / 4 * 4 ∧
      KeepRegs s t [fkey .root F.DEV_DROOP_STAT_MAX_NS 0, fkey .root F.DEV_RAIL_STAT_BELOW 0] ∧
      t = { begun s with
        regs := t.regs
        dev := { (begun s).dev with pwr := { s.dev.pwr with droop := [], since := none, rising := true } } }) ∧
  (∀ s : State, s.dev.pwr.rising = true → s.dev.pwr.droop = [] → s.dev.pwr.throttled = [] → s.dev.pwr.steps < 8 →
    Completes .droopStepUp s fun t => t = { begun s with dev := { (begun s).dev with pwr := { s.dev.pwr with
      steps := s.dev.pwr.steps + 1
      rising := decide (s.dev.pwr.steps + 1 < 8) } } }) ∧
  (∀ (s : State) (w : BitVec 16), s.fld .root F.DEV_PWR_CAP_STEP ≤ 8 →
    Completes (.powerCapAdjust w) s fun t =>
      t.fld .root F.DEV_PWR_CAP_EST_W = min 511 w.toNat ∧
      t.fld .root F.DEV_PWR_CAP_STEP = (if s.fld .root F.DEV_PWR_CAP_CAP_W < w.toNat then s.fld .root F.DEV_PWR_CAP_STEP - 1
        else if w.toNat + 10 < s.fld .root F.DEV_PWR_CAP_CAP_W ∧ s.fld .root F.DEV_PWR_CAP_STEP < 8 then s.fld .root F.DEV_PWR_CAP_STEP + 1
        else s.fld .root F.DEV_PWR_CAP_STEP) ∧
      (s.fld .root F.DEV_PWR_CAP_STEP = 8 → s.fld .root F.DEV_PWR_CAP_CAP_W < w.toNat → Room s → Logs t 179 .root 0 w.toNat s.time) ∧
      t.mem = s.mem ∧ t.dev.pwr = s.dev.pwr))

/-- R448: a sensor that comes to WARN logs EV180 once; one that comes to THROT holds the core at 1.2 GHz and opens the fault of EV181; its release, 3 °C
below, lets the clock step up; one at TRIP drives THERMTRIP_L low and brings the device safe state with EV182. The model's choices and readings that
this rests on: log entries 7, 16, 58. -/
def Obligations.Temperatures : Prop :=
  (∀ (s : State) (n : Fin 21) (x : Int), s.tempLimit n.val F.DEV_THERM_CFG_DIE_WARN F.DEV_THERM_CFG_STK_WARN ≤ x →
    Completes (.temperatureWarn n x) s fun t =>
      n.val ∈ t.dev.pwr.warned ∧ Tab.get? t.dev.pwr.temps n.val = some x ∧
      (n.val ∉ s.dev.pwr.warned → Room s → Logs t 180 .root 0 n.val s.time) ∧ t.mem = s.mem) ∧
  (∀ (s : State) (n : Fin 21) (x : Int), n.val < 20 → n.val ∉ s.dev.pwr.throttled →
    s.tempLimit n.val F.DEV_THERM_CFG_DIE_THROT F.DEV_THERM_CFG_STK_THROT ≤ x →
    Completes (.thermalThrottle n x) s fun t =>
      n.val ∈ t.dev.pwr.throttled ∧ t.dev.pwr.steps = 0 ∧ t.dev.pwr.rising = false ∧ t.coreSlow = true ∧ Opens t .root 10 .root) ∧
  (∀ (s : State) (n : Fin 21) (x : Int), n.val ∈ s.dev.pwr.throttled →
    x + 30 ≤ s.tempLimit n.val F.DEV_THERM_CFG_DIE_THROT F.DEV_THERM_CFG_STK_THROT →
    Completes (.throttleRelease n x) s fun t =>
      n.val ∉ t.dev.pwr.throttled ∧ (∀ k ∈ s.dev.pwr.throttled, k ≠ n.val → k ∈ t.dev.pwr.throttled) ∧
      (s.dev.pwr.droop = [] → (∀ k ∈ s.dev.pwr.throttled, k = n.val) → s.dev.pwr.steps < 8 → t.dev.pwr.steps = s.dev.pwr.steps + 1) ∧
      t.mem = s.mem) ∧
  (∀ (s : State) (n : Fin 21) (x : Int), s.tempLimit n.val F.DEV_THERM_CFG_DIE_TRIP F.DEV_THERM_CFG_STK_TRIP ≤ x →
    Completes (.thermalTrip n x) s fun t => t.dev.pwr.trip = true ∧ t.dev.ws.safe = true ∧ Opens t .root 10 .root)

/-- R451: a write of GRP_PWR that asks for what holds changes nothing; in a group of mode OFF it stores OFF alone. A group that nothing hinders is powered
off: STATE and CHG are set, the class U fields of its ports and lanes clear, EV183 is noted; it keeps its mode. A hindered one is refused with its
reason and EV115. A group that is off is powered on, unless a change runs, which refuses it; a fenced one stays without power. R453, R552: UNIT_RESET
brings the class U fields of its unit and of every descendant to their reset values and no other field, but for its answer; a port in mode H enters
its port reset, one in mode F goes DOWN or trains again, one in mode M has no module; an instance that is enabled or frozen enters its reset. The
model's choices and readings that this rests on: log entries 59, 65, 67. -/
def Obligations.GroupPowerAndUnitReset : Prop :=
  (∀ (s : State) (m : Master) (g : Fin 64), s.flag (.group g) F.GRP_PWR_OFF = false → s.mode g ≠ .off →
    (∀ n, s.groupRefuse g (s.mode g) (s.split g) true = some n → Completes (.groupPowerOff m g) s fun t => GroupRefused m s t g n) ∧
    (s.groupRefuse g (s.mode g) (s.split g) true = none →
      (Completes (.groupPowerOff m g) s fun t =>
        t.fld (.group g) F.GRP_PWR_OFF = 1 ∧ t.fld (.group g) F.GRP_PWR_STATE = 1 ∧ t.fld (.group g) F.GRP_STAT_CHG = 1 ∧
        Tab.get? t.dev.ports.grpStep g.val = some 4 ∧ t.mode g = s.mode g) ∧
      (s.fabState g = 0 → Completes (.groupPowerOff m g) s fun t => ∃ r,
        r.fld (.group g) F.GRP_PWR_OFF = 1 ∧ r.fld (.group g) F.GRP_PWR_STATE = 1 ∧ r.fld (.group g) F.GRP_STAT_CHG = 1 ∧
        (∀ k, groupCleared g k → Tab.get? r.regs k = none) ∧
        (∀ k, ¬groupCleared g k → k ∉ places (.group g) [F.GRP_PWR_OFF, F.GRP_PWR_STATE, F.GRP_STAT_CHG] → Tab.get? r.regs k = Tab.get? s.regs k) ∧
        r = { writing m s with
          regs := r.regs
          dev := { (writing m s).dev with ports := { s.dev.ports with grpStep := Tab.put s.dev.ports.grpStep g.val 4 } } } ∧
        Notes .root r t ∧ (Room s → Logs t 183 .root 0 g.val s.time)))) ∧
  (∀ (s : State) (m : Master) (g : Fin 64),
    (s.flag (.group g) F.GRP_PWR_OFF = true → Completes (.groupPowerOff m g) s fun t => t = writing m s) ∧
    (s.flag (.group g) F.GRP_PWR_OFF = false → Completes (.groupPowerOn m g) s fun t => t = writing m s) ∧
    (s.mode g = .off →
      (Completes (.groupPowerOff m g) s fun t => t.flag (.group g) F.GRP_PWR_OFF = true ∧ KeepRegs s t (places (.group g) [F.GRP_PWR_OFF]) ∧
        OnlyRegs (writing m s) t) ∧
      (Completes (.groupPowerOn m g) s fun t => t.flag (.group g) F.GRP_PWR_OFF = false ∧ KeepRegs s t (places (.group g) [F.GRP_PWR_OFF]) ∧
        OnlyRegs (writing m s) t))) ∧
  (∀ (s : State) (m : Master) (g : Fin 64), s.flag (.group g) F.GRP_PWR_OFF = true → s.mode g ≠ .off →
    (s.flag (.group g) F.GRP_STAT_CHG = true → Completes (.groupPowerOn m g) s fun t => GroupRefused m s t g 1) ∧
    (s.flag (.group g) F.GRP_STAT_CHG = false → s.isFenced (.group g) = true → Completes (.groupPowerOn m g) s fun t =>
      t.fld (.group g) F.GRP_PWR_OFF = 0 ∧ t.fld (.group g) F.GRP_PWR_STATE = 0 ∧
      KeepRegs s t (places (.group g) [F.GRP_PWR_OFF, F.GRP_PWR_STATE]) ∧ OnlyRegs (writing m s) t) ∧
    (s.flag (.group g) F.GRP_STAT_CHG = false → s.isFenced (.group g) = false → Completes (.groupPowerOn m g) s fun t =>
      t.fld (.group g) F.GRP_PWR_OFF = 0 ∧ t.fld (.group g) F.GRP_PWR_STATE = 0 ∧ t.fld (.group g) F.GRP_STAT_CHG = 1 ∧
      KeepRegs s t (places (.group g) [F.GRP_PWR_OFF, F.GRP_PWR_STATE, F.GRP_STAT_CHG]) ∧
      t = { writing m s with
        regs := t.regs
        dev := { (writing m s).dev with ports := { s.dev.ports with grpStep := Tab.put s.dev.ports.grpStep g.val 3 } } })) ∧
  (∀ (s : State) (h : Hdr) (u : UnitId), RunsNow s h 0x0004 → Names s h u →
    (h.path = .mctp → Completes (.unitReset h) s fun t => ∃ st first n, Answered t h st first n [] ∧ (st = stOk → first = pathCode u ∧ n = 0)) ∧
    ((∀ v ∈ s.tree u, s.unavailable v = false) → (∀ v ∈ s.tree u, match v with | .port _ | .inst _ | .group _ => False | _ => True) →
      (∀ pt, h.path ≠ .ring pt) → Completes (.unitReset h) s fun t =>
        (∀ k, k ∉ answerPlaces h → unitCleared (s.tree u) k → Tab.get? t.regs k = none) ∧
        (∀ k, k ∉ answerPlaces h → ¬unitCleared (s.tree u) k → Tab.get? t.regs k = Tab.get? s.regs k) ∧
        Answered t h stOk (pathCode u) 0 [] ∧ t.mem = s.mem)) ∧
  (∀ (s : State) (h : Hdr) (pt : PortId), RunsNow s h 0x0004 → Names s h (.port pt) → h.path = .mctp →
    (s.mode pt.g = .h → Completes (.unitReset h) s fun t =>
      t.fld (.port pt) F.PRT_HSTAT_LSTATE = 4 ∧ t.fld (.port pt) F.PRT_HSTAT_PERST = s.fld (.port pt) F.PRT_HSTAT_PERST) ∧
    (s.mode pt.g = .f → Completes (.unitReset h) s fun t => t.fabState pt.g = 0 ∨ t.fabState pt.g = 1) ∧
    (s.mode pt.g = .m → Completes (.unitReset h) s fun t => t.fld (.port pt) F.PRT_MSTAT_CAP_X = 0 ∧ t.fld (.port pt) F.PRT_MSTAT_RATE = 0 ∧
      t.fld (.port pt) F.PRT_MSTAT_WIDTH = 0 ∧ t.fld (.port pt) F.PRT_MSTAT_FAIL_CODE = 0)) ∧
  (∀ (s : State) (h : Hdr) (i : Fin 1024), RunsNow s h 0x0004 → Names s h (.inst i) → h.path = .mctp → Completes (.unitReset h) s fun t =>
    (s.instState i ≠ 0 → t.instState i = 3) ∧ (s.instState i = 0 → t.instState i = 0) ∧
    (s.instState i = 1 ∨ s.instState i = 2 → t.flag (.inst i) F.INS_STAT_DRAINING = true))

/-! ### Slot channels (spec 14) -/

namespace Sys2Proof.Statements

/-- The refusal code of an operation on a channel (R399, R402), 0 where the channel accepts it: SLOT ON by the conditions of R399, SLOT OFF and SLOT ABORT by
the state, the identify operations never. -/
def slotOpCode (s : State) (k : Fin 64) (op : Nat) : Nat :=
  if op = 1 then (s.slotOnCode k).getD 0
  else if op = 2 then (if s.slotSt k ∈ [.empty, .discharge, .cooldown, .fenced] then 1 else 0)
  else if op = 3 then (if s.slotSt k ∈ [.armOn, .armOff, .reqOff] then 0 else 1)
  else 0

/-- The state in which an accepted operation leaves a channel (R400). -/
def slotOpState (s : State) (k : Fin 64) (op : Nat) : SlotSt :=
  match op, s.slotSt k with
  | 1, .on => .on
  | 1, _ => .ramp
  | 2, .off | 2, .armOn => .off
  | 2, _ => .discharge
  | 3, .armOn => .off
  | 3, _ => .on
  | _, st => st

/-- The state in which a released short press leaves a channel (R400, R414). -/
def pressState (s : State) (k : Fin 64) : SlotSt :=
  match s.slotSt k with
  | .off => if s.flag (.slot k) F.SLT_CFG_BTN_ON = true ∧ s.slotAdmit k = none then .armOn else .off
  | .armOn => .off
  | .on => .armOff
  | .armOff => .on
  | .reqOff => .on
  | .fault => .discharge
  | st => st

/-- The fields of a channel and of its bound port that entering a state may change. -/
def enterPlaces (s : State) (k : Fin 64) : List Nat :=
  places (.slot k) [F.SLT_STAT_STATE, F.SLT_STAT_GATE, F.SLT_STAT_PG, F.SLT_STAT_INLIM] ++
    (s.boundPort k).toList.map fun pt => fkey (.port pt) F.PRT_MSTAT_STATE 0

/-- r is the state q but for register fields, the end of a bound port's containment, and what ATTNLED shows. -/
def Entered (q r : State) : Prop :=
  r = { q with
    regs := r.regs
    dev := { q.dev with
      ws := { q.dev.ws with contained := r.dev.ws.contained }
      slot := { q.dev.slot with flash := r.dev.slot.flash } } } ∧ ∀ u ∈ r.dev.ws.contained, u ∈ q.dev.ws.contained

/-- What a channel holds once its gate is off by a cause (R398, R405, R406, R410). -/
def GateOff (t : State) (k : Fin 64) (st : SlotSt) (cause : Nat) : Prop :=
  t.slotState k = st.num ∧ t.fld (.slot k) F.SLT_STAT_GATE = 0 ∧ t.fld (.slot k) F.SLT_STAT_PG = 0 ∧
    t.fld (.slot k) F.SLT_STAT_CAUSE = cause

end Sys2Proof.Statements

/-- R400, R406, R407, R414: presence that becomes stable takes an empty channel to OFF with EV152 and marks one in COOLDOWN with EV155; a removal and an
opening latch with the gate driven turn it off into COOLDOWN and DISCHARGE with the fault of EV154, without it a removal goes to COOLDOWN with EV153;
a long press forces one off where it is enabled; COOLDOWN ends in OFF or EMPTY. Each is counted. The model's choices and readings that this rests on:
log entries 3, 16, 52. -/
def Obligations.SlotPresence : Prop :=
  (∀ (s : State) (k : Fin 64) (latch : Bool), s.flag (.slot k) F.SLT_STAT_PRSNT = false → s.slotSt k = .empty ∨ s.slotSt k = .cooldown →
    s.slotPg k = false →
    Completes (.presenceStable k latch) s fun t => ∃ r,
      r.fld (.slot k) F.SLT_STAT_PRSNT = 1 ∧ r.fld (.slot k) F.SLT_STAT_MRL = b2n latch ∧
      r.fld (.slot k) F.SLT_CNT_INSERT = min 65535 (s.fld (.slot k) F.SLT_CNT_INSERT + 1) ∧
      (s.slotSt k = .empty → r.slotState k = SlotSt.off.num) ∧
      (s.slotSt k = .cooldown → r.slotState k = SlotSt.cooldown.num ∧ r.fld (.slot k) F.SLT_STAT_REINS = 1) ∧
      KeepRegs s r (places (.slot k) [F.SLT_STAT_PRSNT, F.SLT_STAT_MRL, F.SLT_STAT_REINS, F.SLT_CNT_INSERT] ++ enterPlaces s k) ∧
      Entered (begun s) r ∧ Notes (.slot k) r t ∧
      (Room s → Logs t (if s.slotSt k = .empty then 152 else 155) (.slot k) 0 0 s.time)) ∧
  (∀ (s : State) (k : Fin 64), s.flag (.slot k) F.SLT_STAT_PRSNT = true →
    Completes (.removal k) s fun t =>
      t.fld (.slot k) F.SLT_STAT_PRSNT = 0 ∧
      ((s.slotSt k).drives = true → GateOff t k .cooldown 5 ∧ Opens t (.slot k) 9 (.slot k) ∧
        (s.dev.ws.safe = false → ∀ pt, s.boundPort k = some pt → s.mode pt.g = .m → s.portExists pt = true → s.isBound pt = some k →
          t.fld (.port pt) F.PRT_MSTAT_STATE = 0 ∧ t.isContained pt = true) ∧
        t.fld (.slot k) F.SLT_CNT_SURPRISE = min 255 (s.fld (.slot k) F.SLT_CNT_SURPRISE + 1)) ∧
      ((s.slotSt k).drives = false → t.slotSt k = (if s.slotSt k = .empty then .empty else if s.slotSt k = .fenced then .fenced else .cooldown) ∧
        (s.slotPg k = false → t.mem = s.mem ∧ (Room s → Logs t 153 (.slot k) 0 0 s.time)))) ∧
  (∀ (s : State) (k : Fin 64),
    Completes (.latchOpen k) s fun t =>
      t.fld (.slot k) F.SLT_STAT_MRL = 0 ∧
      ((s.slotSt k).drives = true → s.flag (.slot k) F.SLT_CFG_MRL_EN = true → GateOff t k .discharge 6 ∧ Opens t (.slot k) 9 (.slot k) ∧
        t.fld (.slot k) F.SLT_CNT_SURPRISE = min 255 (s.fld (.slot k) F.SLT_CNT_SURPRISE + 1)) ∧
      (¬((s.slotSt k).drives = true ∧ s.flag (.slot k) F.SLT_CFG_MRL_EN = true) →
        KeepRegs s t (places (.slot k) [F.SLT_STAT_MRL]) ∧ OnlyRegs (begun s) t)) ∧
  (∀ (s : State) (k : Fin 64),
    Completes (.longPress k) s fun t =>
      t.fld (.slot k) F.SLT_STAT_BTN = 1 ∧
      ((s.slotSt k).pgState = true → s.flag (.slot k) F.SLT_CFG_FORCE_EN = true → GateOff t k .discharge 7 ∧ Opens t (.slot k) 9 (.slot k)) ∧
      (pressIgnored (s.slotSt k) = true → Tab.get? t.dev.slot.flash k.val = some (s.time + flashNs) ∧ t.slotState k = s.slotState k ∧
        (s.slotSt k = .cooldown → t.fld (.slot k) F.SLT_STAT_REFUSE = 5) ∧
        KeepRegs s t (places (.slot k) [F.SLT_STAT_BTN, F.SLT_STAT_REFUSE]) ∧ Entered (begun s) t) ∧
      (pressIgnored (s.slotSt k) = false → ¬((s.slotSt k).pgState = true ∧ s.flag (.slot k) F.SLT_CFG_FORCE_EN = true) →
        KeepRegs s t (places (.slot k) [F.SLT_STAT_BTN]) ∧ OnlyRegs (begun s) t)) ∧
  (∀ (s : State) (k : Fin 64), s.slotSt k = .cooldown → s.slotPg k = false →
    Completes (.cooldownEnd k) s fun t =>
      t.slotSt k = (if s.flag (.slot k) F.SLT_STAT_PRSNT then .off else .empty) ∧
      (∀ pt, s.boundPort k = some pt → t.isContained pt = false) ∧
      KeepRegs s t (enterPlaces s k) ∧ Entered (begun s) t)

/-- R400, R402, R403, R414, R415: a short press moves a channel by its state, and is refused or ignored with 2 s of ATTNLED; the operations of SLT_CMD,
and SLOT_CMD over Headwater, take a channel to the state of their transition, or leave it and record the refusal with EV164, SLOT_CMD answering with
the code's status. The model's choices and readings that this rests on: log entries 16, 52, 70. -/
def Obligations.SlotOperations : Prop :=
  (∀ (s : State) (k : Fin 64), (s.slotPg k = true → s.slotSt k ≠ .armOn ∧ s.slotSt k ≠ .fault ∧ s.slotSt k ≠ .off) →
    Completes (.shortPress k) s fun t => ∃ r,
      r.fld (.slot k) F.SLT_STAT_BTN = 0 ∧ r.slotSt k = pressState s k ∧
      (s.slotSt k = .off → s.flag (.slot k) F.SLT_CFG_BTN_ON = true → ∀ c, s.slotAdmit k = some c →
        r.fld (.slot k) F.SLT_STAT_REFUSE = c ∧ Tab.get? r.dev.slot.flash k.val = some (s.time + flashNs)) ∧
      (pressIgnored (s.slotSt k) = true → Tab.get? r.dev.slot.flash k.val = some (s.time + flashNs)) ∧
      (s.slotSt k = .cooldown → r.fld (.slot k) F.SLT_STAT_REFUSE = 5) ∧
      KeepRegs s r (places (.slot k) [F.SLT_STAT_BTN, F.SLT_STAT_REFUSE] ++ enterPlaces s k) ∧ Entered (begun s) r ∧ Notes (.slot k) r t ∧
      (s.slotSt k = .off → s.flag (.slot k) F.SLT_CFG_BTN_ON = false → Room s → Logs t 163 (.slot k) 0 1 s.time) ∧
      (s.slotSt k = .reqOff → Room s → Logs t 163 (.slot k) 0 3 s.time)) ∧
  (∀ (s : State) (m : Master) (k : Fin 64) (c : Instr) (op : Nat),
    (c, op) ∈ [(.slotOn m k, 1), (.slotOff m k, 2), (.slotAbort m k, 3), (.identOn m k, 4), (.identOff m k, 5)] → Writable s (.slot k) .SLT_CMD 0 →
    (slotOpCode s k op = 0 →
      Completes c s fun t =>
        t.slotSt k = slotOpState s k op ∧ (op = 4 → t.fld (.slot k) F.SLT_STAT_IDENT = 1) ∧ (op = 5 → t.fld (.slot k) F.SLT_STAT_IDENT = 0) ∧
        (op = 1 → slotOpState s k op = .ramp → t.fld (.slot k) F.SLT_STAT_GATE = 1) ∧
        (s.slotSt k ≠ .discharge → slotOpState s k op = .discharge → t.fld (.slot k) F.SLT_STAT_GATE = 0 ∧ t.fld (.slot k) F.SLT_STAT_PG = 0) ∧
        (4 ≤ op ∨ s.slotPg k = false ∨ (slotOpState s k op).drives = true → ∃ r,
          KeepRegs s r (places (.slot k) [F.SLT_STAT_IDENT] ++ enterPlaces s k) ∧
          Entered { writing m s with dev := { (writing m s).dev with io := { (writing m s).dev.io with crossing := t.dev.io.crossing } } } r ∧
          Notes (.slot k) r t ∧ (op = 3 → s.slotSt k = .reqOff → Room s → Logs t 163 (.slot k) 0 3 s.time))) ∧
    (slotOpCode s k op ≠ 0 →
      Completes c s fun t => ∃ r,
        r.fld (.slot k) F.SLT_STAT_REFUSE = slotOpCode s k op ∧ KeepRegs s r (places (.slot k) [F.SLT_STAT_REFUSE]) ∧
        (op = 1 → Tab.get? r.dev.slot.flash k.val = some (s.time + flashNs)) ∧
        Entered { writing m s with dev := { (writing m s).dev with io := { (writing m s).dev.io with crossing := t.dev.io.crossing } } } r ∧
        Notes (.slot k) r t ∧ (Room s → Logs t 164 (.slot k) 0 (slotOpCode s k op) s.time))) ∧
  (∀ (s : State) (h : Hdr) (k : Fin 64) (op : BitVec 8), RunsNow s h 0x0500 → unitOfCode h.target.toNat = some (.slot k) →
    (s.isFenced (.slot k) = true → op.toNat = 1) → s.crossFree (regAddr (.slot k) .SLT_CMD 0) = true → 1 ≤ op.toNat → op.toNat ≤ 5 →
    Completes (.slotCmd h op) s fun t =>
      (slotOpCode s k op.toNat = 0 → t.slotSt k = slotOpState s k op.toNat ∧
        (h.path = .mctp ∨ s.slotPg k = false ∨ (slotOpState s k op.toNat).drives = true → Answered t h stOk (pathCode (.slot k)) 0 [])) ∧
      (slotOpCode s k op.toNat ≠ 0 → t.slotSt k = s.slotSt k ∧ t.fld (.slot k) F.SLT_STAT_REFUSE = slotOpCode s k op.toNat ∧
        Answered t h (slotStatus (slotOpCode s k op.toNat)) (pathCode (.slot k)) 1 [] ∧ t.mem = s.mem))

/-- R400, R405, R411: the cancel windows end in RAMP, in a refusal, or in REQ_OFF; RAMP ends in ON at PG_THR and in FAULT, cause 4, at its limit; power-good asserts in a state that may assert it while the limit timer is idle and falls with VOUT; DISCHARGE ends in OFF with the residual voltage;
AUTO_OFF discharges an unreferenced channel. The model's choices and readings that this rests on: log entries 3, 16, 52. -/
def Obligations.SlotPower : Prop :=
  (∀ (s : State) (k : Fin 64), s.slotSt k = .armOn ∨ s.slotSt k = .armOff → (s.slotPg k = true → s.slotSt k ≠ .armOn) →
    Completes (.armTimeout k) s fun t => ∃ r,
      (s.slotSt k = .armOn → s.slotAdmit k = none → r.slotState k = SlotSt.ramp.num ∧ r.fld (.slot k) F.SLT_STAT_GATE = 1) ∧
      (s.slotSt k = .armOn → ∀ c, s.slotAdmit k = some c → r.slotState k = SlotSt.off.num ∧ r.fld (.slot k) F.SLT_STAT_REFUSE = c ∧
        Tab.get? r.dev.slot.flash k.val = some (s.time + flashNs)) ∧
      (s.slotSt k = .armOff → r.slotState k = SlotSt.reqOff.num ∧ (Room s → Logs t 163 (.slot k) 0 2 s.time)) ∧
      KeepRegs s r (places (.slot k) [F.SLT_STAT_REFUSE] ++ enterPlaces s k) ∧ Entered (begun s) r ∧ Notes (.slot k) r t) ∧
  (∀ (s : State) (k : Fin 64), s.slotSt k = .ramp →
    Completes (.voutReachedPgThr k) s fun t =>
      t.slotState k = SlotSt.on.num ∧ t.fld (.slot k) F.SLT_STAT_GATE = 1 ∧
      KeepRegs s t (places (.slot k) [F.SLT_STAT_STATE, F.SLT_STAT_GATE]) ∧ OnlyRegs (begun s) t) ∧
  (∀ (s : State) (k : Fin 64), s.slotSt k = .ramp →
    Completes (.rampTimeout k) s fun t => GateOff t k .fault 4 ∧ Opens t (.slot k) 8 (.slot k)) ∧
  (∀ (s : State) (k : Fin 64), (s.slotSt k).pgState = true → s.slotPg k = false → s.flag (.slot k) F.SLT_STAT_INLIM = false →
    Completes (.pgAssert k) s fun t =>
      t.slotPg k = true ∧ (Room s → Logs t 156 (.slot k) 0 0 s.time) ∧ t.mem = s.mem ∧
      KeepRegs s t (places (.slot k) [F.SLT_STAT_PG] ++ notedPlaces (.slot k) ++
        (s.boundPort k).toList.flatMap fun pt => places (.port pt) [F.PRT_MSTAT_STATE, F.PRT_MSTAT_FAIL_CODE]) ∧
      (∀ pt, s.boundPort k = some pt → s.dev.pwr.phase = .run → s.grpClocked pt.g = true → s.refOk pt.g = true → s.isContained pt = false →
        s.isFenced (.slot k) = false → s.dev.ws.safe = false → s.fld (.port pt) F.PRT_MSTAT_STATE = 0 → s.enumStep pt = 0 →
        t.fld (.port pt) F.PRT_MSTAT_STATE = 1 ∧ t.enumStep pt = 1)) ∧
  (∀ (s : State) (k : Fin 64), (s.slotSt k).drives = true → s.slotPg k = true →
    Completes (.pgLost k) s fun t =>
      t.slotPg k = false ∧
      (s.boundPort k = none → t.slotState k = s.slotState k ∧ KeepRegs s t (places (.slot k) [F.SLT_STAT_PG] ++ notedPlaces (.slot k)) ∧
        t.mem = s.mem ∧ (Room s → Logs t 166 (.slot k) 0 0 s.time)) ∧
      (∀ pt, s.boundPort k = some pt → t.enumStep pt = 0 ∧ t.fld (.port pt) F.PRT_MSTAT_CAP_X = 0)) ∧
  (∀ (s : State) (k : Fin 64) (vout : BitVec 16), s.slotSt k = .discharge → s.slotPg k = false →
    Completes (.dischargeEnd k vout) s fun t => ∃ r,
      r.slotState k = SlotSt.off.num ∧ r.fld (.slot k) F.SLT_MEAS_VOUT = min 2047 (vout.toNat / 10) ∧
      KeepRegs s r (places (.slot k) [F.SLT_MEAS_VOUT] ++ enterPlaces s k) ∧ Entered (begun s) r ∧ Notes (.slot k) r t ∧
      (Room s → Logs t 157 (.slot k) 0 (min 2047 (vout.toNat / 10)) s.time)) ∧
  (∀ (s : State) (k : Fin 64) (pt : PortId), s.boundPort k = some pt → s.slotSt k = .reqOff → s.flag (.slot k) F.SLT_CFG_AUTO_OFF = true →
    s.portReferenced pt = false →
    Completes (.autoOff k) s fun t =>
      t.slotState k = SlotSt.discharge.num ∧ t.fld (.slot k) F.SLT_STAT_GATE = 0 ∧ t.fld (.slot k) F.SLT_STAT_PG = 0)

/-- R408-R413: the current limit runs the fault timer while the gate drives and stops it below; the expiry of the timer, a hard short and the junction
estimate at TJ_MAX take the channel to FAULT with causes 1, 2 and 3, counted; a failed pass transistor fences it; each sample sets the measurements
and the poles; ILIM is taken inside its ranges. The model's choices and readings that this rests on: log entries 7, 50, 51, 53. -/
def Obligations.SlotProtection : Prop :=
  (∀ (s : State) (k : Fin 64) (c : Instr) (v : Nat), (c, v) ∈ [(.currentLimit k, 1), (.outOfRegulation k, 0)] → (s.slotSt k).drives = true →
    Completes c s fun t => t.fld (.slot k) F.SLT_STAT_INLIM = v ∧ KeepRegs s t (places (.slot k) [F.SLT_STAT_INLIM]) ∧ OnlyRegs (begun s) t) ∧
  (∀ (s : State) (k : Fin 64), (s.slotSt k).drives = true → s.flag (.slot k) F.SLT_STAT_INLIM = true →
    Completes (.faultTimerExpiry k) s fun t => GateOff t k .fault 1 ∧ Opens t (.slot k) 8 (.slot k) ∧
      t.fld (.slot k) F.SLT_CNT_LIMIT = min 255 (s.fld (.slot k) F.SLT_CNT_LIMIT + 1)) ∧
  (∀ (s : State) (k : Fin 64), (s.slotSt k).drives = true →
    Completes (.hardShort k) s fun t => GateOff t k .fault 2 ∧ Opens t (.slot k) 8 (.slot k) ∧
      t.fld (.slot k) F.SLT_CNT_SHORT = min 255 (s.fld (.slot k) F.SLT_CNT_SHORT + 1)) ∧
  (∀ (s : State) (k : Fin 64), (s.slotSt k).drives = false → s.slotSt k ≠ .fenced →
    Completes (.passTransistorFailure k) s fun t => GateOff t k .fenced 9 ∧ Opens t (.slot k) 8 (.slot k) ∧ .slot k ∈ t.dev.ws.fenced) ∧
  (∀ (s : State) (k : Fin 64) (x : SlotSample),
    Completes (.thermalModelUpdate k x) s fun t =>
      t.fld (.slot k) F.SLT_MEAS_VOUT = min 2047 (x.vout / 10) ∧ t.fld (.slot k) F.SLT_MEAS_IOUT = min 32767 x.iout ∧
      t.fld (.slot k) F.SLT_STAT_MRL = b2n x.latch ∧ t.fld (.slot k) F.SLT_STAT_BTN = b2n x.button ∧
      ∃ q, Tab.get? t.dev.slot.heat k.val = some q ∧
        (∀ f R T old new, (f, R, T, old, new) ∈
          [((0 : Nat), s.fld (.slot k) F.SLT_THM_R1, s.fld (.slot k) F.SLT_TAU_TAU1, (s.slotHeat k).t1, q.t1),
            (1, s.fld (.slot k) F.SLT_THM_R2, s.fld (.slot k) F.SLT_TAU_TAU2, (s.slotHeat k).t2, q.t2),
            (2, s.fld (.slot k) F.SLT_THM_R3, s.fld (.slot k) F.SLT_TAU_TAU3, (s.slotHeat k).t3, q.t3)] → T ≠ 0 →
          new = fracAdd old (fracMul (fracSub (frac (((x.vin : Int) - x.vout) * x.iout * (R : Int)) 100000000) old) (frac 1 (10 * (T : Int))))) ∧
        (s.fld (.slot k) F.SLT_CFG_TSRC = 0 →
          q.tj = fracAdd (fracOf (signed 8 (s.fld (.slot k) F.SLT_TLIM_T_AMB))) (fracAdd q.t1 (fracAdd q.t2 q.t3))) ∧
        (fracGe q.tj (s.fld (.slot k) F.SLT_TLIM_TJ_MAX) = true → (s.slotSt k).drives = true → GateOff t k .fault 3 ∧ Opens t (.slot k) 10 (.slot k) ∧
          t.fld (.slot k) F.SLT_CNT_THERM = min 255 (s.fld (.slot k) F.SLT_CNT_THERM + 1)) ∧
        (¬(fracGe q.tj (s.fld (.slot k) F.SLT_TLIM_TJ_MAX) = true ∧ (s.slotSt k).drives = true) → t.mem = s.mem ∧
          KeepRegs s t (places (.slot k) [F.SLT_MEAS_VOUT, F.SLT_MEAS_IOUT, F.SLT_MEAS_TJ, F.SLT_STAT_MRL, F.SLT_STAT_BTN,
            F.SLT_STAT_NTC_BAD] ++ notedPlaces (.slot k)))) ∧
  (∀ (s : State) (m : Master) (k : Fin 64) (v : BitVec 32), Writable s (.slot k) .SLT_ILIM 0 →
    let ma := F.SLT_ILIM_ILIM_MA.part v.toNat
    let rs := max 100 (F.SLT_ILIM_RSHUNT_UOHM.part v.toNat)
    (500 ≤ ma ∧ ma ≤ 20000 ∧ 5000000 ≤ ma * rs ∧ ma * rs ≤ 50000000 →
      Completes (.currentLimitWrite m k v) s fun t =>
        t.fld (.slot k) F.SLT_ILIM_ILIM_MA = ma ∧ t.fld (.slot k) F.SLT_ILIM_RSHUNT_UOHM = rs ∧
        KeepRegs s t (places (.slot k) [F.SLT_ILIM_ILIM_MA, F.SLT_ILIM_RSHUNT_UOHM]) ∧ t.mem = s.mem) ∧
    (¬(500 ≤ ma ∧ ma ≤ 20000 ∧ 5000000 ≤ ma * rs ∧ ma * rs ≤ 50000000) → Room s →
      Completes (.currentLimitWrite m k v) s fun t =>
        Logs t 164 (.slot k) 0 0 s.time ∧ t.mem = s.mem ∧
        KeepRegs s t (places (.slot k) [F.SLT_ILIM_ILIM_MA, F.SLT_ILIM_RSHUNT_UOHM] ++ notedPlaces (.slot k))))

/-! ### Watershed (spec 15) -/

/-- R425, R434: a transmitter that has not reached idle opens the fault of EV167 and fences its group; an engine that faults opens the fault of EV168 and
counts a restart, and one that faults while it restarts, or before that fault is acknowledged, is fenced with EV169, or, of e4, e5 and e7, brings the
device safe state. A fenced engine raises nothing. The model's choices and readings that this rests on: log entries 16, 56, 151. -/
def Obligations.Fencing : Prop :=
  (∀ (s : State) (g : Fin 64), s.mode g ≠ .off → .group g ∉ s.dev.ws.fenced →
    Completes (.transmitterIdleFailure g) s fun t =>
      Opens t (.group g) 14 (.group g) ∧ (s.dev.ws.safe = false → .group g ∈ t.dev.ws.fenced)) ∧
  (∀ (s : State) (e : Fin 8), s.isFenced (.engine e) = false → s.dev.ws.safe = false → s.fld (.engine e) F.ENG_STAT_STATE ≠ 2 →
    (∀ c ∈ Tab.getD s.dev.ws.faults (pathCode (.engine e)) [], c.cls ≠ 12) →
    Completes (.engineFault e) s fun t =>
      Opens t (.engine e) 12 (.engine e) ∧ t.fld (.engine e) F.ENG_STAT_RESTARTS = min 255 (s.fld (.engine e) F.ENG_STAT_RESTARTS + 1)) ∧
  (∀ (s : State) (e : Fin 8), s.isFenced (.engine e) = false → s.dev.ws.safe = false →
    (s.fld (.engine e) F.ENG_STAT_STATE = 2 ∨ ∃ c ∈ Tab.getD s.dev.ws.faults (pathCode (.engine e)) [], c.cls = 12) →
    Completes (.engineFault e) s fun t =>
      Opens t (.engine e) 12 (.engine e) ∧ (e ∈ [4, 5, 7] → t.dev.ws.safe = true) ∧
      (e ∉ [4, 5, 7] → t.fld (.engine e) F.ENG_STAT_STATE = 3 ∧ .engine e ∈ t.dev.ws.fenced)) ∧
  (∀ (s : State) (e : Fin 8), s.isFenced (.engine e) = true → Completes (.engineFault e) s fun t => t = begun s)

/-- R431: FAULT_ACK closes every open fault of its class in the domain of its unit, and leaves those of other classes; a write of DEV_WS_ACK closes the
class of the open fault it names and changes nothing where it names none; FAULT_QUERY answers with the domain's open classes, the active one first.
R432, R441: FAULT_RELEASE ends the containment of a port that no open fault, walk or reset of an instance holds back, with EV172 at its group; in
factory test mode a GO raises the named event at the named unit as if its detector had fired. The model's choices and readings that this rests on: log
entries 15, 16, 55, 57, 151. -/
def Obligations.FaultManagement : Prop :=
  ((∀ (s : State) (h : Hdr) (u : UnitId) (cls : BitVec 8), RunsNow s h 0x0010 → Names s h u → cls.toNat ≤ 14 →
    Completes (.faultAck h cls) s fun t =>
      (∀ c ∈ Tab.getD t.dev.ws.faults (pathCode (s.domainOf u)) [], c.cls ≠ cls.toNat) ∧
      (∀ dom, ∀ c ∈ Tab.getD s.dev.ws.faults (pathCode dom) [], c.cls ≠ cls.toNat → c ∈ Tab.getD t.dev.ws.faults (pathCode dom) []) ∧
      (s.tree u = [u] → Answered t h stOk (pathCode u) 0 []) ∧ KeepRegs s t (answerPlaces h) ∧ t.mem = s.mem) ∧
  (∀ (s : State) (m : Master) (v : BitVec 32) (dom : UnitId), ∀ c ∈ Tab.getD s.dev.ws.faults (pathCode dom) [],
    (∃ f ∈ c.list, f.seq = some v.toNat) →
    Completes (.faultAckWrite m v) s fun t =>
      (∀ c' ∈ Tab.getD t.dev.ws.faults (pathCode dom) [], c'.cls ≠ c.cls) ∧ t.regs = s.regs ∧ t.mem = s.mem) ∧
  (∀ (s : State) (m : Master) (v : BitVec 32), s.openSeq v.toNat = false →
    Completes (.faultAckWrite m v) s fun t => t = writing m s) ∧
  (∀ (s : State) (h : Hdr) (u : UnitId), RunsNow s h 0x0011 → Names s h u →
    Completes (.faultQuery h) s fun t =>
      Done t h ((Tab.getD s.dev.ws.faults (pathCode (s.domainOf u)) []).flatMap fun c =>
        [c.cls, c.level, c.list.length] ++ c.list.map fun f => f.seq.getD (2 ^ 32)) ∧ Replied h (begun s) t)) ∧
  ((∀ (s : State) (h : Hdr) (pt : PortId), RunsNow s h 0x0012 → Names s h (.port pt) → s.isBound pt = none →
    Tab.getD s.dev.ws.faults (pathCode (.port pt)) [] = [] → s.walkHolds pt = false →
    (s.mode pt.g = .h → ∀ i ∈ s.portInsts pt, s.instState i ≠ 3) →
    Completes (.faultRelease h) s fun t =>
      t.isContained pt = false ∧ Done t h [] ∧ t.mem = s.mem ∧ (Room s → Logs t 172 (.group pt.g) 0 pt.p.val s.time)) ∧
  (∀ (s : State) (m : Master) (ev : Fin 512) (u : UnitId), s.flag .root F.HW_STAT_FTM = true → eventAt ev.val (unitClass u) = true →
    s.unitExists u = true →
    Completes (.faultInjection m (BitVec.ofNat 64 (pathCode u + ev.val * 2 ^ 32 + 2 ^ 63))) s fun t =>
      t.fld .root F.DEV_WS_INJ_EVENT = ev.val ∧ t.fld .root F.DEV_WS_INJ_PATH = pathCode u ∧
      (eventLevel ev.val u = 0 → Room s → Unlimited s ev.val u → Logs t ev.val (s.domainOf u) 0 0 s.time) ∧
      (eventLevel ev.val u ≠ 0 → Opens t (s.domainOf u) (eventClass ev.val) u) ∧
      (eventLevel ev.val u = 3 → t.dev.ws.safe = true) ∧
      (s.dev.ws.safe = false → s.isFenced u = false → ev.val = 167 ∧ (∃ g, u = .group g) ∨ ev.val = 169 ∧ (∃ e, u = .engine e ∧ fences e = true) →
        u ∈ t.dev.ws.fenced)) ∧
  (∀ (s : State) (m : Master) (v : BitVec 64), s.flag .root F.HW_STAT_FTM = true → bitOf v.toNat 63 = true → s.injectAt v.toNat = none → Room s →
    Completes (.faultInjection m v) s fun t => Logs t 174 .root 0 0 s.time ∧ t.dev.ws.faults = s.dev.ws.faults ∧
      t.fld .root F.DEV_WS_INJ_EVENT = s.fld .root F.DEV_WS_INJ_EVENT ∧ t.fld .root F.DEV_WS_INJ_PATH = s.fld .root F.DEV_WS_INJ_PATH))

/-! ### Headwater (spec 17), accesses by address (R281) and the debug master (R321, R489) -/

namespace Sys2Proof.Statements

/-- A device command of an opcode runs as it comes (R461, R465, R466). -/
def RunsOnDevice (s : State) (h : Hdr) (op : Nat) : Prop := RunsNow s h op ∧ unitOfCode h.target.toNat = some .root

/-- The access of an extent looks its map entry up in the map region and waits for it (R59): the extent lies in the map, its entry is neither sealed nor lost nor
in the extent cache, and e5 takes one more read. -/
def LooksUp (s : State) (x : Nat) : Prop :=
  x < s.fld .root F.DEV_MAP_SIZE_NEXT ∧ (∀ d, s.dev.xlat.adv = some d → Tab.get? d.sealed x = none) ∧ x ∉ s.dev.xlat.bad ∧
    x ∉ Tab.getD s.dev.xlat.cached (xcSet x) [] ∧ Tab.get? s.dev.xlat.misses x = none ∧ s.dev.xlat.misses.length < 256

/-- A packet of a command as it is received (R460): nothing malformed, of a known opcode. -/
def GoodPacket (p : Packet) : Prop := packetBad p = false ∧ ∀ o, packetCmd p ≠ .unknown o

/-- The background command of an opcode that runs for a unit, for the device where none is named (R466). -/
def Running (s : State) (op : Nat) (u : Option UnitId) (b : Bg) : Prop :=
  s.bg.find? (fun b => b.opcode == op && b.unit == u) = some b

end Sys2Proof.Statements

/-- R464, R511: PING answers with the versions, REG_READ with the register's value, which clears what clears on a read; REG_WRITE stores; the accesses to
pool memory start at translation and are denied where the Levee denies them; RSV_READ answers with the data, poisoned where a line is not readable;
RSV_WRITE is denied outside factory test mode and stores inside it. The model's choices and readings that this rests on: log entries 6, 15, 75. -/
def Obligations.AccessCommands : Prop :=
  (∀ (s : State) (h : Hdr), RunsOnDevice s h 0x0001 →
    Completes (.ping h) s fun t =>
      Done t h [s.dev.hw.run.ver.toNat, s.dev.hw.boot.ver.toNat, s.dev.hw.run.svn.toNat,
        s.regValue .root (regSpec .root .HW_STAT) 0 / 2 ^ 24] ∧ Replied h (begun s) t) ∧
  (∀ (s : State) (h : Hdr) (u : UnitId) (off : BitVec 32) (w : BitVec 8) (r : RegSpec) (n : Nat), RunsNow s h 0x0002 → Names s h u →
    s.regAt u off.toNat = some (.reg r n 0) → w.toNat = (if r.wide = true then 8 else 4) →
    halfOf s.dev.io.gauge .headwater (regAddr u r.id n) = none →
    Completes (.regRead h off w) s fun t =>
      Done t h (if r.wide = true then [s.regValue u r n % 2 ^ 32, s.regValue u r n / 2 ^ 32] else [s.regValue u r n]) ∧ (∀ f ∈ r.fields, f.acc = .rc → t.fldn u f n = 0) ∧ t.mem = s.mem ∧
      KeepRegs s t ((r.fields.filter fun f => f.acc == .rc).map (fun f => fkey u f n) ++ answerPlaces h)) ∧
  (∀ (s : State) (h : Hdr) (u : UnitId) (off : BitVec 32) (w : BitVec 8) (v : BitVec 64) (id : RegId) (n : Nat), RunsNow s h 0x0003 → Names s h u →
    id ∈ plainRegs → s.regAt u off.toNat = some (.reg (regSpec (unitClass u) id) n 0) → Writable s u id n →
    w.toNat = (if (regSpec (unitClass u) id).wide = true then 8 else 4) → regLegal (regSpec (unitClass u) id) v.toNat = true →
    Completes (.regWrite h off w v) s fun t =>
      Done t h [] ∧ (∀ f ∈ (regSpec (unitClass u) id).fields, f.acc = .rw → t.fldn u f n = f.bring (f.part v.toNat) % 2 ^ f.w) ∧
      KeepRegs s t ((regSpec (unitClass u) id).fields.map (fun f => fkey u f n) ++ answerPlaces h) ∧ t.mem = s.mem) ∧
  (∀ (s : State) (h : Hdr) (gpa : BitVec 64) (len : BitVec 32) (data : List Byte) (c : Instr) (read : Bool),
    (c, read) ∈ [(.poolRead h gpa len, true), (.poolWrite h gpa len data, false)] → RunsOnDevice s h (if read then 0x0600 else 0x0601) →
    1 ≤ len.toNat → gpa.toNat % 64 + len.toNat ≤ 64 → gpa.toNat + len.toNat ≤ 2 ^ 50 → (read = false → data.length = len.toNat) →
    (s.levee .engine (s.engIdent 8) 0 gpa.toNat (if read then .r else .w) = .allow → LooksUp s (gpa.toNat / 2 ^ 21) →
      Completes c s fun t =>
        (∃ p, Tab.get? t.dev.hw.pool 0 = some p ∧ p.hdr = some h ∧ p.read = read ∧ p.gpa = gpa.toNat ∧ p.len = len.toNat ∧
          p.left = [gpa.toNat / 64] ∧ p.bad = false) ∧
        (∃ m a, Tab.get? t.dev.xlat.misses (gpa.toNat / 2 ^ 21) = some m ∧ m.waiters = [a] ∧ m.entry = s.mapAt (gpa.toNat / 2 ^ 21) ∧
          a.origin = .headwater 0 ∧ a.gpa = gpa.toNat / 64 * 64 ∧ a.op.isRead = read) ∧ t.mem = s.mem) ∧
    (s.levee .engine (s.engIdent 8) 0 gpa.toNat (if read then .r else .w) = .deny →
      Completes c s fun t => Answered t h stDenied 0 1 [] ∧ t.dev.hw.pool = s.dev.hw.pool ∧ t.mem = s.mem ∧
        t.fld .root F.LEV_CNT_DENIED = (s.fld .root F.LEV_CNT_DENIED + 1) % 2 ^ F.LEV_CNT_DENIED.w)) ∧
  (∀ (s : State) (h : Hdr) (a : BitVec 64) (len : BitVec 32), RunsOnDevice s h 0x0602 → rangeOk a.toNat len.toNat (2 ^ 37) = true →
    s.levee .engine (s.engIdent 8) 1 a.toNat .r = .allow →
    Completes (.rsvRead h a len []) s fun t =>
      ((∀ q ∈ spanLines a.toNat len.toNat, s.rsvAt q.1 0 ≠ none) → Answered t h stOk 0 0 (s.rsvBytes a.toNat len.toNat s.fresh [])) ∧
      ((∃ q ∈ spanLines a.toNat len.toNat, s.rsvAt q.1 0 = none) → Answered t h stPoisoned 0 1 (s.rsvBytes a.toNat len.toNat s.fresh [])) ∧
      Replied h { begun s with fresh := s.fresh + 65 } t) ∧
  (∀ (s : State) (h : Hdr) (a : BitVec 64) (len : BitVec 32) (data : List Byte), RunsOnDevice s h 0x0603 →
    (s.flag .root F.HW_STAT_FTM = false →
      Completes (.rsvWrite h a len data) s fun t => Answered t h stDenied 0 1 [] ∧ Replied h (begun s) t) ∧
    (s.flag .root F.HW_STAT_FTM = true → s.levee .engine (s.engIdent 8) 1 a.toNat .w = .allow → data.length = 64 → len.toNat = 64 →
      a.toNat < 2 ^ 37 → a.toNat % 64 = 0 → (rsvPlace a.toNat).2.2 < 2 ^ 25 →
      0xC0000000 ≤ regionByte (rsvPlace a.toNat).1 (rsvPlace a.toNat).2.1 (rsvPlace a.toNat).2.2 →
      Completes (.rsvWrite h a len data) s fun t =>
        Done t h [] ∧
        (∀ i < 64, memRead t.mem (regionByte (rsvPlace a.toNat).1 (rsvPlace a.toNat).2.1 (rsvPlace a.toNat).2.2 + i) = data.getD i 0) ∧
        (∀ b, ¬(regionByte (rsvPlace a.toNat).1 (rsvPlace a.toNat).2.1 (rsvPlace a.toNat).2.2 ≤ b ∧
          b < regionByte (rsvPlace a.toNat).1 (rsvPlace a.toNat).2.1 (rsvPlace a.toNat).2.2 + 64) → memRead t.mem b = memRead s.mem b) ∧
        KeepRegs s t (answerPlaces h)))

/-- R460, R465, R466, R470: a good packet over MCTP joins the queue while it has room and is answered busy with EV193 where it has none; a malformed one
is answered so with EV185. The tail of a command ring and the head of a reply ring are taken modulo their sizes; a fetched entry moves its ring on and
joins the queue; the first queued command starts unless it must wait. The model's choices and readings that this rests on: log entries 15, 16, 36, 69,
70. -/
def Obligations.CommandPaths : Prop :=
  (∀ (s : State) (p : Packet), s.flag .root F.HW_STAT_RECOVERY = false → s.flag .root F.HW_STAT_READY = true →
    (GoodPacket p → s.cmdq.length < 64 →
      Completes (.mctpVendorMessage p) s fun t =>
        t = { begun s with cmdq := s.cmdq ++ [{
          hdr := packetHdr p .mctp, cmd := packetCmd p }] }) ∧
    (GoodPacket p → 64 ≤ s.cmdq.length →
      Completes (.mctpVendorMessage p) s fun t =>
        mctpReply (packetHdr p .mctp) stBusy 0 1 [] ∈ t.out ∧
        (Room s → Logs t 193 .root 0 0 s.time) ∧ t.cmdq = s.cmdq ∧ t.mem = s.mem ∧ KeepRegs s t (notedPlaces .root)) ∧
    (packetBad p = true →
      Completes (.mctpVendorMessage p) s fun t =>
        mctpReply (packetHdr p .mctp) stMalformed 0 1 [] ∈ t.out ∧
        (Room s → Tab.get? s.dev.ws.stamps (185 * 2 ^ 32 + 2 ^ 31) = none → Logs t 185 .root 0 (packetOp p) s.time) ∧
        t.cmdq = s.cmdq ∧ t.mem = s.mem ∧ KeepRegs s t (notedPlaces .root))) ∧
  (∀ (s : State) (pt : PortId) (v : BitVec 32), s.mgmt pt = true → s.crossFree (ringAddr pt (regSpec .ring .HW_RING_CTAIL)) = true →
    Completes (.commandRingTail pt v) s fun t =>
      (t.ringOf pt).cTail = v.toNat % 2 ^ 16 % s.cmdSlots pt ∧ (t.ringOf pt).cNext = (s.ringOf pt).cNext ∧ t.mem = s.mem ∧ t.cmdq = s.cmdq ∧
      (s.ring pt F.HW_RING_CFG_EN = 0 → t = { crossedAt (ringAddr pt (regSpec .ring .HW_RING_CTAIL)) (writing (.hostFn pt 0) s) with
        dev := { (crossedAt (ringAddr pt (regSpec .ring .HW_RING_CTAIL)) (writing (.hostFn pt 0) s)).dev with hw := { s.dev.hw with
          rings := Tab.put s.dev.hw.rings pt.ix { s.ringOf pt with cTail := v.toNat % 2 ^ 16 % s.cmdSlots pt } } } })) ∧
  (∀ (s : State) (pt : PortId) (p : Packet), s.ringBusy pt = true → s.ringOn pt = true → s.flag .root F.HW_STAT_RECOVERY = false →
    s.flag .root F.HW_STAT_READY = true → s.cmdq.length < 64 → GoodPacket p →
    (packetField p 8 4 = 0 ∨ (s.ortRoom (XPort.int 7) = true ∧ s.ingressFree (XPort.int 7) .iotx = true) → Completes (.commandRingFetch pt p) s fun t =>
      t.cmdq = s.cmdq ++ [{
        hdr := packetHdr p (.ring pt), cmd := packetCmd p }] ∧
      (t.ringOf pt).cNext = ((s.ringOf pt).cNext + 1) % s.cmdSlots pt ∧ t.mem = s.mem) ∧
    (packetField p 8 4 ≠ 0 → s.ingressFree (XPort.int 7) .iotx = false → Completes (.commandRingFetch pt p) s fun t =>
      t.cmdq = s.cmdq ∧ (t.ringOf pt).cNext = (s.ringOf pt).cNext ∧ Wait.ring pt ∈ Tab.getD t.dev.flood.waiting (qKey (XPort.int 7) .iotx) [] ∧ t.mem = s.mem)) ∧
  (∀ (s : State) (pt : PortId) (v : BitVec 32), s.mgmt pt = true → s.crossFree (ringAddr pt (regSpec .ring .HW_RING_RHEAD)) = true →
    ((s.ringOf pt).waiting = [] →
      Completes (.replyRingHead pt v) s fun t => t = { crossedAt (ringAddr pt (regSpec .ring .HW_RING_RHEAD)) (writing (.hostFn pt 0) s) with
        dev := { (crossedAt (ringAddr pt (regSpec .ring .HW_RING_RHEAD)) (writing (.hostFn pt 0) s)).dev with hw := { s.dev.hw with
          rings := Tab.put s.dev.hw.rings pt.ix { s.ringOf pt with rHead := v.toNat % 2 ^ 16 % s.replySlots pt } } } }) ∧
    (∀ o, (s.ringOf pt).waiting = [o] → v.toNat % 2 ^ 16 % s.replySlots pt ≠ ((s.ringOf pt).rTail + 1) % s.replySlots pt →
      Completes (.replyRingHead pt v) s fun t =>
        (t.ringOf pt).rHead = v.toNat % 2 ^ 16 % s.replySlots pt ∧ (t.ringOf pt).waiting = [] ∧
        (t.ringOf pt).rTail = ((s.ringOf pt).rTail + 1) % s.replySlots pt ∧
        (t.ringOf pt).phase = (if (s.ringOf pt).rTail + 1 = s.replySlots pt then !(s.ringOf pt).phase else (s.ringOf pt).phase) ∧
        (s.bme pt 0 = true → ∀ w ∈ s.ringWrites pt o, Sent t w) ∧ (s.bme pt 0 = false → ∀ w ∈ s.ringWrites pt o, w ∈ Tab.getD t.dev.ports.held (fnKey pt 0) []) ∧
        t.regs = s.regs ∧ t.mem = s.mem)) ∧
  (∀ (s : State) (q : QCmd) (rest : List QCmd), s.cmdq = q :: rest → s.dev.hw.act = none →
    (s.blocked q.hdr q.cmd.opcode = false → q.cmd = .ping → s.flag .root F.HW_STAT_RECOVERY = false → s.flag .root F.HW_STAT_READY = true →
      unitOfCode q.hdr.target.toNat = some .root →
      Completes (.commandStart false) s fun t => t.cmdq = rest ∧ t.mem = s.mem ∧
        (q.hdr.path = .mctp → q.hdr.quiet = false → ∃ d, mctpReply q.hdr stOk 0 0 d ∈ t.out)) ∧
    (s.blocked q.hdr q.cmd.opcode = true → Completes (.commandStart false) s fun t => t.cmdq = s.cmdq ∧ t.mem = s.mem))

/-- R469: ENTDAA gives the dynamic address; Headwater sets and answers its endpoint ID, and refuses 0 and 0xFF; it answers the message types 0, 5 and
0x7E, the version support of those, and one vendor ID. Nothing else changes. R259, R484, R485, R493: a responder answers GET_VERSION with 1.3, and,
each after the one before it, the capabilities, ECDSA P-384 with SHA-384, and then the digest and the parts of the chain of slot 0, challenges and
measurements, on a fabric link in AUTH with the chain of the group unit and without measurements; without identity it answers every request with
ERROR. A connection keeps its messages; nothing else changes. The model's choices and readings that this rests on: log entries 6, 11, 77, 78, 134. -/
def Obligations.ManagementProtocols : Prop :=
  ((∀ (s : State) (a : BitVec 7), Completes (.entdaa a) s fun t =>
    t = { s with out := [], dev := { s.dev with hw := { s.dev.hw with addr := some a.toNat } } }) ∧
  (∀ s : State, s.flag .root F.HW_STAT_READY = true ∨ s.flag .root F.HW_STAT_RECOVERY = true →
    (∀ e : BitVec 8, e.toNat ≠ 0 → e.toNat ≠ 255 →
      Completes (.setEndpointId e) s fun t =>
        t = { s with out := [.mctpCtl 1 [0, 0, e.toNat, 0]], dev := { s.dev with hw := { s.dev.hw with eid := e.toNat } } }) ∧
    (∀ e : BitVec 8, e.toNat = 0 ∨ e.toNat = 255 → Completes (.setEndpointId e) s fun t => t = { s with out := [.mctpCtl 1 [2]] }) ∧
    Completes .getEndpointId s (fun t => t = { s with out := [.mctpCtl 2 [0, s.dev.hw.eid, 0, 0]] }) ∧
    (∀ y : BitVec 8, y.toNat ∈ [0, 5, 0x7E, 0xFF] →
      Completes (.getMctpVersionSupport y) s fun t => ∃ v < 2 ^ 32, t = { s with out := [.mctpCtl 4 [0, 1, v]], fresh := s.fresh + 1 }) ∧
    (∀ y : BitVec 8, y.toNat ∉ [0, 5, 0x7E, 0xFF] →
      Completes (.getMctpVersionSupport y) s fun t => t = { s with out := [.mctpCtl 4 [0x80]] }) ∧
    Completes .getMessageTypeSupport s (fun t => t = { s with out := [.mctpCtl 5 [0, 3, 0, 5, 0x7E]] }) ∧
    (∀ sel : BitVec 8, Completes (.getVendorDefinedMessageSupport sel) s fun t =>
      t = { s with out := [.mctpCtl 6 (if sel.toNat = 0 then [0, 255, 0, (Config.otp 13).toNat % 2 ^ 16] else [2])] }))) ∧
  (∀ (s : State) (r : SpdmAt), s.spdmOn r = true → (∀ g, r = .link g → Unheld s) →
    (∀ c : Instr, (c = .getVersion r ∨ (∃ f, c = .getCapabilities r f) ∨ (∃ a b, c = .negotiateAlgorithms r a b) ∨ c = .getDigests r ∨
        (∃ a b d, c = .getCertificate r a b d) ∨ (∃ a b d, c = .challenge r a b d) ∨ ∃ a b d e, c = .getMeasurements r a b d e) →
      s.dev.hw.ident = false → Completes c s fun t => t = { s with out := [.spdm (spdmKey r) 0x7F [5, 0]] }) ∧
    (s.dev.hw.ident = true →
      Completes (.getVersion r) s (fun t => t = { s with
        out := [.spdm (spdmKey r) 0x04 [0x13]]
        dev := { s.dev with hw := { s.dev.hw with spdm := Tab.put s.dev.hw.spdm (spdmKey r) { caps := false, algs := false, challenged := false, log := [0x84, 4, 0x13] } } } }) ∧
      ∀ c : Spdm, s.spdmOf r = some c →
        (∀ f : BitVec 32, Completes (.getCapabilities r f) s fun t => ∃ l, t = { s with
          out := [.spdm (spdmKey r) 0x61 [spdmCapFlags r]]
          dev := { s.dev with hw := { s.dev.hw with spdm := Tab.put s.dev.hw.spdm (spdmKey r) { c with caps := true, log := c.log ++ l } } } }) ∧
        (∀ a b : BitVec 32, c.caps = true → bitOf a.toNat 7 = true → bitOf b.toNat 1 = true →
          Completes (.negotiateAlgorithms r a b) s fun t => ∃ l, t = { s with
            out := [.spdm (spdmKey r) 0x63 [0x80, 2]]
            dev := { s.dev with hw := { s.dev.hw with spdm := Tab.put s.dev.hw.spdm (spdmKey r) { c with algs := true, log := c.log ++ l } } } }) ∧
        (∀ a b : BitVec 32, c.caps = true → c.algs = false → ¬(bitOf a.toNat 7 = true ∧ bitOf b.toNat 1 = true) →
          Completes (.negotiateAlgorithms r a b) s fun t => t = { s with out := [.spdm (spdmKey r) 0x7F [1, 0]] }) ∧
        (c.algs = false → Completes (.getDigests r) s fun t => t = { s with out := [.spdm (spdmKey r) 0x7F [4, 0]] }) ∧
        (c.algs = true →
          Completes (.getDigests r) s (fun t => ∃ l, t = { s with
            out := [.spdm (spdmKey r) 0x01 [1, s.chainDigest (spdmWho r)]]
            dev := { s.dev with hw := { s.dev.hw with spdm := Tab.put s.dev.hw.spdm (spdmKey r) { c with log := c.log ++ l } } } }) ∧
          (∀ o n : BitVec 16, o.toNat < s.chainLen (spdmWho r) →
            Completes (.getCertificate r 0 o n) s fun t => ∃ l part, part = s.chainPart (spdmWho r) o.toNat n.toNat ∧ t = { s with
              out := [.spdm (spdmKey r) 0x02 (part.length :: (s.chainLen (spdmWho r) - o.toNat - part.length) :: part)]
              dev := { s.dev with hw := { s.dev.hw with spdm := Tab.put s.dev.hw.spdm (spdmKey r) { c with log := c.log ++ l } } } }) ∧
          (∀ (nonce : BitVec 256) (y : BitVec 8), y.toNat = 0 ∨ (y.toNat ∈ [1, 255] ∧ spdmWho r = 0) → (∀ g : Fin 64, r = .link g → g.val ∉ s.dev.fab.passed) →
            Completes (.challenge r 0 nonce y) s fun t => ∃ l n, t = { s with
              out := [.spdm (spdmKey r) 0x03 (s.chainDigest (spdmWho r) :: n :: s.measSummary y.toNat ++ [s.signature (spdmWho r) (c.log ++ l)])]
              fresh := s.fresh + 1
              dev := { s.dev with hw := { s.dev.hw with spdm := Tab.put s.dev.hw.spdm (spdmKey r) { c with challenged := true, log := c.log ++ l } } } }) ∧
          (∀ (nonce : BitVec 256) (g : Fin 64), r = .link g → (g.val, true) ∈ s.dev.fab.auth → g.val ∈ s.dev.fab.passed → NoneWaits s → Tab.get? s.dev.fab.early g.val = none →
            Completes (.challenge r 0 nonce 0) s fun t => t.fabState g = 3 ∧
              Tab.get? t.dev.fab.joining g.val = some { identityOk := false, crinitSent := true, crinitRx := (s.flink g).crinit }) ∧
          (∀ (op : BitVec 8) (nonce : BitVec 256), spdmWho r = 0 → 1 ≤ op.toNat → op.toNat ≤ 13 →
            Completes (.getMeasurements r op false 0 nonce) s fun t => ∃ l, t = { s with
              out := [.spdm (spdmKey r) 0x60 [0, op.toNat, s.measurement op.toNat]]
              fresh := s.fresh + 1
              dev := { s.dev with hw := { s.dev.hw with spdm := Tab.put s.dev.hw.spdm (spdmKey r) { c with log := c.log ++ l } } } }) ∧
          (∀ (op : BitVec 8) (sign : Bool) (slot : BitVec 8) (nonce : BitVec 256), spdmWho r ≠ 0 →
            Completes (.getMeasurements r op sign slot nonce) s fun t => t = { s with out := [.spdm (spdmKey r) 0x7F [7, 0]] }) ∧
          (∀ nonce : BitVec 256, spdmWho r = 0 →
            Completes (.getMeasurements r 0 true 0 nonce) s fun t => ∃ l n, t = { s with
              out := [.spdm (spdmKey r) 0x60 [13, n, s.signature (spdmWho r) (c.log ++ l)]]
              fresh := s.fresh + 1
              dev := { s.dev with hw := { s.dev.hw with spdm := Tab.put s.dev.hw.spdm (spdmKey r) { c with log := c.log ++ l } } } }))))

/-- R471, R473, R481: a chunk is written in the background to a slot that it fits, and FW_WRITE to the active one is denied; when it is in flash, the
bytes stand there, a firmware slot being erased before the chunk at its start; CFG_COMMIT names the slot whose image is whole for the next reset.
R472, R476-R478: FW_ACTIVATE starts a live activation; a slot that verifies gives its image, one that does not ends the activation as an invalid
parameter; at the activation point the new image runs and the command is answered; the old image is unloaded with EV187 once nothing of it is left; an
image not ready in time ends it with a firmware error and EV194. The model's choices and readings that this rests on: log entries 16, 64, 71, 112,
152. -/
def Obligations.FirmwareImages : Prop :=
  ((∀ (s : State) (h : Hdr) (off : BitVec 32) (slot : BitVec 8) (data : List Byte) (n : Fin 2), slot.toNat = n.val →
    (RunsOnDevice s h 0x0700 → off.toNat + data.length ≤ 12 * 2 ^ 20 →
      (n ≠ s.dev.hw.fwSlot → Completes (.fwWrite h off slot data) s fun t =>
        t = { begun s with bg := s.bg ++ [Bg.mk h 0x0700 none (((if n = 0 then 0x00010000 else 0x00C10000) + off.toNat) :: data.map fun b => b.toNat)] }) ∧
      (n = s.dev.hw.fwSlot → Completes (.fwWrite h off slot data) s fun t => Answered t h stDenied 0 1 [] ∧ Replied h (begun s) t)) ∧
    (RunsOnDevice s h 0x0703 → off.toNat + data.length ≤ 2 * 2 ^ 20 →
      Completes (.cfgWrite h off slot data) s fun t =>
        t = { begun s with bg := s.bg ++ [Bg.mk h 0x0703 none (((if n = 0 then 0x01810000 else 0x01A10000) + off.toNat) :: data.map fun b => b.toNat)] })) ∧
  (∀ (s : State) (b : Bg) (a : Nat) (data : List Byte), s.bg = [b] → b.unit = none → b.opcode = 0x0700 ∨ b.opcode = 0x0703 →
    b.args = a :: data.map (fun d => d.toNat) →
    Completes .flashWriteDone s fun t =>
      (∀ i < data.length, t.flashByte (a + i) = data.getD i 0) ∧
      (∀ k, ¬(a ≤ k ∧ k < a + data.length) → t.flashByte k =
        (if b.opcode = 0x0700 ∧ (a = 0x00010000 ∨ a = 0x00C10000) ∧ a ≤ k ∧ k < a + 12 * 2 ^ 20 then 0xFF else s.flashByte k)) ∧
      t.bg = [] ∧ Done t b.hdr [] ∧ KeepRegs s t (answerPlaces b.hdr) ∧ t.mem = s.mem) ∧
  (∀ (s : State) (h : Hdr) (slot : BitVec 8) (n : Fin 2), RunsOnDevice s h 0x0704 → slot.toNat = n.val →
    (s.cfgRecords n ≠ none → Completes (.cfgCommit h slot) s fun t =>
      Done t h [] ∧ Replied h { begun s with dev := { (begun s).dev with hw := { s.dev.hw with cfgSlot := n } } } t) ∧
    (s.cfgRecords n = none → Completes (.cfgCommit h slot) s fun t => Answered t h stInvalid 0 1 [] ∧ Replied h (begun s) t))) ∧
  ((∀ (s : State) (h : Hdr) (slot : BitVec 8) (n : Fin 2), RunsOnDevice s h 0x0701 → slot.toNat = n.val → s.dev.hw.act = none →
    Completes (.fwActivate h slot) s fun t =>
      t.fld .root F.HW_STAT_ACT = 1 ∧ KeepRegs s t (places .root [F.HW_STAT_ACT]) ∧
      t = { begun s with
        regs := t.regs
        bg := s.bg ++ [{ hdr := h, opcode := 0x0701, unit := none, args := [] }]
        dev := { (begun s).dev with hw := { s.dev.hw with
          act := some { hdr := h, slot := n, step := 0, fw := s.dev.hw.run, old := s.dev.hw.run, oldBg := [], oldQ := 0 } } } }) ∧
  (∀ (s : State) (a : Activation), s.dev.hw.act = some a → a.step = 0 →
    (∀ f : Fw, Completes (.firmwareSlotVerified (some f)) s fun t =>
      t = { begun s with dev := { (begun s).dev with hw := { s.dev.hw with act := some { a with step := 1, fw := f } } } }) ∧
    (∀ b, Running s 0x0701 none b → Completes (.firmwareSlotVerified none) s fun t =>
      t.dev.hw.act = none ∧ t.fld .root F.HW_STAT_ACT = 0 ∧ Answered t b.hdr stInvalid 0 1 [] ∧ t.dev.hw.run = s.dev.hw.run ∧
      KeepRegs s t (places .root [F.HW_STAT_ACT] ++ answerPlaces b.hdr) ∧ t.mem = s.mem)) ∧
  (∀ (s : State) (a : Activation) (b : Bg), s.dev.hw.act = some a → a.step = 1 → Running s 0x0701 none b → s.flag .root F.HW_STAT_RECOVERY = false →
    Completes .activationPoint s fun t =>
      t.dev.hw.run = a.fw ∧ t.fld .root F.HW_STAT_SLOT = a.slot.val ∧ t.fld .root F.HW_FW_VER_VER = a.fw.ver.toNat ∧
      t.fld .root F.HW_FW_VER_SVN = a.fw.svn.toNat ∧ t.dev.hw.fwSlot = s.dev.hw.fwSlot ∧ Done t b.hdr [] ∧
      t.dev.hw.act = some { a with step := 2, oldBg := s.bg.filter (fun c => !(c.opcode == 0x0701 && c.unit == none)), oldQ := s.cmdq.length } ∧
      KeepRegs s t (places .root [F.HW_STAT_SLOT, F.HW_FW_VER_VER, F.HW_FW_VER_SVN] ++ answerPlaces b.hdr) ∧ t.mem = s.mem) ∧
  (∀ (s : State) (a : Activation), s.dev.hw.act = some a → a.step = 2 → a.oldQ = 0 → (∀ b ∈ s.bg, b ∉ a.oldBg) →
    Completes .oldImageUnload s fun t => ∃ r,
      r.fld .root F.HW_STAT_ACT = 0 ∧ KeepRegs s r (places .root [F.HW_STAT_ACT]) ∧
      r = { begun s with regs := r.regs, dev := { (begun s).dev with hw := { s.dev.hw with fwSlot := a.slot, act := none } } } ∧
      Notes .root r t ∧ (Room s → Logs t 187 .root 0 a.slot.val s.time)) ∧
  (∀ (s : State) (a : Activation) (b : Bg), s.dev.hw.act = some a → a.step = 1 → Running s 0x0701 none b →
    Completes .activationTimeout s fun t =>
      t.dev.hw.act = none ∧ t.fld .root F.HW_STAT_ACT = 0 ∧ t.dev.hw.run = s.dev.hw.run ∧ Answered t b.hdr stFirmware 0 1 [] ∧
      (Room s → Logs t 194 .root 0 a.slot.val s.time) ∧ t.mem = s.mem ∧
      KeepRegs s t (places .root [F.HW_STAT_ACT] ++ answerPlaces b.hdr ++ notedPlaces .root)))

/-- R479, R480, R486, R487, R493: UCODE_LOAD quiesces its engine; then the engine loads the microcode of the running image and resumes with EV188, or, of
e4, e5 and e7 with a duty that arises, resumes with the old one, the command answered busy; a unit that holds a key gives its certificate chain and a
signature, and without identity both are denied. The model's choices and readings that this rests on: log entries 11, 74, 113, 152. -/
def Obligations.MicrocodeAndIdentity : Prop :=
  (∀ (s : State) (h : Hdr) (e : Fin 8), RunsNow s h 0x0702 → Names s h (.engine e) →
    Completes (.ucodeLoad h) s fun t =>
      t.fld (.engine e) F.ENG_STAT_STATE = 1 ∧ KeepRegs s t (places (.engine e) [F.ENG_STAT_STATE]) ∧
      t = { begun s with regs := t.regs, bg := s.bg ++ [{ hdr := h, opcode := 0x0702, unit := some (.engine e), args := [] }] }) ∧
  (∀ (s : State) (e : Fin 8) (b : Bg), Running s 0x0702 (some (.engine e)) b → s.fld (.engine e) F.ENG_STAT_STATE = 1 →
    Completes (.quiesceDone e) s fun t =>
      t.fld (.engine e) F.ENG_STAT_STATE = 0 ∧ t.fld (.engine e) F.ENG_STAT_UCODE = (s.dev.hw.run.ucode.getD e.val 0).toNat ∧
      Done t b.hdr [] ∧ (Room s → Logs t 188 .root 0 e.val s.time) ∧ t.mem = s.mem ∧
      KeepRegs s t (places (.engine e) [F.ENG_STAT_STATE, F.ENG_STAT_UCODE] ++ notedPlaces .root ++ answerPlaces b.hdr)) ∧
  (∀ (s : State) (e : Fin 8) (b : Bg), e ∈ [4, 5, 7] → Running s 0x0702 (some (.engine e)) b → s.fld (.engine e) F.ENG_STAT_STATE = 1 →
    Completes (.quiesceAbandon e) s fun t =>
      t.fld (.engine e) F.ENG_STAT_STATE = 0 ∧ t.fld (.engine e) F.ENG_STAT_UCODE = s.fld (.engine e) F.ENG_STAT_UCODE ∧
      Answered t b.hdr stBusy 0 1 [] ∧ (Room s → Logs t 188 .root 0 (e.val + 256) s.time) ∧ t.mem = s.mem ∧
      KeepRegs s t (places (.engine e) [F.ENG_STAT_STATE] ++ notedPlaces .root ++ answerPlaces b.hdr)) ∧
  (∀ (s : State) (h : Hdr) (u : UnitId) (off : BitVec 32), RunsNow s h 0x0800 → Names s h u →
    Completes (.unitCertGet h off) s fun t => Replied h (begun s) t ∧
      (keyedClass u = false → Answered t h stInvalid 0 1 []) ∧ (keyedClass u = true → s.dev.hw.ident = false → Answered t h stDenied 0 1 []) ∧
      (keyedClass u = true → s.dev.hw.ident = true →
        Done t h (s.chainLen (pathCode u + 1) :: s.chainPart (pathCode u + 1) off.toNat 4000))) ∧
  (∀ (s : State) (h : Hdr) (u : UnitId) (nonce : BitVec 256), RunsNow s h 0x0801 → Names s h u →
    Completes (.unitSign h nonce) s fun t => Replied h (begun s) t ∧
      (keyedClass u = false → Answered t h stInvalid 0 1 []) ∧ (keyedClass u = true → s.dev.hw.ident = false → Answered t h stDenied 0 1 []) ∧
      (keyedClass u = true → s.dev.hw.ident = true →
        Done t h [pathCode u, s.statusOf u, s.measurement 3,
          s.signature (pathCode u + 1) [nonce.toNat, pathCode u, s.statusOf u, s.measurement 3]]))

/-- R277-R281, R321, R489-R492: over CXL.io the manager reads a register that the Levee allows, a request to nothing receives Unsupported Request with
EV103, one that crosses 4 KiB is reported through AER, and an MSI-X word is stored; the debug master is logged as it is first selected, reads zeros
once it is disabled or under a locked rule, and else the Reservoir; factory test mode is entered by a signature that verifies, which ends identity.
The model's choices and readings that this rests on: log entries 6, 79, 80, 81, 83, 84, 135. -/
def Obligations.AddressedAccesses : Prop :=
  (∀ (s : State) (pt : PortId), s.portExists pt = true → s.mode pt.g = .h → s.fld (.port pt) F.PRT_HSTAT_LSTATE ∈ [2, 3] → s.xDown pt.x = false →
    (∀ (a : BitVec 32) (v : BitVec 64) (tag : BitVec 10) (bi : Option Bool) (u : UnitId) (r : RegSpec) (n : Nat), s.mgmt pt = true → a.toNat < 0x14000000 →
      a.toNat % 8 = 0 → s.unitHalf a.toNat = .unit u r n false → r.wide = false →
      halfOf s.dev.io.gauge (.hostFn pt 0) (regAddr u r.id n) = none → s.levee .hostPort (s.hostIdent pt) 2 a.toNat .r = .allow →
      Completes (.cxlioMemoryRequest pt 0 false false a 3 v tag bi) s fun t =>
        t.out = [.ioReply pt 0 tag.toNat true (s.regValue u r n % 2 ^ 32)] ∧ t.mem = s.mem ∧
        KeepRegs s t ((r.fields.filter fun f => f.acc == .rc).map fun f => fkey u f n)) ∧
    (∀ (a : BitVec 32) (v : BitVec 64) (tag : BitVec 10) (bi : Option Bool), 0x14030000 ≤ a.toNat → a.toNat % 8 = 0 →
      Completes (.cxlioMemoryRequest pt 0 false false a 3 v tag bi) s fun t =>
        t.out = [.ioReply pt 0 tag.toNat false 0] ∧ (Room s → Unlimited s 103 (.port pt) → Logs t 103 (s.domainOf (.port pt)) 0 a.toNat s.time) ∧
        t.mem = s.mem ∧ KeepRegs s t (notedPlaces (.port pt))) ∧
    (∀ (a : BitVec 32) (v : BitVec 64) (tag : BitVec 10) (bi : Option Bool), 4092 < a.toNat % 4096 →
      Completes (.cxlioMemoryRequest pt 0 false false a 3 v tag bi) s fun t => bitOf (t.cfgKept pt 2) 18 = true ∧
        t = { begun s with
          out := if bitOf (s.cfgKept pt 3) 18 then [] else [.pcieError pt 18 (bitOf (s.cfgKept pt 4) 18)]
          dev := { (begun s).dev with ports := { s.dev.ports with cfg := t.dev.ports.cfg } } }) ∧
    (∀ (a : BitVec 32) (v : BitVec 64) (tag : BitVec 10) (bi : Option Bool), a.toNat < 256 → a.toNat % 16 ∈ [0, 8] →
      Completes (.cxlioMemoryRequest pt 0 true true a 3 v tag bi) s fun t =>
        t = { begun s with dev := { (begun s).dev with ports := { s.dev.ports with
          msix := Tab.put s.dev.ports.msix (fnKey pt 0 * 8192 + a.toNat / 4) (v.toNat % 2 ^ 32) } } })) ∧
  (∀ (s : State) (space : Fin 3) (write : Bool) (a : BitVec 64) (len : Fin 4097) (data : List Byte), s.flag .root F.HW_DBG_CTL_ACTIVE = true →
    Tab.has s.dev.hw.pool 1 = false → Tab.has s.dev.hw.pool 2 = false → 1 ≤ len.val → a.toNat % 4096 + len.val ≤ 4096 →
    (s.flag .root F.HW_DBG_CTL_DIS = true → Completes (.debugAccess space write a len data) s fun t =>
      t = { begun s with out := if write then [] else [.debugData (List.replicate len.val 0)] }) ∧
    (s.flag .root F.HW_DBG_CTL_DIS = false → s.lockedPage space.val (a.toNat / 4096) = true →
      Completes (.debugAccess space write a len data) s fun t =>
        t.out = (if write then [] else [.debugData (List.replicate len.val 0)]) ∧ (Room s → Logs t 126 .root 0 (a.toNat / 4096) s.time) ∧
        t.mem = s.mem ∧ KeepRegs s t (notedPlaces .root)) ∧
    (s.flag .root F.HW_DBG_CTL_DIS = false → space = 1 → write = false → s.lockedPage 1 (a.toNat / 4096) = false →
      s.levee .debug 0 1 a.toNat .r = .allow → a.toNat + len.val ≤ 2 ^ 37 →
      Completes (.debugAccess space write a len data) s fun t =>
        t = { begun s with out := [.debugData (s.rsvBytes a.toNat len.val s.fresh [])], fresh := s.fresh + 65 })) ∧
  (∀ (s : State) (sel : Bool), s.dev.pwr.phase ≠ .held →
    Completes (.dbgmSelect sel) s fun t => ∃ r,
      r.fld .root F.HW_DBG_CTL_ACTIVE = b2n sel ∧ KeepRegs s r (places .root [F.HW_DBG_CTL_ACTIVE]) ∧
      r = { begun s with regs := r.regs, dev := { (begun s).dev with hw := { s.dev.hw with dbgSeen := s.dev.hw.dbgSeen || sel } } } ∧
      Notes .root r t ∧ (sel = true → s.dev.hw.dbgSeen = false → Room s → Logs t 189 .root 0 0 s.time)) ∧
  (∀ (s : State) (m : Master), Writable s .root .HW_DBG_CTL 0 →
    Completes (.debugDisable m) s fun t =>
      t.fld .root F.HW_DBG_CTL_DIS = 1 ∧ KeepRegs s t (places .root [F.HW_DBG_CTL_DIS]) ∧ t.mem = s.mem ∧ t.out = []) ∧
  (∀ (s : State) (ok : Bool), s.dev.pwr.phase ≠ .held → s.flag .root F.HW_STAT_FTM = false →
    (ok = true → s.flag .root F.HW_DBG_CTL_FTM_CLOSED = false →
      Completes (.ftmAuth ok) s fun t => t.fld .root F.HW_STAT_FTM = 1 ∧ t.dev.hw.ident = false ∧
        ((∀ g, s.mode g ≠ .f) → t.mem = s.mem ∧ (Room s → Logs t 190 .root 0 0 s.time))) ∧
    (ok = false ∨ s.flag .root F.HW_DBG_CTL_FTM_CLOSED = true → Room s →
      Completes (.ftmAuth ok) s fun t => Notes .root (begun s) t ∧ Logs t 191 .root 0 0 s.time))

/-! ### Address translation (spec 02) -/

namespace Sys2Proof.Statements

/-- A host port whose requests are served: an H port with CXL.mem enabled, not contained (R282). -/
def Serves (s : State) (pt : PortId) : Prop :=
  s.portExists pt = true ∧ s.mode pt.g = .h ∧ s.flag (.port pt) F.PRT_HSTAT_MEM_EN = true ∧ s.isContained pt = false

/-- An access to an extent finds its entry in the extent cache (R58, R59). -/
def CachedEntry (s : State) (x : Nat) (e : MapEntry) : Prop :=
  x < s.fld .root F.DEV_MAP_SIZE_NEXT ∧ (∀ d, s.dev.xlat.adv = some d → Tab.get? d.sealed x = none) ∧ x ∉ s.dev.xlat.bad ∧
    x ∈ Tab.getD s.dev.xlat.cached (xcSet x) [] ∧ Tab.get? s.dev.xlat.hurt x = none ∧ s.mapAt x = e

/-- No error is held for a later read of the device's own (log entry 144). -/
abbrev NoHurt (s : State) : Prop := s.dev.rsv.struck = [] ∧ s.dev.rsv.hintHurt = []

/-- The memory-side cache knows that it does not hold a line: the hint entry of its set, which serves no pinned unit, has no matching tag (R149-R152). -/
def KnownMiss (s : State) (la : Nat) : Prop :=
  NoHurt s ∧ Tab.get? s.dev.rsv.merge la = none ∧ s.hinted (s.cacheSet la) = true ∧ s.tagWays (s.cacheSet la) la = [] ∧ s.setSuspect (s.cacheSet la) = false ∧
    s.unitNamed (s.cacheSet la / 2048) = false

/-- No operation of the atomic unit has a write accepted that has not ended (R196). -/
def Settled (s : State) : Prop := ∀ e ∈ s.dev.coh.atoms, ∀ o, e.2.step ≠ .wrote o

/-- The tracker takes a request of a port for a module port under an index and a tag; none waits there (R118, R122, R123, R125). -/
def Tracked (s : State) (x : XPort) (pt : PortId) (i k : Nat) : Prop :=
  Tab.freeBelow s.dev.ort.entries 65536 = some i ∧ s.freeTag pt = some k ∧ s.ortRoom x = true ∧ s.ingressFree x .mreq = true

/-- Room for the entries of several events in the history queue. -/
def Space (s : State) : Prop := s.hist.length + 16 ≤ histMax

/-- A cell that its fabric link carries in its state (R258), the first of its packet or one of a packet whose later cells are not discarded at its ingress (R109, R133). -/
def Comes (s : State) (c : Cell) : Prop := s.linkShut c = false ∧ (c.sop = true ∨ s.dev.flood.dropRest.contains (qKey c.ing c.cls) = false)

/-- A cell that comes, and is no late answer (R126). -/
def Taken (s : State) (c : Cell) : Prop := Comes s c ∧ s.isLate c = false

/-- Nothing of an ingress and class stands in the queues or waits of which a cell has left, or which opened an entry of the tracker, but whole packets. -/
def NoneBegun (s : State) (x : XPort) (c : Cls) : Prop :=
  (∀ e ∈ s.dev.flood.queues, e.1 % 8 = c.num → ∀ p ∈ e.2, p.first.ing = x → p.complete = false →
    p.started = false ∧ (p.first.ort = none ∨ p.first.answers = true)) ∧
  ∀ d, Wait.cell d ∈ Tab.getD s.dev.flood.waiting (qKey x c) [] → d.ort = none ∨ d.answers = true

/-- What a cell makes of an entry of the tracker: a response that takes the cell held for it says so there (R110). -/
def takenBy (c : Cell) (i : Nat) (e : OrtEntry) : OrtEntry :=
  if c.answers = true ∧ c.cls ≠ .rmab ∧ c.ort = some (i, e.gen) ∧ e.isOpen = true then { e with taken := true } else e

/-- t is s but for what a cell at its ingress may change beside the Floodplain: the choice of samples (R507), the receive pool it leaves (R335), the cell held for
it (R110), the peak of occupancy (R107), and what counting and noting events at its unit changes. -/
def CellFrame (c : Cell) (s t : State) : Prop :=
  KeepRegs s t (notedPlaces c.ing.unit ++ places .root [F.GAU_SMP_LOST_BUSY, F.DEV_FP_PEAK_PEAK]) ∧
    (∀ i, Tab.get? t.dev.ort.entries i = (Tab.get? s.dev.ort.entries i).map (takenBy c i)) ∧ ∃ st su rec, t = { begun s with
    regs := t.regs
    hist := t.hist
    dev := { (begun s).dev with
      flood := t.dev.flood
      ort := { s.dev.ort with entries := t.dev.ort.entries }
      gau := t.dev.gau
      link := { s.dev.link with fl := t.dev.link.fl }
      ws := { (begun s).dev.ws with stamps := st, supp := su }
      ports := { s.dev.ports with records := rec } } }

/-- A request or cell stands at the end of its ingress's queue of its class; nothing else of the Floodplain changes (R108). -/
def Waits (s t : State) (x : XPort) (c : Cls) (w : Wait) : Prop :=
  Tab.getD t.dev.flood.waiting (qKey x c) [] = Tab.getD s.dev.flood.waiting (qKey x c) [] ++ [w] ∧
  (∀ k, k ≠ qKey x c → Tab.get? t.dev.flood.waiting k = Tab.get? s.dev.flood.waiting k) ∧
  t.dev.flood = { s.dev.flood with waiting := t.dev.flood.waiting }

/-- A packet of which no cell has been sent: its first cell, the cells held, whether it is whole, whether it takes the Col path, and when it began. -/
def newPkt (c : Cell) (held : List HeldCell) (whole col : Bool) (time : Nat) : Pkt := ⟨c, held, whole, false, col, 0, time, 0⟩

/-- The class queue of an egress with a cell admitted: a first cell makes a packet, which takes the Col path where nothing is ahead of it; a later cell joins the
packet of its ingress (R100, R103). -/
def joined (s : State) (x : XPort) (c : Cell) (inRes fast : Bool) : List Pkt :=
  if c.sop then s.queue x c.cls ++ [newPkt c [⟨c, inRes⟩] c.eop (s.colPath x c fast) s.time]
  else (s.queue x c.cls).map fun p =>
    if p.first.ing == c.ing && !p.complete then { p with held := p.held ++ [{ cell := c, inRes }], complete := c.eop } else p

/-- A cell has been admitted into a part of its class and stands in its queue; every other queue and count is as it was (R107, R108). -/
def Joins (s t : State) (x : XPort) (c : Cell) (inRes : Bool) (q : List Pkt) : Prop :=
  t.queue x c.cls = q ∧ (∀ k, k ≠ qKey x c.cls → Tab.get? t.dev.flood.queues k = Tab.get? s.dev.flood.queues k) ∧
  (∀ k, Tab.getD t.dev.flood.resUsed k 0 = Tab.getD s.dev.flood.resUsed k 0 + if inRes = true ∧ k = c.cls.num then 1 else 0) ∧
  (∀ k, Tab.getD t.dev.flood.shUsed k 0 = Tab.getD s.dev.flood.shUsed k 0 + if inRes = false ∧ k = c.cls.num then 1 else 0)

/-- The packet at a place of an egress's RMAB queue has been evicted and trimmed: its notice is in the RMAC queue, and EV056 is logged (R113, R114). -/
def PushedOut (s t : State) (y : XPort) (i : Nat) (p : Pkt) : Prop :=
  t.queue y .rmab = (s.queue y .rmab).eraseIdx i ∧
  t.queue y .rmac = s.queue y .rmac ++ [newPkt (trimCell p.first) [⟨trimCell p.first, false⟩] true false s.time] ∧
  (Space s → Unlimited s 56 y.evUnit → Logs t 56 (s.domainOf y.evUnit) 0 0 s.time)

/-- An RMAB packet of n cells is within the four limits of R109. -/
def BulkFits (s : State) (x : XPort) (n : Nat) : Prop :=
  s.shCount .rmab + n ≤ s.shMax .rmab ∧ s.queueCells x .rmab + n ≤ s.fld .root F.DEV_FP_RB_QMAX ∧ s.fpTotal < s.fld .root F.DEV_FP_PO_PO_THR ∧ n ≤ s.shFree

/-- The poison list has a place for a line of its own (R168). -/
def PoisonFits (s : State) (la : Nat) : Prop :=
  s.psnLines (la / 32768) + 1 ≤ s.fld .root F.DEV_PL_CTL_MAXL ∧ ∃ k ∈ psnWindow (la / 32768), Tab.has s.dev.rsv.poison k = false

/-- A line that a walk over an extent range acts on: neither pinned by a unit nor lost (R155). -/
def InWalk (x n : Nat) (y : Way) : Bool := !y.pu && !y.lost && decide (x ≤ y.la / 32768) && decide (y.la / 32768 < x + n)

/-- An answer that leaves the device at once: to a host or a Millrace engine whose port is up, or to another switch with a path (R133, R249), with nothing waiting at an internal port (R117). -/
def Leaves (s : State) (o : Origin) : Prop := (∀ k, o ≠ .headwater k) ∧ (∀ i, o ≠ .atomic i) ∧ s.originDown o = false ∧ Reaches s (s.originSw o) ∧ Unheld s

/-- An answer as it leaves, to another switch on a member of its effective set (R249). -/
def answered (s : State) (o : Origin) (mv : MetaV) (d : Option Line) (poison : Bool) : List Out := (s.outVia (.answer o mv d poison)).toList

/-- A partial write as its stack controller receives it (R160). -/
def partialOf (s : State) (o : Origin) (gpa : BitVec 50) (d : Line) (m : Mask) (cm : Fin 4) : Acc :=
  { origin := o, op := .memWrPtl, mv := .i, gpa := gpa.toNat / 64 * 64, data := d, mask := m, wtype := .priv, cmode := cm,
    epoch := s.fld .root F.DEV_EPOCH_CUR, tgt := (s.entry (gpa.toNat / 64 * 64 / 2 ^ 21)).tgtA, host := none, inst := none }

/-- A line of the cache at home here, of no pinned unit, that the cache holds at a way (R147, R152). -/
def HeldAt (s : State) (la w : Nat) (y : Way) : Prop :=
  (∀ ps v, s.place (s.entry (la / 32768)).tgtA (la * 64) ≠ .pinned ps v) ∧ s.findWay (s.cacheSet la) la = some w ∧ s.way? (s.cacheSet la) w = some y

/-- A transaction stands at the head of a line and has not been served (R182); no entry lacks holders, no read of an atomic operation is held (R197), no host is lost, and the line's directory set is sound and in the entry cache (R180,
R191, R193). -/
def AtHead (s : State) (la : Nat) (b : Busy) : Prop :=
  Tab.get? s.dev.coh.busy la = some b ∧ b.served = false ∧ (∀ e ∈ s.dev.coh.dir, e.2.shv ≠ 0) ∧ (∀ e ∈ s.dev.coh.atoms, e.2.step ≠ .held) ∧
    s.fld .root F.DEV_COH_LOST_LOST = 0 ∧ s.dirSuspect (s.dirSet la) = false ∧ s.dirRead la = true

/-- A snoop of a line to a host is outstanding (R186, R187). -/
def Snooped (s : State) (h : Fin 64) (la : Nat) (b : Busy) (n : Snoop) : Prop :=
  Tab.get? s.dev.coh.busy la = some b ∧ b.snoops.find? (fun n => n.host == h && n.sent.isSome) = some n

/-- An operation holds its line, and nothing waits behind it (R196, R197). -/
def Alone (s : State) (la : Nat) : Prop :=
  Unheld s ∧ s.dev.coh.atomWait = [] ∧ s.dev.coh.noBusy = [] ∧ ∀ b, Tab.get? s.dev.coh.busy la = some b → b.queue = []

/-- A write of a register of an instance that is ACTIVE and runs no command takes effect now (R204, R205). -/
def InstTakes (s : State) (i : Fin 1024) (id : RegId) (n : Nat) : Prop :=
  Writable s (.inst i) id n ∧ s.instState i = 1 ∧ s.flag (.inst i) F.MRC_ICMD_CTL_BUSY = false

/-- An instance command has ended with a status and a result (R204). -/
def IcmdEnded (t : State) (i : Fin 1024) (status res : Nat) : Prop :=
  t.fld (.inst i) F.MRC_ICMD_CTL_STATUS = status ∧ t.fld (.inst i) F.MRC_ICMD_RES_RES = res % 2 ^ 64 ∧ t.fld (.inst i) F.MRC_ICMD_CTL_BUSY = 0

/-- The places an instance command writes at its end. -/
def icmdPlaces (i : Fin 1024) : List Nat := places (.inst i) [F.MRC_ICMD_CTL_STATUS, F.MRC_ICMD_RES_RES, F.MRC_ICMD_CTL_BUSY]

/-- The event queue of an instance takes an entry now: it is set up, a slot is free, and its function may master (R242, R285). -/
def EqOpen (s : State) (i : Fin 1024) (q : EvQ) (pt : PortId) (fn : Nat) : Prop :=
  Tab.get? s.dev.mill.eqs i.val = some q ∧ s.instPort i = some (pt, fn) ∧ s.instState i ≠ 2 ∧ (q.tail + 1) % 2 ^ q.log ≠ q.head % 2 ^ q.log ∧ s.bme pt fn = true ∧ Unheld s

/-- The entry an event queue takes: code, phase, flow, argument, status, time and lost entries (R242). -/
def eqEntry (s : State) (q : EvQ) (pt : PortId) (fn code flow arg status : Nat) : Out :=
  .busWrite pt fn (q.base + q.tail * 32) (leBytes 2 code ++ leBytes 2 (b2n q.phase) ++ leBytes 4 flow ++ leBytes 4 arg ++ leBytes 4 status ++ leBytes 8 s.time
    ++ leBytes 8 q.lost) .event

/-- A flow end whose state area reads sound, that is OPEN, in PLACED mode with no cause to leave it, of an ACTIVE instance, with nothing queued in its submission ring, to a peer with a path, served by an engine that is not
fenced (R201, R207, R235, R434). -/
def Calm (s : State) (f : Nat) (w : Flow) : Prop :=
  NoHurt s ∧ s.flow? f = some w ∧ s.isFenced (flowUnit f) = false ∧ w.err = false ∧ w.departed = false ∧ s.flowCauses w = [] ∧ s.instState w.inst = 1 ∧ w.flushFail = [] ∧
    Reaches s w.peerSw ∧ Unheld s ∧ ∀ r, w.rings = some r → r.sqHead = r.sqTail

/-- The completion entries of a flow end are written now: it has rings, and its function may master (R209, R284). -/
def CanComplete (s : State) (w : Flow) (r : MRings) (pt : PortId) (fn : Nat) : Prop :=
  w.rings = some r ∧ s.instPort w.inst = some (pt, fn) ∧ s.bme pt fn = true ∧ Unheld s

/-- The next completion entry of a ring (R209, R212). -/
def cqEntry (r : MRings) (pt : PortId) (fn : Nat) (d : MDesc) (status : Nat) : Out :=
  .busWrite pt fn (r.cqBase + r.cqTail * 32) (cqeBytes d status r.phase) .cqe

/-- A packet as it is sent, again where `retx` says so, asking for blocks (R219). -/
def sent (s : State) (f : Nat) (w : Flow) (p : MPkt) (retx : Bool) (blocks : Nat) : List Out :=
  (s.outVia (.mill { s.millHdr f w p.type with
    final := p.fin, retx, seq := BitVec.ofNat 24 p.seq, rkey := p.rkey, roff := p.roff, len := p.len, segmask := BitVec.ofNat 16 blocks
    op1 := p.op1, op2 := p.op2 } p.data (w.pktOp p))).toList

/-- A flow end has entered ERROR: its packets are gone, and ABORT went to its peer, where there is a path (R240, R251). -/
def EntersError (t : State) (f : Nat) (w : Flow) : Prop :=
  (∃ v, t.flow? f = some v ∧ v.err = true ∧ v.pkts = []) ∧
    (Reaches t w.peerSw → ∃ m : MHdr, m.type = .abort ∧ m.dstSw = w.peerSw ∧ m.dstFlow.val = w.peerFlow % 16384 ∧ m.fgen = BitVec.ofNat 8 w.fgen ∧ Sent t (.mill m [] none))

/-- A packet whose flow state and region entry read sound (R241). -/
def sound (h : MHdr) : MIn := ⟨h, false, false⟩

/-- A packet passes the tests of its flow end: the end is OPEN with its generation, and its position is new (R203, R221). -/
def Passes (s : State) (h : MHdr) (w : Flow) : Prop :=
  NoHurt s ∧ s.flow? h.dstFlow.val = some w ∧ s.isFenced (flowUnit h.dstFlow.val) = false ∧ w.fgen = h.fgen.toNat ∧ w.err = false ∧ w.seqTest h.type h.seq.toNat = .fresh ∧ Reaches s w.peerSw ∧ Unheld s

/-- A position has ended with success: its result is kept, or it lies below the receive base (R222). -/
def Ended (w : Flow) (seq : Nat) : Prop := Tab.get? w.rxRes seq = some 1 ∨ seqBelow seq w.rxB = true

/-- The tracker takes a bus-master read of an engine for a host port, and its function may master (R122, R284). -/
def MayRead (s : State) (f : Nat) (inst : Fin 1024) (pt : PortId) (fn i : Nat) : Prop :=
  s.instPort inst = some (pt, fn) ∧ s.bme pt fn = true ∧ Tab.freeBelow s.dev.ort.entries 65536 = some i ∧ s.ortRoom (engX (flowEngine f)) = true ∧ Unheld s

/-- A work item of an engine waits for a bus-master read that has been issued and whose tracker entry is closed already, or for a pool access (R208, R218, R223, R232). -/
def ItemOf (s : State) (id f : Nat) (it : MItem) : Prop :=
  Tab.get? s.dev.mill.items id = some it ∧ it.flow = f ∧ s.isFenced (flowUnit f) = false ∧ it.issued = true ∧ Unheld s ∧
    ∀ en ∈ s.dev.ort.entries, ∀ e, en.2.ctx ≠ .mill e id

/-- t is r but for what a fabric link's sending changes: register fields, the links and what the fabric has sent, the flits that go out, and an overflow of
a count with its history entry. -/
def LinkMoves (r t : State) : Prop := t = { r with
  regs := t.regs
  hist := t.hist
  out := t.out
  dev := { r.dev with
    ws := { r.dev.ws with stamps := t.dev.ws.stamps, supp := t.dev.ws.supp }
    fab := t.dev.fab
    link := t.dev.link } }

/-- A fabric link sends at once, n CTRL messages one by one (R326, R331, R337): it runs, nothing else waits to be sent, and credits and Eddy suffice. -/
def LinkReady (s : State) (g : Fin 64) (n : Nat) : Prop :=
  s.flSends g = true ∧ (s.flink g).eddy.length + 2 * n ≤ 256 ∧ (s.flink g).ctrlQ = [] ∧ (s.flink g).ctrlAnn = none ∧ (s.flink g).buf = [] ∧
    (s.flink g).left = 0 ∧ (s.flink g).grant = none ∧ n ≤ s.fld (fabPort g) F.PRT_FL_CRED_CTRL_CR

/-- The slots of the flit that announces a CTRL message, and of the one that carries it. -/
def idleSlots : List TxSlot := List.replicate 31 TxSlot.idle

/-- The slots of the flit that carries a CTRL message. -/
def ctrlSlots (m : Nat) : List TxSlot := TxSlot.ctrl (BitVec.ofNat 128 m) :: List.replicate 30 TxSlot.idle

/-- Nothing waits for a fabric destination: no tracked request, no busy line, no flow end. -/
def Unused (s : State) : Prop := s.dev.ort.entries = [] ∧ s.dev.coh.busy = [] ∧ s.dev.mill.flows = []

/-- From s, as b has begun, a fabric link fails with a code and an event (R262, R263), where no fault of class 6 is open in its domain. -/
def LinkFails (b s t : State) (g : Fin 64) (code ev : Nat) : Prop :=
  (∃ r, r.fabState g = 5 ∧ r.fld (fabPort g) F.PRT_FAB_STAT_FAIL_CODE = code ∧
    KeepRegs s r (places (fabPort g) [F.PRT_FAB_STAT_STATE, F.PRT_FAB_STAT_FAIL_CODE]) ∧
    r = { b with
      regs := r.regs
      dev := { b.dev with
        fab := { s.dev.fab with joining := Tab.erase s.dev.fab.joining g.val, early := Tab.erase s.dev.fab.early g.val }
        link := { s.dev.link with fl := Tab.upd s.dev.link.fl g.val fun l => { l with ctrlQ := [] } } } } ∧
    Files (fabPort g) r t) ∧
  Opens t (s.domainOf (fabPort g)) 6 (fabPort g) ∧ (Room s → Logs t ev (s.domainOf (fabPort g)) 1 code s.time)

/-- Nothing is lost or restored by a link that comes up: no flow, request or busy line, no path-loss notice stands, and no effective set that has members is
about to lose the last. -/
def UpAlone (s : State) : Prop := Unused s ∧ s.dev.fab.lostDst = [] ∧ ∀ d : Fin 16, s.fldn .root F.DEV_FAB_EFF_MEMBERS d.val ≠ 0 → s.effSet d ≠ 0

/-- A fabric link has come UP with EV095 and its first advertisement (R254, R259). -/
def CameUp (s t : State) (g : Fin 64) : Prop :=
  t.fabState g = 4 ∧ Tab.get? t.dev.fab.joining g.val = none ∧ Tab.get? t.dev.fab.advRx g.val = none ∧
    Tab.get? t.dev.fab.advMask g.val = some (t.advContent g) ∧
    (Space s → s.upLinks.length ≤ 8 → Logs t 95 (s.domainOf (fabPort g)) 0 g.val s.time) ∧ t.mem = s.mem

/-- A vector of a function is raised (R284): sent while the function may master and the vector is not masked, else pending. -/
def VectorRaised (s t : State) (pt : PortId) (fn vec : Nat) : Prop :=
  (s.bme pt fn = true → s.msixWord pt fn vec 3 % 2 = 0 →
    Sent t (.msix pt fn vec (s.msixWord pt fn vec 0 + s.msixWord pt fn vec 1 * 2 ^ 32) (s.msixWord pt fn vec 2))) ∧
  (s.bme pt fn = false ∨ s.msixWord pt fn vec 3 % 2 ≠ 0 → msixKey pt fn vec 0 ∈ t.dev.ports.msixPend)

/-- The mailbox vector of an instance is raised, where a function holds the instance (R300) and no reset of it runs (R313), and nothing else but register fields differs from r. -/
def MailboxVector (s r t : State) (i : Fin 1024) : Prop :=
  (∀ pt fn, s.instState i ≠ 3 → s.instPort i = some (pt, fn) → VectorRaised s t pt fn (s.fld (.inst i) F.INS_CFG_MBX_VEC)) ∧
    (s.instState i = 3 → t.out = r.out ∧ t.dev = r.dev) ∧ (Unheld s → t.dev.flood = r.dev.flood) ∧ t = { r with
      regs := t.regs
      out := t.out
      dev := { r.dev with
        flood := { r.dev.flood with waiting := t.dev.flood.waiting }
        ports := { r.dev.ports with msixPend := t.dev.ports.msixPend } } }

/-- An instance's reset has begun (R301, R313 step 1): it is RESETTING and drains, its mailbox is clear, its regions close, and its OPEN flow ends have
sent ABORT. -/
def ResetBegun (s t : State) (i : Fin 1024) : Prop :=
  t.instState i = 3 ∧ t.fld (.inst i) F.INS_STAT_DRAINING = 1 ∧ t.full i true = false ∧ t.full i false = false ∧
    (∀ j < 64, t.fldn (.inst i) F.INS_MBX_H2M_DATA j = 0 ∧ t.fldn (.inst i) F.INS_MBX_M2H_DATA j = 0) ∧
    (∀ k r, Tab.get? s.dev.mill.regions k = some r → r.v = true → r.inst = i →
      Tab.get? t.dev.mill.regions k = some { r with closing := true, closedAt := if r.closing then r.closedAt else s.time }) ∧
    (∀ e ∈ s.flowsOf i, e.2.err = false → Reaches s e.2.peerSw → ∃ m, Sent t (.mill m [] none) ∧ m.type = .abort ∧ m.dstSw = e.2.peerSw) ∧
    (∀ q ∈ t.dev.flood.waiting, ∀ w ∈ q.2, s.masters i w = false) ∧ (∀ pt fn, s.vfInst pt fn = some i → t.bme pt fn = false)

/-- What an instance holds is gone (R237, R241, R302, R313): no flow end, no event queue, and of its regions only the damaged ones stay, no longer valid. -/
def Emptied (s t : State) (i : Fin 1024) : Prop :=
  (∀ f w, t.flow? f = some w → w.inst ≠ i) ∧ (∀ f w, s.flow? f = some w → w.inst ≠ i → t.flow? f = some w) ∧
    Tab.get? t.dev.mill.eqs i.val = none ∧ (∀ k r, Tab.get? t.dev.mill.regions k = some r → r.v = true → r.inst ≠ i) ∧
    (∀ k r, Tab.get? s.dev.mill.regions k = some r → r.v = true → r.inst = i → r.dmg = false →
      Tab.get? t.dev.mill.regions k = none ∧ k ∈ t.dev.mill.freed)

/-- The bytes of an image whose regions and flows can be restored in an instance (R308), none of them a POOL region. -/
def Restorable (s : State) (src : Option (Fin 1024)) (l : List Byte) : Prop :=
  imgOk l = true ∧ ((imgFlows l).map fun r => imgNum r 0 2).Nodup ∧ ((imgRegions l).map fun r => imgNum r 0 4 / 256).Nodup ∧
    (∀ r ∈ imgFlows l, imgNum r 0 2 < 16384 ∧ s.flow? (imgNum r 0 2) = none ∧ Tab.get? s.dev.mill.lastGen (imgNum r 0 2) ≠ some (imgNum r 4 1)) ∧
    (∀ r ∈ imgRegions l, s.regionTakeable (imgNum r 0 4 / 256) src = true ∧ bitOf (imgNum r 4 1) 0 = false)

/-- An instance is ACTIVE and empty (R308). -/
def EmptyInst (s : State) (i : Fin 1024) : Prop :=
  s.instState i = 1 ∧ s.instFlows i = 0 ∧ s.instRegions i = [] ∧ Tab.get? s.dev.mill.eqs i.val = none ∧ s.full i true = false ∧ s.full i false = false

/-- The bytes of a write that a function masters are held while it may not master. -/
def heldOf (s : State) (pt : PortId) (fn : Nat) : List Out := Tab.getD s.dev.ports.held (fnKey pt fn) []

/-- An H port has been reset (R287): its instances reset, its functions' own state is gone, and its link is in reset. -/
def PortWasReset (s t : State) (pt : PortId) : Prop :=
  t.fld (.port pt) F.PRT_HSTAT_LSTATE = 4 ∧ t.fld (.port pt) F.PRT_HSTAT_BME = 0 ∧
    (∀ k ∈ t.dev.ports.vfBme, ownsFn pt k = false) ∧ (∀ fn < 128, Tab.get? t.dev.ports.held (fnKey pt fn) = none) ∧
    Tab.get? t.dev.ports.numVfs pt.ix = none ∧ (∀ i ∈ s.portInsts pt, s.instState i = 1 ∨ s.instState i = 2 → t.instState i = 3) ∧
    (∀ h, s.hostOf s.swid pt = some h → bitOf (t.fld .root F.DEV_COH_LOST_LOST) h.val = true)

/-- Enumeration of a module has failed with a code (R290). -/
def EnumFails (s t : State) (pt : PortId) (code : Nat) : Prop :=
  t.fld (.port pt) F.PRT_MSTAT_STATE = 4 ∧ t.fld (.port pt) F.PRT_MSTAT_FAIL_CODE = code ∧ Tab.get? t.dev.ports.enumStep pt.ix = none ∧
    Opens t (s.domainOf (.port pt)) 4 (.port pt) ∧ (Space s → Logs t 111 (s.domainOf (.port pt)) 1 code s.time) ∧ t.mem = s.mem
/-- The tracker takes n reads of a module's mailbox: nothing waits at Headwater's port, and there are n entries, cells and tags (R110, R122, R123, R125). -/
def MboxRoom (s : State) (pt : PortId) (n : Nat) : Prop := s.ingressFree (XPort.int 7) .iotx = true ∧ s.dev.ort.entries.length + n ≤ 65536 ∧
  s.ortPortCount (XPort.int 7) + n ≤ s.fld .root F.DEV_ORT_CFG_PORT_MAX ∧ s.resTaken .mrsp + n ≤ s.clsRes .mrsp ∧ (s.modTags pt).length + n ≤ 4096

/-- The entries of s are in r, with n more that reads of a module's mailbox hold (R122). -/
def MboxAsks (s r : State) (pt : PortId) (n : Nat) : Prop := r.dev.ort.entries.length = s.dev.ort.entries.length + n ∧
  (∀ i e, Tab.get? s.dev.ort.entries i = some e → Tab.get? r.dev.ort.entries i = some e) ∧
  ∀ i e, Tab.get? r.dev.ort.entries i = some e → Tab.get? s.dev.ort.entries i = none → e.isOpen = true ∧ e.egr = pt.x ∧ e.ctx = .mbox pt

/-- r is s as a command begins, but that no read of a module's mailbox holds an entry (R130). -/
def MboxFreed (s r : State) (pt : PortId) : Prop := (∀ i e, Tab.get? r.dev.ort.entries i = some e → e.isOpen = true → e.ctx ≠ .mbox pt) ∧
  ((s.dev.ort.entries.map Prod.fst).Nodup → ∀ i e, Tab.get? s.dev.ort.entries i = some e → e.ctx ≠ .mbox pt → Tab.get? r.dev.ort.entries i = some e) ∧
  r = { begun s with dev := { (begun s).dev with ort := r.dev.ort } }

/-- Nothing waits to be sent on a fabric link (R326, R330). -/
def LinkIdle (s : State) (g : Fin 64) : Prop :=
  (s.flink g).ctrlQ = [] ∧ (s.flink g).ctrlAnn = none ∧ (s.flink g).buf = [] ∧ (s.flink g).left = 0 ∧ (s.flink g).grant = none

/-- A width and a base name a block of lanes: 1, 2, 4 or 8 of them, the first a multiple of the width (R348). -/
abbrev LaneBlock (width base : Nat) : Prop := (width = 1 ∨ width = 2 ∨ width = 4 ∨ width = 8) ∧ base % width = 0 ∧ base + width ≤ 8

/-- The command that a CTRL message of a type is (R331). -/
def CtrlCommand (g : Fin 64) (c : Instr) (ty : Nat) : Prop :=
  (ty = 0x20 ∧ ∃ f w q m, c = .identity g f w q m) ∨ (ty = 0x21 ∧ ∃ m q, c = .reachAdvertisement g m q) ∨ (ty = 0x22 ∧ ∃ n l r, c = .crinit g n l r) ∨
    (ty = 0x23 ∧ ∃ w b r k, c = .pauseReq g w b r k) ∨ (ty = 0x24 ∧ ∃ r k, c = .pauseRsp g r k)

/-- The stored flits that an ACK covers (R337). -/
def freedBy (s : State) (g : Fin 64) (ack : Nat) : Nat :=
  (ack + 1 + 4096 - (match (s.flink g).eddy with | e :: _ => e.flit.seq | [] => s.fld (fabPort g) F.PRT_FL_STAT_NXT_SEQ)) % 4096

/-- How far a flit's sequence number is past the one expected (R339). -/
def ahead (s : State) (g : Fin 64) (w : BitVec 4096) : Nat :=
  (bits (flitHead w) 11 0 + 4096 - s.fld (fabPort g) F.PRT_FL_STAT_EXP_SEQ) % 4096

/-- The places a fabric link changes as it sends and notes events, beside the fields given: the Gauge counts and slot accounts of its port. -/
def linkPlaces (g : Fin 64) (fs : List Fld) : List Nat :=
  notedPlaces (fabPort g) ++ (List.range 8).map (fkey (fabPort g) F.GAU_SLOT_COUNT) ++ places (fabPort g) fs

/-- A NULL flit goes out after the flits given, with the ACK and NAK given (R326). -/
def SendsNull (s t : State) (g : Fin 64) (before : List Out) (ack : Nat) (nak : Bool) : Prop :=
  ∃ f : TxFlit, f.null = true ∧ f.seq = s.fld (fabPort g) F.PRT_FL_STAT_NXT_SEQ ∧ f.ack = ack ∧ f.nak = nak ∧ f.crCnt = 0 ∧ f.crCtrl = 0 ∧
    f.ctNext = 31 ∧ f.stomp = 0 ∧ t.out = before ++ [sentFlit g f.header idleSlots]

/-- The stored flits as they are sent again (R338). -/
def resent (g : Fin 64) (l : List EddyFlit) (ack : Nat) (nak : Bool) : List Out :=
  l.map fun e => sentFlit g { e.flit with ack := ack, nak := nak }.header e.flit.slots

/-- A fabric link of a group in mode F that is not DOWN may go down without a device fault of its own: nothing waits for a fabric destination, and the root
has room for another class of fault. -/
def MayFall (s : State) (g : Fin 64) : Prop :=
  s.mode g = .f ∧ s.fabState g ≠ 0 ∧ Unused s ∧ (Tab.getD s.dev.ws.faults (pathCode .root) []).length < 9

/-- A fabric link has gone down for an event of level L2 (R346, R347, R424): its state is discarded, and the fault is open in its domain. -/
def LinkLost (s t : State) (g : Fin 64) (ev : Nat) : Prop :=
  t.fabState g = 0 ∧ t.flPhase g = 0 ∧ Tab.get? t.dev.link.fl g.val = none ∧ Tab.get? t.dev.fab.joining g.val = none ∧
    (s.dev.ws.safe = false → s.portExists ⟨g, 0⟩ = true → UnitId.port ⟨g, 0⟩ ∈ t.dev.ws.contained) ∧
    Opens t (s.domainOf (fabPort g)) 5 (fabPort g) ∧
    (Space s → s.upLinks.length ≤ 8 → (∀ d : Fin 16, s.effSet d = 0 ∧ s.fldn .root F.DEV_FAB_EFF_MEMBERS d.val = 0) →
      Logs t ev (s.domainOf (fabPort g)) 2 0 s.time) ∧ t.mem = s.mem

/-- A flit that is accepted in sequence, with an ACK that frees what it covers and no NAK to answer (R339). -/
def Sequenced (s : State) (g : Fin 64) (w : BitVec 4096) : Prop :=
  (s.flPhase g = 1 ∨ s.flPhase g = 2) ∧ flitGood w = true ∧ bitOf (flitHead w) 25 = false ∧ ahead s g w = 0 ∧ bitOf (flitHead w) 24 = false ∧
    freedBy s g (bits (flitHead w) 23 12) ≤ (s.flink g).eddy.length ∧ LinkIdle s g ∧ (s.flink g).rxCur = none

/-- What a sequenced flit leaves beside its slots (R333, R336-R339): the next one is expected, DISCARD and NAK are clear, what it acknowledges is freed,
the credits it returns are there, and the slot it announces is noted. -/
def TakenIn (s t : State) (g : Fin 64) (w : BitVec 4096) : Prop :=
  t.fld (fabPort g) F.PRT_FL_STAT_EXP_SEQ = (bits (flitHead w) 11 0 + 1) % 4096 ∧ t.fld (fabPort g) F.PRT_FL_STAT_DISCARD = 0 ∧
    (t.flink g).nak = false ∧ (t.flink g).eddy = (s.flink g).eddy.drop (freedBy s g (bits (flitHead w) 23 12)) ∧
    (t.flink g).rxCt = bits (flitHead w) 44 40 ∧
    t.fld (fabPort g) F.PRT_FL_CRED_CTRL_CR = min 16 (s.fld (fabPort g) F.PRT_FL_CRED_CTRL_CR + bits (flitHead w) 39 38) ∧
    (bits (flitHead w) 28 26 = 7 →
      t.fld (fabPort g) F.PRT_FL_CRED_SH_CR = min 1023 (s.fld (fabPort g) F.PRT_FL_CRED_SH_CR + bits (flitHead w) 37 29)) ∧
    (bits (flitHead w) 28 26 ≠ 7 → t.fld (fabPort g) F.PRT_FL_CRED_SH_CR = s.fld (fabPort g) F.PRT_FL_CRED_SH_CR ∧
      Tab.get? (t.flink g).cred (bits (flitHead w) 28 26) =
        some (Tab.getD (s.flink g).cred (bits (flitHead w) 28 26) 0 + bits (flitHead w) 37 29)) ∧ t.mem = s.mem

/-- The header slot of a packet that the receive pool takes, of the class and pool it names (R328, R332). -/
def GoodHead (s : State) (g : Fin 64) (v : BitVec 128) : Prop :=
  v.toNat % 2 = 1 ∧ 1 ≤ bits v.toNat 28 20 ∧ bits v.toNat 28 20 ≤ 264 ∧ bits v.toNat 3 1 ≠ 7 ∧
    (s.flink g).rxRoom (bits v.toNat 3 1) (bitOf v.toNat 5) (rxCellCount v) = true
/-- The applied values of a lane (R371, R375). -/
def calFields : List Fld := [F.LN_STAT_A_PRE, F.LN_STAT_A_POST, F.LN_STAT_A_SWING, F.LN_RXEQ_CTLE, F.LN_RXEQ_VREF_L, F.LN_RXEQ_VREF_M,
  F.LN_RXEQ_VREF_H, F.LN_RXEQ_PH, F.LN_STAT_A_MAIN, F.LN_STAT_SAT]

/-- EV143 has been logged for the user offsets of a lane (R375): applying its values logs no more. -/
def Told (s : State) (ln : LaneId) : Prop := (s.lane ln).satTold = true

/-- The places of the applied values of a group's fabric lanes. -/
def calPlaces (g : Fin 64) : List Nat := (fabLanes g).flatMap fun ln => places (.lane ln) calFields

/-- A base with its factory offset and a written user offset (R375). -/
def offsetSum (s : State) (ln : LaneId) (fac : Fld) (v base : Nat) : Int :=
  (base : Int) + signed fac.w (s.fld (.lane ln) fac) + signed fac.w (fac.part v)

/-- t is r but for register fields, the lanes and links, and what noting events of level L0 changes. -/
def LaneMoves (r t : State) : Prop := t = { r with
  regs := t.regs
  hist := t.hist
  dev := { r.dev with
    ws := { r.dev.ws with stamps := t.dev.ws.stamps, supp := t.dev.ws.supp }
    link := t.dev.link } }

/-- t is r but for register fields and the lanes, and every lane but the given ones is as it was. -/
def LanesOnly (r t : State) (l : List LaneId) : Prop :=
  (∀ k, k ∉ l → t.lane k = r.lane k) ∧ t = { r with
    regs := t.regs
    dev := { r.dev with link := { r.dev.link with lanes := t.dev.link.lanes } } }

/-- A lane with the step that phase tracking takes and the thresholds that its receiver has adapted to (R368, R374). -/
def trackedLane (s : State) (ln : LaneId) (v : Vrefs) (move : Fin 3) : Lane :=
  let l := phaseStep move.val (s.lane ln)
  if s.flag (.lane ln) F.LN_RXEQ_FREEZE then l else { l with
    vl := v.vl.val
    vm := v.vm.val
    vh := v.vh.val }

/-- A lane after a marker that it does not accept (R359): n data symbols on, in portions of p, with its predicted seed and place. -/
def missedLane (l : Lane) (w : BitVec 128) (n p : Nat) : Lane := { l with
  scr := scrRun n l.scr
  foff := (l.foff + n) % p
  tail := w.toNat / 4 ^ 63 % 4
  missed := l.missed + 1
  good := 0
  broken := true }

/-- A lane after a marker that it accepts, which carries the bits m (R358, R359). -/
def takenLane (l : Lane) (w : BitVec 128) (m : Nat) : Lane := { l with
  scr := m % 2 ^ 31
  foff := m / 2 ^ 34 % 2 ^ 11
  tail := w.toNat / 4 ^ 63 % 4
  missed := 0
  good := min 2 (l.good + 1)
  test := bitOf m 49 }

/-- The fields that a marker may change at a lane beside those it counts in: the applied values and the DFE taps. -/
def trackPlaces (ln : LaneId) : List Nat := places (.lane ln) (F.LN_RXDFE_TAPS :: calFields)

/-- What reading a frame that a marker ends does at a lane (R362, R368, R370, R374): stuff violations and wrong bits count once a marker has been accepted, and
the phase and the taps follow. -/
def FrameCounts (s t : State) (ln : LaneId) (x : RxFrame) (taps : BitVec 64) (ph : Nat) : Prop :=
  ((s.lane ln).scr ≠ 0 → 0 < x.bad → t.fld (.lane ln) F.LN_ERR_STUFF = (s.fld (.lane ln) F.LN_ERR_STUFF + x.bad) % 2 ^ 16 ∧
    (Unlimited s 146 (.lane ln) → Room s → Logs t 146 (s.domainOf (.lane ln)) 0 x.bad s.time)) ∧
  t.fld (.lane ln) F.LN_RXEQ_PH = clampNat (s.calSum ln F.LN_CAL_FAC_PH ph) 63 ∧
  (s.flag (.lane ln) F.LN_RXEQ_FREEZE = false → t.fld (.lane ln) F.LN_RXDFE_TAPS = taps.toNat) ∧
  (s.fabState ln.port.g = 1 → Tab.get? t.dev.link.tx ln.port.g.val = (Tab.get? s.dev.link.tx ln.port.g.val).map fun y => y.zero ln.l.val)

/-- What a training attempt finds of a lane (R364 step 6): adapted unbroken, a window of 16 phase codes or more, and aligned. -/
def FitLane (s : State) (fits : List LaneFit) (ln : LaneId) : Prop :=
  ∃ f, fits[ln.l.val]? = some f ∧ (s.lane ln).broken = false ∧ 16 ≤ f.window.val ∧ s.flag (.lane ln) F.LN_STAT_ALIGN = true

/-- A training attempt has failed (R364): it is counted, the fault of EV140 is open at its group, and the link is DOWN. -/
def TrainFailed (s t : State) (g : Fin 64) : Prop :=
  t.fabState g = 0 ∧ t.fld (.group g) F.GRP_FC_STAT_TSTEP = 0 ∧ Tab.get? t.dev.link.train g.val = none ∧
    t.fld (.group g) F.GRP_FC_STAT_FAILS = min 255 (s.fld (.group g) F.GRP_FC_STAT_FAILS + 1) ∧ Opens t (.group g) 5 (.group g) ∧
    (Space s → s.upLinks.length ≤ 8 → (∀ d : Fin 16, s.effSet d = 0 ∧ s.fldn .root F.DEV_FAB_EFF_MEMBERS d.val = 0) →
      Logs t 140 (.group g) 1 0 s.time) ∧ t.mem = s.mem

/-- The write of a lane's or group's register is in flight from now on (R387). -/
def crossed (r : State) (u : UnitId) (id : RegId) : State :=
  { r with dev := { r.dev with io := { r.dev.io with crossing := Tab.put r.dev.io.crossing (regAddr u id 0) { flight := true, shadow := none, kept := none } } } }

/-- The write is in flight, and its domain has refused it: reads return it until the acknowledge (R387). -/
def refusedInFlight (r : State) (u : UnitId) (id : RegId) (v : Nat) : State :=
  { r with dev := { r.dev with io := { r.dev.io with crossing := Tab.put r.dev.io.crossing (regAddr u id 0) { flight := true, shadow := none, kept := some v } } } }

/-- The history queue holds an entry for the event, of level L0, made now (R433). -/
def Logged (s t : State) (ev : Nat) : Prop := ∃ e ∈ t.hist, e.event = ev ∧ e.level = 0 ∧ e.time = s.time


end Sys2Proof.Statements

/-- R40, R49, R51, R52, R59, R61, R122, R282: a request that hits no window is answered, a read with poison, with EV041; one that hits goes on at its GPA,
waits where its entry must be looked up, and, with its entry at hand and its line in no cache, is sent to its module under a tracker entry;
speculative reads are dropped. An access of another switch is looked up in the same way. The model's choices and readings that this rests on: log
entries 13, 16, 142. -/
def Obligations.PoolAccesses : Prop :=
  (∀ (s : State) (pt : PortId) (op : M2S) (mv : MetaV) (hpa : BitVec 52) (tag : BitVec 16) (d : Line) (k : Mask), Serves s pt →
    Completes (.cxlmemRequest pt .memSpecRd mv hpa tag d k []) s (fun t => t = begun s) ∧
    (op ∈ [.memRd, .memRdData, .memWr, .memWrPtl, .memInv, .memClnEvct] → s.winHit pt (hpa.toNat / 64 * 64) = none → s.xDown pt.x = false →
      Completes (.cxlmemRequest pt op mv hpa tag d k []) s fun t =>
        Notes (.port pt) { begun s with out := [.answer (.host pt tag) .i none op.isRead] } t ∧
        (Room s → Unlimited s 41 (.port pt) → Logs t 41 (s.domainOf (.port pt)) 0 (hpa.toNat / 64 * 64 / 2 ^ 21) s.time)) ∧
    (∀ n gpa : Nat, op ∈ [.memRd, .memRdData, .memWr, .memWrPtl, .memInv, .memClnEvct] → s.winHit pt (hpa.toNat / 64 * 64) = some n →
      gpa = s.winGpa pt n + (hpa.toNat / 64 * 64 - s.winBase pt n) → s.fldn (.port pt) F.PRT_WIN_CTL_WTYPE n = 0 →
      (∀ p, m2sPerm op = some p → s.levee .hostPort (s.hostIdent pt) 0 gpa p = .allow) →
      (LooksUp s (gpa / 2 ^ 21) →
        Completes (.cxlmemRequest pt op mv hpa tag d k []) s fun t =>
          ∃ a, a.origin = .host pt tag ∧ a.op = op ∧ a.gpa = gpa ∧ a.data = d ∧ a.mask = k ∧ a.wtype = .priv ∧
            Notes (.port pt) { begun s with dev := { (begun s).dev with xlat := { s.dev.xlat with
              misses := Tab.put s.dev.xlat.misses (gpa / 2 ^ 21) { entry := s.mapAt (gpa / 2 ^ 21), waiters := [a] } } } } t) ∧
      (∀ (m : Fin 128) (dx i q : Nat) (e : MapEntry), op = .memRd → e.type = .mapped → e.home = s.swid → e.tgtA = some (.module m dx) →
        CachedEntry s (gpa / 2 ^ 21) e → s.dirSets = 0 → KnownMiss s (gpa / 64) → s.moduleUp (mportOf m) = true →
        dx < s.fld (.port (mportOf m)) F.PRT_MSTAT_CAP_X →
        (s.wbWaits (gpa / 64) = true → Tab.get? s.dev.coh.busy (gpa / 64) = none → Completes (.cxlmemRequest pt op mv hpa tag d k []) s fun t =>
          ∃ a, a.origin = .host pt tag ∧ a.gpa = gpa ∧ a.op = op ∧ Waits s t pt.x .mreq (.target a) ∧ t.out = [] ∧ t.mem = s.mem) ∧
        (s.wbWaits (gpa / 64) = false → Tracked s pt.x (mportOf m) i q →
        Completes (.cxlmemRequest pt op mv hpa tag d k []) s fun t =>
          t.out = [.toModule (mportOf m) (i, s.ortGen i) (s.ortGen i * 4096 + q) .memRd (dx * 2 ^ 21 + gpa % 2 ^ 21) d k false] ∧
          (∃ o, Tab.get? t.dev.ort.entries i = some o ∧ o.isOpen = true ∧ o.gen = s.ortGen i ∧ o.port = pt.x ∧ o.egr = (mportOf m).x ∧
            o.tIssue = s.time ∧ o.lost = false) ∧ t.mem = s.mem ∧ t.dev.xlat = s.dev.xlat)) ∧
      (∀ (x : Fin 536870912) (e : MapEntry), x.val = gpa / 2 ^ 21 → CachedEntry s x.val e → Tab.get? s.dev.xlat.misses x.val = none →
        s.dev.xlat.misses.length < 256 → s.hist.length + 4 ≤ histMax → Unlimited s 47 .root →
        Completes (.cxlmemRequest pt op mv hpa tag d k [(x, .uncorrectable)]) s fun t =>
          x.val ∉ Tab.getD t.dev.xlat.cached (xcSet x.val) [] ∧
          (∃ m a, Tab.get? t.dev.xlat.misses x.val = some m ∧ m.waiters = [a] ∧ m.entry = e ∧ a.origin = .host pt tag ∧ a.gpa = gpa) ∧
          Logs t 47 .root 0 x.val s.time))) ∧
  (∀ (s : State) (ing : PortId) (src : Fin 16) (o : Fin 65536) (g : Fin 16) (fr : Option PortId) (op : M2S) (mv : MetaV) (gpa : BitVec 50)
    (w : WType) (cm : Fin 4) (d : Line) (k : Mask), s.mode ing.g = .f → w ≠ .sharedHw → LooksUp s (gpa.toNat / 2 ^ 21) →
    Completes (.homeAccess ing src o g fr op mv gpa w cm d k []) s fun t =>
      ∃ a, a.origin = .switch src ing.x (o.val, g.val) ∧ a.op = op ∧ a.gpa = gpa.toNat / 64 * 64 ∧ a.wtype = w ∧ a.cmode = cm ∧
        Notes (.port ing) { begun s with dev := { (begun s).dev with xlat := { s.dev.xlat with
          misses := Tab.put s.dev.xlat.misses (gpa.toNat / 2 ^ 21) { entry := s.mapAt (gpa.toNat / 2 ^ 21), waiters := [a] } } } } t)

/-- R41, R42, R44, R62, R63: an unlocked window that may be is enabled with its type and cache mode, a disabled one keeps them, a locked one takes no
write but EV040; an entry that e5 has read enters the extent cache, or, uncorrectable, opens the fault of EV044; an invalidation empties the extent
cache and runs until its end. The model's choices and readings that this rests on: log entries 14, 16, 101, 122, 125. -/
def Obligations.WindowsAndExtentCache : Prop :=
  (∀ (s : State) (m : Master) (pt : PortId) (n : Fin 16) (w c : Fin 4) (lock en : Bool) (i : Instr) (fs : List Fld), s.portExists pt = true →
    fs = [F.PRT_WIN_CTL_EN, F.PRT_WIN_CTL_WTYPE, F.PRT_WIN_CTL_CMODE, F.PRT_WIN_CTL_LOCK] →
    (i, en, lock) ∈ [(.windowEnable m pt n w c lock, true, lock), (.windowDisable m pt n w c, false, false), (.windowLock m pt n w c en, en, true)] →
    (s.fldn (.port pt) F.PRT_WIN_CTL_LOCK n.val ≠ 1 → w ≠ 3 → s.winEn pt n.val = false → (en = true → s.winOk pt n.val w.val = true) →
      Completes i s fun t =>
        t.fldn (.port pt) F.PRT_WIN_CTL_EN n.val = b2n en ∧ t.fldn (.port pt) F.PRT_WIN_CTL_WTYPE n.val = w.val ∧
        t.fldn (.port pt) F.PRT_WIN_CTL_CMODE n.val = c.val ∧ (lock = true → t.fldn (.port pt) F.PRT_WIN_CTL_LOCK n.val = 1) ∧
        (lock = false → t.fldn (.port pt) F.PRT_WIN_CTL_LOCK n.val = s.fldn (.port pt) F.PRT_WIN_CTL_LOCK n.val) ∧
        KeepRegs s t (fs.map fun f => fkey (.port pt) f n.val) ∧ OnlyRegs (writing m s) t) ∧
    (s.fldn (.port pt) F.PRT_WIN_CTL_LOCK n.val ≠ 1 → s.winEn pt n.val = true →
      Completes i s fun t => ∃ r,
        r.fldn (.port pt) F.PRT_WIN_CTL_EN n.val = b2n en ∧
        (lock = true → r.fldn (.port pt) F.PRT_WIN_CTL_LOCK n.val = 1) ∧
        KeepRegs s r [fkey (.port pt) F.PRT_WIN_CTL_EN n.val, fkey (.port pt) F.PRT_WIN_CTL_LOCK n.val] ∧ OnlyRegs (writing m s) r ∧
        Notes (.port pt) r t ∧
        (w.val ≠ s.fldn (.port pt) F.PRT_WIN_CTL_WTYPE n.val ∨ c.val ≠ s.fldn (.port pt) F.PRT_WIN_CTL_CMODE n.val → Room s →
          Logs t 40 (s.domainOf (.port pt)) 0 n.val s.time)) ∧
    (s.fldn (.port pt) F.PRT_WIN_CTL_LOCK n.val = 1 ∨ (w = 3 ∧ s.winEn pt n.val = false) → Room s →
      Completes i s fun t => Notes (.port pt) (writing m s) t ∧ Logs t 40 (s.domainOf (.port pt)) 0 n.val s.time)) ∧
  (∀ (s : State) (x : Fin 536870912) (q : Miss), Tab.get? s.dev.xlat.misses x.val = some q →
    ((∀ d, s.dev.xlat.adv = some d → Tab.has d.sealed x.val = false) →
      ∀ b, burstVerdict b = .uncorrectable → Completes (.extentCacheFill x b) s fun t => x.val ∈ t.dev.xlat.bad ∧ Opens t .root 0 .root) ∧
    (∀ d b, s.dev.xlat.adv = some d → Tab.has d.sealed x.val = true → burstVerdict b = .uncorrectable →
      Completes (.extentCacheFill x b) s fun t => t.dev.xlat.bad = s.dev.xlat.bad ∧ Opens t .root 0 .root) ∧
    (∀ b j, s.dev.xlat.adv = none → s.dev.xlat.heldMiss = [] → q.waiters = [] → burstVerdict b = .corrected j →
      Completes (.extentCacheFill x b) s fun t => x.val ∈ Tab.getD t.dev.xlat.cached (xcSet x.val) [] ∧
        t.fld (regionPc (x.val * 16)) F.RSV_ECC_CNT_CE = (s.fld (regionPc (x.val * 16)) F.RSV_ECC_CNT_CE + 1) % 2 ^ F.RSV_ECC_CNT_CE.w) ∧
    (s.dev.xlat.adv = none → Completes (.extentCacheFill x 0) s fun t =>
      x.val ∈ Tab.getD t.dev.xlat.cached (xcSet x.val) [] ∧ t.dev.xlat.map = s.dev.xlat.map ∧
      (s.dev.xlat.heldMiss = [] → Tab.get? t.dev.xlat.misses x.val = none) ∧
      (s.dev.xlat.heldMiss = [] → ∀ a pt tag, q.waiters = [a] → q.entry.type = .unmapped → a.origin = .host pt tag → s.xDown pt.x = false →
        t.out = [.answer (.host pt tag) .i none a.op.isRead] ∧ t.mem = s.mem ∧
        (Room s → Unlimited s 42 (.port pt) → Logs t 42 (s.domainOf (.port pt)) 0 a.x s.time)))) ∧
  (∀ (s : State) (m : Master), Completes (.extentCacheInvalidate m) s fun t =>
    t.fld .root F.DEV_XC_CTL_BUSY = 1 ∧ KeepRegs s t (places .root [F.DEV_XC_CTL_BUSY]) ∧
    t = { writing m s with regs := t.regs, dev := { (writing m s).dev with xlat := { s.dev.xlat with cached := [], hurt := [] } } }) ∧
  (∀ s : State, Completes .extentCacheInvalidateDone s fun t =>
    t.fld .root F.DEV_XC_CTL_BUSY = 0 ∧ KeepRegs s t (places .root [F.DEV_XC_CTL_BUSY]) ∧ OnlyRegs (begun s) t)

/-- R56, R57, R64-R67, R69, R71: an entry that passes its checks is staged in the open buffer; an advance seals it as the next epoch, waits behind one
that runs, and is answered with the epoch's number; the sealed entries written take effect in the map; the advance ends with DEV_EPOCH_DONE and EV045
or EV048 once nothing of the old epoch is live, and is warned of once; a stripe set that nothing names is defined. The model's choices and readings
that this rests on: log entries 16, 102, 142. -/
def Obligations.MapEpochs : Prop :=
  (∀ (s : State) (h : Hdr) (x : Fin 536870912) (w : BitVec 128), RunsOnDevice s h 0x0100 →
    (∀ buf e, s.dev.xlat.openBuf = some buf → MapEntry.ofNum w.toNat (fun _ => true) = some e → s.stageOk x.val e buf = true →
      Tab.has buf x.val = true ∨ buf.length < 4096 →
      Completes (.mapStage h x w) s fun t => Done t h [] ∧ Replied h { begun s with dev := { (begun s).dev with xlat := { s.dev.xlat with
        openBuf := some (Tab.put buf x.val { e, closes := (s.entry x.val).type == .moving && (s.entry x.val).home == s.swid }) } } } t) ∧
    (∀ buf, s.dev.xlat.openBuf = some buf → (∀ e, MapEntry.ofNum w.toNat (fun _ => true) = some e → s.stageOk x.val e buf = false) →
      Completes (.mapStage h x w) s fun t => Answered t h stInvalid 0 1 [] ∧ Replied h (begun s) t) ∧
    (s.dev.xlat.openBuf = none → Completes (.mapStage h x w) s fun t => Answered t h stBusy 0 1 [] ∧ Replied h (begun s) t)) ∧
  (∀ (s : State) (h : Hdr) (b : Tab Staged), RunsOnDevice s h 0x0101 → s.dev.xlat.openBuf = some b →
    (s.dev.xlat.adv = none → s.dev.mov.hold = none →
      Completes (.mapAdvance h) s fun t =>
        t.fld .root F.DEV_EPOCH_CUR = (s.fld .root F.DEV_EPOCH_CUR + 1) % 2 ^ 32 ∧ t.fld .root F.DEV_EPOCH_STAT_STATE = 1 ∧
        (∃ a, t.dev.xlat.adv = some a ∧ a.written = false ∧ a.flip = false ∧ a.since = s.time ∧ a.warned = false ∧
          a.sealed = (Tab.keep b fun y g => !s.sealDrop y g).map fun e => (e.1, e.2.e)) ∧
        t.dev.xlat.openBuf = some [] ∧ t.dev.xlat.map = s.dev.xlat.map ∧ Done t h [(s.fld .root F.DEV_EPOCH_CUR + 1) % 2 ^ 32] ∧ t.mem = s.mem) ∧
    (s.dev.xlat.adv ≠ none →
      Completes (.mapAdvance h) s fun t => Done t h [(s.fld .root F.DEV_EPOCH_CUR + 1) % 2 ^ 32] ∧
        Replied h { begun s with dev := { (begun s).dev with xlat := { s.dev.xlat with openBuf := none, queued := some b } } } t) ∧
    (s.dev.xlat.adv = none → s.dev.mov.hold ≠ none →
      Completes (.mapAdvance h) s fun t =>
        t = { begun s with dev := { (begun s).dev with xlat := { s.dev.xlat with openBuf := none, queued := some b, heldReply := some h } } })) ∧
  (∀ (s : State) (a : Advance), s.dev.xlat.adv = some a →
    (a.written = false → Completes .sealedEntriesWritten s fun t =>
      t.dev.xlat.map = a.sealed.foldl (fun m e => Tab.setD m MapEntry.unmapped e.1 e.2) s.dev.xlat.map ∧
      t.dev.xlat.adv = some { a with written := true } ∧ (∀ x ∈ t.dev.xlat.bad, x ∈ s.dev.xlat.bad ∧ Tab.has a.sealed x = false) ∧
      t.regs = s.regs ∧ t.mem = s.mem) ∧
    (a.written = true → s.oldLive = false → s.dev.xlat.queued = none → Completes .epochAdvanceComplete s fun t =>
      t.dev.xlat.adv = none ∧ t.fld .root F.DEV_EPOCH_DONE_DONE = s.fld .root F.DEV_EPOCH_CUR % 2 ^ 32 ∧ t.fld .root F.DEV_EPOCH_STAT_STATE = 0 ∧
      (∀ k ∈ a.slots, Tab.get? t.dev.mov.slots k = none) ∧ t.dev.xlat.map = s.dev.xlat.map ∧ t.mem = s.mem ∧
      (Room s → Logs t (if a.flip then 48 else 45) .root 0 (s.fld .root F.DEV_EPOCH_CUR) s.time) ∧
      KeepRegs s t (places .root [F.DEV_EPOCH_DONE_DONE, F.DEV_EPOCH_STAT_STATE] ++ notedPlaces .root)) ∧
    (a.warned = false → s.fld .root F.DEV_EPOCH_WARN_WARN_US ≠ 0 → Completes .epochWarnExpiry s fun t =>
      Notes .root { begun s with dev := { (begun s).dev with xlat := { s.dev.xlat with adv := some { a with warned := true } } } } t ∧
      (Room s → Logs t 46 .root 0 (s.fld .root F.DEV_EPOCH_CUR) s.time))) ∧
  (∀ (s : State) (h : Hdr) (n : Fin 4096) (w : Fin 4) (next : BitVec 24) (ms : List (Fin 128 × Fin 2097152)) (l : List (Fin 128 × Nat)),
    RunsOnDevice s h 0x0102 → l = (ms.take (ssetWidth w)).map (fun m => (m.1, m.2.val)) →
    (s.ssetOk (ssetWidth w) next.toNat l = true → s.ssetNamed n = false →
      Completes (.ssetDefine h n w next ms) s fun t => Done t h [] ∧ Replied h { begun s with dev := { (begun s).dev with xlat := { s.dev.xlat with
        ssets := Tab.put s.dev.xlat.ssets n.val { members := l, next := next.toNat } } } } t) ∧
    (s.ssetOk (ssetWidth w) next.toNat l = false → Completes (.ssetDefine h n w next ms) s fun t => Answered t h stInvalid 0 1 [] ∧ Replied h (begun s) t) ∧
    (s.ssetOk (ssetWidth w) next.toNat l = true → s.ssetNamed n = true →
      Completes (.ssetDefine h n w next ms) s fun t => Answered t h stBusy 0 1 [] ∧ Replied h (begun s) t))

/-! ### The data mover (spec 03) -/

/-- R82-R85, R95: a pass that ends with few marked lines leaves its extent READY, with more it starts another pass over them, HOT with EV050 once
MAX_PASSES have run without READY; a pass reads the bitmap words it has not read before it ends; a line read of the source, or held in the Reservoir,
is written to the destination; a lost source opens the fault of EV052 and a lost destination logs EV053, the copy stopped; DEV_MOV_CTL, MOVE_QUERY and
DM_COPY do what they name. The model's choices and readings that this rests on: log entries 16, 18, 20, 41, 123, 124, 125, 144. -/
def Obligations.MoverCopies : Prop :=
  (∀ (s : State) (t0 : Fin 65536) (m : MovSlot), Tab.get? s.dev.mov.slots t0.val = some m → s.movStops = false → m.stopped = false →
    m.state = .copy ∨ m.state = .hot → m.todo = 0 → m.writing = 0 →
    (m.word = 512 → maskCount (s.marksOf t0.val) ≤ s.fld .root F.DEV_MOV_CTL_HOLD_LINES →
      Completes (.movePassComplete t0) s fun t =>
        Tab.get? t.dev.mov.slots t0.val = some { m with state := .ready, passes := m.passes + 1, tries := 0, firstDone := true } ∧
        (∀ k, k ≠ t0.val → Tab.get? t.dev.mov.slots k = Tab.get? s.dev.mov.slots k) ∧
        t = { begun s with dev := { (begun s).dev with mov := { s.dev.mov with slots := t.dev.mov.slots } } }) ∧
    (m.word = 512 → s.fld .root F.DEV_MOV_CTL_HOLD_LINES < maskCount (s.marksOf t0.val) →
      Completes (.movePassComplete t0) s fun t => ∃ r q,
        Tab.get? r.dev.mov.slots t0.val = some q ∧ q.x = m.x ∧ q.passes = m.passes + 1 ∧ q.firstDone = true ∧ q.writing = 0 ∧
        q.todo = 0 ∧ q.word = 0 ∧ r.dev.mov.marks = s.dev.mov.marks ∧
        (q.state = .hot ↔ m.state = .hot ∨ (s.fld .root F.DEV_MOV_CTL_MAX_PASSES ≠ 0 ∧ s.fld .root F.DEV_MOV_CTL_MAX_PASSES ≤ m.tries + 1)) ∧
        (q.state ≠ .hot → q.state = .copy) ∧ r = { begun s with dev := { (begun s).dev with mov := r.dev.mov } } ∧ Notes .root r t ∧
        (q.state = .hot → m.hotLogged = false → Room s → Logs t 50 .root 0 m.x s.time)) ∧
    (m.word = 0 → NoHurt s → s.marksOf t0.val < 2 ^ 32768 → maskDiff (s.marksOf t0.val) (s.poisonMask m.x) ≠ 0 →
      Completes (.movePassComplete t0) s fun t =>
        Tab.get? t.dev.mov.slots t0.val = some { m with word := 512, todo := s.marksOf t0.val } ∧ t.marksOf t0.val = 0 ∧
        t = { begun s with dev := { (begun s).dev with mov := t.dev.mov } })) ∧
  (∀ (s : State) (t0 : Fin 65536) (line : Fin 32768) (d : Line) (m : MovSlot), Tab.get? s.dev.mov.slots t0.val = some m → m.stopped = false →
    s.movStops = false → s.linePoisoned (m.x * 32768 + line.val) = false → s.wbWaits (m.x * 32768 + line.val) = false → m.word = 512 →
    m.state = .copy ∨ m.state = .hot → bitOf m.todo line.val = true → bitOf m.writing line.val = false → Tab.get? s.dev.rsv.merge (m.x * 32768 + line.val) = none →
    (∀ q a, s.heldAt (s.entry m.x).tgtA (m.x * 32768 + line.val) = none → s.setSuspect (s.cacheSet (m.x * 32768 + line.val)) = false →
      s.place (s.entry m.x).tgtA ((m.x * 32768 + line.val) * 64) = .module q a →
      (∀ pt dpa i k, s.place (s.entry m.x).tgtB ((m.x * 32768 + line.val) * 64) = .module pt dpa → s.mode pt.g = .m →
        Tracked s (XPort.int 6) pt i k → (s.freeTag q).isSome = true →
        Completes (.copyReadComplete t0 line d ⟨false, 0⟩) s fun t =>
          t.out = [.toModule pt (i, (s.ortGen i + 1) % 16) ((s.ortGen i + 1) % 16 * 4096 + k) .memWr dpa d (BitVec.allOnes 64) false] ∧
          (∃ q, Tab.get? t.dev.mov.slots t0.val = some q ∧ q = { m with
            todo := maskDiff m.todo (2 ^ line.val), writing := m.writing ||| 2 ^ line.val }) ∧ t.mem = s.mem) ∧
      (∀ i k, s.place (s.entry m.x).tgtB ((m.x * 32768 + line.val) * 64) = .lost → Tracked s (XPort.int 6) q i k →
        Completes (.copyReadComplete t0 line d ⟨false, 0⟩) s fun t =>
          Tab.get? t.dev.mov.slots t0.val = some { m with state := .failedDst } ∧ t.mem = s.mem ∧ t.out = [] ∧ (Space s → Logs t 53 .root 0 m.x s.time))) ∧
    (∀ (p : Nat × Nat) (y : Way) (bad : Bool), s.heldAt (s.entry m.x).tgtA (m.x * 32768 + line.val) = some p → s.way? p.1 p.2 = some y →
      s.unitNamed (p.1 / 2048) = true ∨ (s.findWay (s.cacheSet (m.x * 32768 + line.val)) (m.x * 32768 + line.val)).isSome = true →
      (∀ pt dpa i k, s.place (s.entry m.x).tgtB ((m.x * 32768 + line.val) * 64) = .module pt dpa → s.mode pt.g = .m → Tracked s (XPort.int 6) pt i k →
        Completes (.copyReadComplete t0 line d ⟨bad, 0⟩) s fun t =>
          t.out = [.toModule pt (i, s.ortGen i) (s.ortGen i * 4096 + k) .memWr dpa y.data (BitVec.allOnes 64) false] ∧
          (∃ q, Tab.get? t.dev.mov.slots t0.val = some q ∧ q = { m with
            todo := maskDiff m.todo (2 ^ line.val), writing := m.writing ||| 2 ^ line.val }) ∧ t.mem = s.mem) ∧
      (s.place (s.entry m.x).tgtB ((m.x * 32768 + line.val) * 64) = .lost →
        Completes (.copyReadComplete t0 line d ⟨bad, 0⟩) s fun t =>
          Tab.get? t.dev.mov.slots t0.val = some { m with state := .failedDst } ∧ t.mem = s.mem ∧ t.out = [] ∧ (Space s → Logs t 53 .root 0 m.x s.time))) ∧
    (s.heldAt (s.entry m.x).tgtA (m.x * 32768 + line.val) = none → s.place (s.entry m.x).tgtA ((m.x * 32768 + line.val) * 64) = .lost →
      Completes (.copyReadComplete t0 line d ⟨false, 0⟩) s fun t =>
        Tab.get? t.dev.mov.slots t0.val = some { m with state := .failedSrc } ∧ Opens t .root 1 .root)) ∧
  (∀ (s : State) (m : Master) (v : BitVec 32), Completes (.dataMoverPause m v) s fun t =>
    (∀ f ∈ (regSpec .root .DEV_MOV_CTL).fields, f.acc = .rw → t.fld .root f = f.bring (f.part v.toNat) % 2 ^ f.w) ∧
    KeepRegs s t ((regSpec .root .DEV_MOV_CTL).fields.map fun f => fkey .root f 0) ∧
    (∀ k q, Tab.get? s.dev.mov.slots k = some q → Tab.get? t.dev.mov.slots k = some
      (if q.state = .ready ∧ t.fld .root F.DEV_MOV_CTL_HOLD_LINES < maskCount (s.marksOf k) then { q with state := .copy, word := 0, todo := 0 } else q)) ∧
    t = { writing m s with regs := t.regs, dev := { (writing m s).dev with mov := { s.dev.mov with slots := t.dev.mov.slots } } }) ∧
  (∀ (s : State) (h : Hdr) (t0 : Fin 65536), RunsOnDevice s h 0x0103 → Completes (.moveQuery h t0) s fun t => Replied h (begun s) t ∧
    (∀ m, Tab.get? s.dev.mov.slots t0.val = some m →
      Done t h [movStateNum m.state, m.passes, maskCount (s.marksOf t0.val), b2n m.firstDone]) ∧
    (Tab.get? s.dev.mov.slots t0.val = none → Done t h [8, 0, 0, 0])) ∧
  (∀ (s : State) (h : Hdr) (a b : PortId) (x y len : BitVec 42), RunsOnDevice s h 0x0104 → Completes (.dmCopy h a b x y len) s fun t =>
    t = { begun s with
      bg := s.bg ++ [{ hdr := h, opcode := 0x0104, unit := none, args := [] }]
      out := [.dmCopy a b x.toNat y.toNat len.toNat] }) ∧
  (∀ (s : State) (b : Bg), Running s 0x0104 none b → Completes .dmCopyDone s fun t =>
    Done t b.hdr [] ∧ Replied b.hdr { begun s with bg := s.bg.filter fun c => !(c.opcode == 0x0104 && c.unit == none) } t)

/-- R86-R89: a hold takes READY extents while no advance runs and the mover is neither paused, fenced nor in a quiesce; once their writes have drained the
marked lines are copied again; with nothing left to copy the hold flips, seals the final entries as the next epoch and releases the parked writes; an
abort returns the extents to COPY with EV049. The hold's length enters DEV_MOV_HOLD. The model's choices and readings that this rests on: log entries
3, 41, 113, 123. -/
def Obligations.FinalHold : Prop :=
  (∀ (s : State) (l : List Nat), l = holdPick s.marksOf (s.fld .root F.DEV_MOV_CTL_HOLD_LINES) s.dev.mov.slots 0 0 → l ≠ [] →
    s.movStops = false → s.dev.xlat.adv = none → s.dev.xlat.queued = none → s.dev.mov.hold = none → s.isFenced (.engine 3) = false →
    Completes .holdStart s fun t =>
      t.dev.mov.hold = some { slots := l, since := s.time, drained := false, parked := [] } ∧ l.length ≤ 256 ∧
      (∀ k m, Tab.get? s.dev.mov.slots k = some m → Tab.get? t.dev.mov.slots k = some (if k ∈ l then { m with state := .hold } else m)) ∧
      t.dev.mov.marks = s.dev.mov.marks ∧ t = { begun s with dev := { (begun s).dev with mov := t.dev.mov } }) ∧
  (∀ (s : State) (h : Hold), s.dev.mov.hold = some h →
    (h.drained = false → s.holdBusy h = false → s.movStops = false → Completes .holdSourceDrainDone s fun t =>
      t.dev.mov.hold = some { h with drained := true } ∧
      (∀ k m, Tab.get? s.dev.mov.slots k = some m → Tab.get? t.dev.mov.slots k =
        some (if k ∈ h.slots then { m with todo := s.marksOf k } else m)) ∧
      (∀ k ∈ h.slots, t.marksOf k = 0) ∧ t = { begun s with dev := { (begun s).dev with mov := t.dev.mov } }) ∧
    (h.drained = true → s.holdBusy h = false → s.movStops = false →
      (∀ k ∈ h.slots, ∃ m, Tab.get? s.dev.mov.slots k = some m ∧ m.state = .hold ∧ m.todo = 0 ∧ m.writing = 0 ∧
        maskDiff (s.marksOf k) (s.poisonMask m.x) = 0) →
      Completes .flip s fun t =>
        t.dev.mov.hold = none ∧ t.fld .root F.DEV_EPOCH_CUR = (s.fld .root F.DEV_EPOCH_CUR + 1) % 2 ^ 32 ∧ t.fld .root F.DEV_EPOCH_STAT_STATE = 1 ∧
        (∃ a, t.dev.xlat.adv = some a ∧ a.flip = true ∧ a.written = false ∧
          ∀ x e, Tab.get? a.sealed x = some e → x ∈ s.heldX h ∧ e = finalEntry (s.mapAt x)) ∧
        (∀ k m, k ∈ h.slots → Tab.get? s.dev.mov.slots k = some m → Tab.get? t.dev.mov.slots k = some { m with state := .flipped })) ∧
    (s.dev.xlat.queued = none → Completes .holdAbort s fun t =>
      t.dev.mov.hold = none ∧
      t.fld .root F.DEV_MOV_HOLD_MAX_NS = max (s.fld .root F.DEV_MOV_HOLD_MAX_NS) (min 4095 (s.time - h.since)) ∧
      (∀ k m, k ∈ h.slots → Tab.get? s.dev.mov.slots k = some m → m.state = .hold →
        Tab.get? t.dev.mov.slots k = some { m with state := .copy, word := 0, todo := 0 } ∧
        (Tab.has s.dev.mov.marks k = true → h.parked = [] → s.dev.coh.atomWait = [] → t.marksOf k = s.marksOf k ||| m.todo ||| m.writing)) ∧
      (h.parked = [] → s.dev.coh.atomWait = [] → t.mem = s.mem ∧ (Room s → Logs t 49 .root 0 h.slots.length s.time))))

/-! ### Floodplain (spec 04) -/

/-- R100-R103, R107, R108, R112, R121, R122, R126, R251: a lossless cell joins its class queue where its class has room, in its reserved part first, while
occupancy is below the push-out threshold; it waits behind the cells of its ingress that wait, and where it finds no room and nothing is to be pushed
out; at the threshold one RMAB packet is pushed out first; without an egress it is discarded with EV100, or, as a request, tracked as a lost path; a
BAD cell leaves no trace but in its packet and pool, and takes a begun request's tracker entry with it; an answer to no OPEN entry is counted with
EV060 and discarded. A request that is sent on to a module or fabric port is tracked first. The next ingress that waits is tried again with its first
cell or message. The model's choices and readings that this rests on: log entries 104, 132, 143. -/
def Obligations.LosslessAdmission : Prop :=
  (∀ (s : State) (c c' : Cell) (fast : Bool) (x : XPort), s.xDown c.ing = false → c.cls ≠ .rmab → Taken s c → s.cellEgress c = some (x, c') →
    c.bad = false → s.xDown x = false →
    (∀ (r : ReqInfo) (i : Nat), c.req = some r → s.tracksAt x = true → (∀ pt, x.port? = some pt → s.mode pt.g ≠ .m) → Taken s c → s.ingressFree c.ing c.cls = true →
      s.ingressFree c.ing (ortCls r.op) = true → s.hasRoom c' = false → Tab.freeBelow s.dev.ort.entries 65536 = some i → s.ortRoom c.ing = true →
      s.fpTotal < s.fld .root F.DEV_FP_PO_PO_THR → c.cls ≠ .mrsp → s.clsRoom c.cls false = some true →
      Completes (.losslessCellArrival c fast) s fun t =>
        (∃ e, Tab.get? t.dev.ort.entries i = some e ∧ e.isOpen = true ∧ e.lost = false ∧ e.port = c.ing ∧ e.egr = x ∧ e.info = r ∧ e.ctx = .fwd (s.cellOrigin c r) ∧
          e.tIssue = s.time) ∧
        t.queue x c.cls = joined s x { c' with ort := some (i, s.ortGen i), req := none } true fast ∧ t.mem = s.mem ∧ t.out = []) ∧
    (c.req = none ∨ s.tracksAt x = false →
    (Tab.getD s.dev.flood.waiting (qKey c.ing c.cls) [] ≠ [] → s.hasRoom c = false →
      Completes (.losslessCellArrival c fast) s fun t => CellFrame c s t ∧ Waits s t c.ing c.cls (.cell c')) ∧
    (∀ r, Tab.getD s.dev.flood.waiting (qKey c.ing c.cls) [] = [] ∨ s.hasRoom c = true → s.fpTotal < s.fld .root F.DEV_FP_PO_PO_THR →
      s.fpRoom c' false = some r →
      Completes (.losslessCellArrival c fast) s fun t => CellFrame c s t ∧ Joins s t x c' r (joined s x c' r fast) ∧
        t.dev.flood = { s.dev.flood with resUsed := t.dev.flood.resUsed, shUsed := t.dev.flood.shUsed, queues := t.dev.flood.queues } ∧
        t.fld .root F.DEV_FP_PEAK_PEAK = max (s.fld .root F.DEV_FP_PEAK_PEAK) (min (2 ^ 20 - 1) (s.fpTotal + 1))) ∧
    (Tab.getD s.dev.flood.waiting (qKey c.ing c.cls) [] = [] → s.fpRoom c' false = none → s.spillFrom = none →
      Completes (.losslessCellArrival c fast) s fun t => CellFrame c s t ∧ Waits s t c.ing c.cls (.cell c')) ∧
    (∀ (y : XPort) (i : Nat) (p : Pkt), Tab.getD s.dev.flood.waiting (qKey c.ing c.cls) [] = [] → s.fld .root F.DEV_FP_PO_PO_THR ≤ s.fpTotal →
      s.fpRoom c' false = some true → s.spillFrom = some y → youngestIdle (s.queue y .rmab) 0 none = some i → (s.queue y .rmab)[i]? = some p →
      c.cls ≠ .rmac ∨ x ≠ y →
      Completes (.losslessCellArrival c fast) s fun t => PushedOut s t y i p ∧ t.queue x c.cls = joined s x c' true fast ∧
        t.mem = s.mem ∧ t.out = []))) ∧
  (∀ (s : State) (c : Cell) (fast : Bool), s.xDown c.ing = false → c.cls ≠ .rmab → Comes s c → c.bad = true →
    (NoneBegun s c.ing c.cls → Completes (.losslessCellArrival c fast) s fun t =>
      t.dev.ort = s.dev.ort ∧ t.regs = s.regs ∧ t.hist = s.hist ∧ t.out = [] ∧ t.mem = s.mem) ∧
    (∀ (x : XPort) (p : Pkt) (i g : Nat) (e : OrtEntry), Tab.getD s.dev.flood.waiting (qKey c.ing c.cls) [] = [] → s.dev.flood.queues = [(qKey x c.cls, [p])] →
      p.first.ing = c.ing → p.complete = false → p.started = false → p.first.answers = false → p.first.ort = some (i, g) →
      Tab.get? s.dev.ort.entries i = some e → e.isOpen = true → e.gen = g → e.port = c.ing →
      Completes (.losslessCellArrival c fast) s fun t => Tab.get? t.dev.ort.entries i = none ∧ t.queue x c.cls = [] ∧ t.out = [] ∧ t.mem = s.mem)) ∧
  (∀ (s : State) (c : Cell) (fast : Bool), s.xDown c.ing = false → c.cls ≠ .rmab → Comes s c → c.bad = false → s.isLate c = true →
    Completes (.losslessCellArrival c fast) s fun t =>
      t.fld .root F.DEV_ORT_LATE_COUNT = (s.fld .root F.DEV_ORT_LATE_COUNT + 1) % 2 ^ F.DEV_ORT_LATE_COUNT.w ∧ t.dev.ort = s.dev.ort ∧
      t.dev.flood.queues = s.dev.flood.queues ∧ t.dev.flood.waiting = s.dev.flood.waiting ∧ t.out = [] ∧ t.mem = s.mem ∧
      (Room s → Unlimited s 60 c.ing.evUnit → Logs t 60 (s.domainOf c.ing.evUnit) 0 0 s.time)) ∧
  (∀ (s : State) (c : Cell) (fast : Bool) (r : ReqInfo) (i : Nat), s.xDown c.ing = false → c.cls ≠ .rmab → Taken s c → c.bad = false → s.cellEgress c = none →
    c.req = some r → (∀ pt, c.ing.port? = some pt → s.mode pt.g ≠ .m) → s.ingressFree c.ing (ortCls r.op) = true → Tab.freeBelow s.dev.ort.entries 65536 = some i →
    s.ortRoom c.ing = true →
    Completes (.losslessCellArrival c fast) s fun t => t.dev.flood.queues = s.dev.flood.queues ∧
      (∃ e, Tab.get? t.dev.ort.entries i = some e ∧ e.isOpen = true ∧ e.lost = true ∧ e.port = c.ing ∧ e.info = r ∧ e.ctx = .fwd (s.cellOrigin c r)) ∧
      t.mem = s.mem ∧ t.out = [] ∧ (Space s → Unlimited s 100 c.ing.evUnit → Logs t 100 (s.domainOf c.ing.evUnit) 0 (cellDstSw c s.swid).val s.time)) ∧
  (∀ (s : State) (c : Cell) (fast : Bool), s.xDown c.ing = false → c.cls ≠ .rmab → Taken s c → c.bad = false → s.cellEgress c = none → c.req = none →
    Completes (.losslessCellArrival c fast) s fun t => t.dev.flood.queues = s.dev.flood.queues ∧ t.dev.flood.waiting = s.dev.flood.waiting ∧
      (∀ i e, Tab.get? s.dev.ort.entries i = some e → Tab.get? t.dev.ort.entries i = some (if c.ort = some (i, e.gen) ∧ c.answers = false ∧ e.isOpen = true then
        { e with lost := true } else e)) ∧ t.mem = s.mem ∧ t.out = [] ∧
      (Space s → Unlimited s 100 c.ing.evUnit → Logs t 100 (s.domainOf c.ing.evUnit) 0 (cellDstSw c s.swid).val s.time)) ∧
  (∀ (s : State) (k : Nat) (d : Cell) (x : XPort) (rest : List Wait), s.nextWaiting d.cls = some k → Tab.getD s.dev.flood.waiting k [] = .cell d :: rest →
    s.waitEgress d = some x → s.xDown x = false → d.req = none ∨ s.tracksAt x = false → ∀ fast : Bool,
    (∀ r, s.fpTotal < s.fld .root F.DEV_FP_PO_PO_THR → s.fpRoom d false = some r →
      Completes (.waitingCellAdmit ⟨d.cls, fast⟩) s fun t => CellFrame d s t ∧ Joins s t x d r (joined s x d r fast) ∧
        Tab.getD t.dev.flood.waiting k [] = rest ∧ Tab.get? t.dev.flood.rr d.cls.num = some k ∧
        ∀ j, j ≠ k → Tab.get? t.dev.flood.waiting j = Tab.get? s.dev.flood.waiting j) ∧
    (k = qKey d.ing d.cls → s.fpRoom d false = none → s.spillFrom = none →
      Completes (.waitingCellAdmit ⟨d.cls, fast⟩) s fun t => Tab.get? t.dev.flood.rr d.cls.num = some k ∧
        (∀ j, Tab.getD t.dev.flood.waiting j [] = Tab.getD s.dev.flood.waiting j []) ∧
        t = { begun s with dev := { (begun s).dev with flood := { s.dev.flood with waiting := t.dev.flood.waiting, rr := t.dev.flood.rr } } })) ∧
  (∀ (s : State) (k : Nat) (c : Cls) (fast : Bool) (o : Out) (rest : List Wait), s.nextWaiting c = some k → Tab.getD s.dev.flood.waiting k [] = .out o :: rest →
    Completes (.waitingCellAdmit ⟨c, fast⟩) s fun t => t.out = [o] ∧ Tab.getD t.dev.flood.waiting k [] = rest ∧ Tab.get? t.dev.flood.rr c.num = some k ∧
      (∀ j, j ≠ k → Tab.get? t.dev.flood.waiting j = Tab.get? s.dev.flood.waiting j) ∧
      t = { begun s with
        out := [o]
        dev := { (begun s).dev with flood := { s.dev.flood with waiting := t.dev.flood.waiting, rr := t.dev.flood.rr } } })

/-- R99, R100, R103, R109, R113, R114, R116: an RMAB packet within its four limits is admitted, all its cells together, its first with what has arrived of
it and each later one as it comes; past any of them it is trimmed, its notice taking a place of its egress's RMAC queue beyond SHMAX, with EV057; a
packet that has waited past AGE_US with its first cell not begun is evicted and trimmed with EV056, and where none has, nothing changes. The model's
choices and readings that this rests on: log entries 16, 103. -/
def Obligations.BulkAdmissionAndTrimming : Prop :=
  (∀ (s : State) (b : BulkIn) (c c' : Cell) (x : XPort) (here : Nat), b.cell = c → here = (if b.whole then c.cells else min 1 c.cells) → s.xDown c.ing = false →
    c.cls = .rmab → c.sop = true → s.linkShut c = false → s.cellEgress c = some (x, c') → c.bad = false → s.xDown x = false →
    (BulkFits s x c.cells →
      Completes (.rmabPacketArrival b) s fun t => CellFrame c s t ∧
        t.queue x .rmab = s.queue x .rmab ++ [{ newPkt c' (((bulkCells c' b.rest).take here).map fun d => ⟨d, false⟩) (here == c.cells)
          (s.colPath x c' b.fast) s.time with owed := c.cells - here }] ∧
        (∀ k, k ≠ qKey x .rmab → Tab.get? t.dev.flood.queues k = Tab.get? s.dev.flood.queues k) ∧
        Tab.getD t.dev.flood.shUsed Cls.rmab.num 0 = Tab.getD s.dev.flood.shUsed Cls.rmab.num 0 + c.cells ∧
        (∀ k, k ≠ Cls.rmab.num → Tab.getD t.dev.flood.shUsed k 0 = Tab.getD s.dev.flood.shUsed k 0) ∧
        t.dev.flood = { s.dev.flood with shUsed := t.dev.flood.shUsed, queues := t.dev.flood.queues } ∧
        t.fld .root F.DEV_FP_PEAK_PEAK = max (s.fld .root F.DEV_FP_PEAK_PEAK) (min (2 ^ 20 - 1) (s.fpTotal + c.cells))) ∧
    (∀ (y : XPort) (r : Bool), ¬BulkFits s x c.cells → (match c.dst with | .here z => some z | .switch w => s.route .rmac c.srcSw w) = some y →
      s.fpRoom (trimCell c') true = some r →
      Completes (.rmabPacketArrival b) s fun t => Joins s t y (trimCell c') r (joined s y (trimCell c') r false) ∧
        (trimCell c').cls = .rmac ∧ (trimCell c').bytes = 64 ∧ t.mem = s.mem ∧ t.out = [] ∧
        (b.whole = true → t.dev.flood.dropRest = s.dev.flood.dropRest) ∧ (b.whole = false → qKey c.ing .rmab ∈ t.dev.flood.dropRest) ∧
        t.dev.flood = { s.dev.flood with
          resUsed := t.dev.flood.resUsed
          shUsed := t.dev.flood.shUsed
          queues := t.dev.flood.queues
          dropRest := t.dev.flood.dropRest } ∧
        (Space s → Unlimited s 57 c.ing.evUnit → Logs t 57 (s.domainOf c.ing.evUnit) 0 0 s.time))) ∧
  (∀ (s : State) (b : BulkIn) (c : Cell) (k : Nat) (q : List Pkt), b.cell = c → s.xDown c.ing = false → s.linkShut c = false → c.cls = .rmab → c.sop = false → c.bad = false →
    s.dev.flood.dropRest.contains (qKey c.ing .rmab) = false →
    Tab.find s.dev.flood.queues (fun j q => j % 8 == Cls.rmab.num && q.any fun p => p.first.ing == c.ing && !p.complete) = some (k, q) → q ≠ [] →
    Completes (.rmabPacketArrival b) s fun t => CellFrame c s t ∧
      Tab.getD t.dev.flood.queues k [] = (q.map fun p => if p.first.ing == c.ing && !p.complete then
        { p with held := p.held ++ [{ cell := { c with dst := p.first.dst, hops := p.first.hops }, inRes := false }], complete := c.eop, owed := p.owed - 1 } else p) ∧
      (∀ j, j ≠ k → Tab.get? t.dev.flood.queues j = Tab.get? s.dev.flood.queues j) ∧ t.dev.flood = { s.dev.flood with queues := t.dev.flood.queues }) ∧
  (∀ (s : State) (x : XPort) (i : Nat) (p : Pkt),
    (s.queue x .rmab).findIdx? (fun q => !q.started && decide (s.time > q.at_ + s.fld .root F.DEV_FP_RB_AGE_US * 1000)) = some i →
    (s.queue x .rmab)[i]? = some p →
    Completes (.rmabAgeEviction x) s fun t => PushedOut s t x i p ∧
      (∀ k, k ≠ qKey x .rmab → k ≠ qKey x .rmac → Tab.get? t.dev.flood.queues k = Tab.get? s.dev.flood.queues k) ∧
      (p.first.cls = .rmab → (∀ h ∈ p.held, h.cell.cls = .rmab ∧ h.inRes = false) →
        Tab.getD t.dev.flood.shUsed Cls.rmab.num 0 = Tab.getD s.dev.flood.shUsed Cls.rmab.num 0 - p.size ∧
        Tab.getD t.dev.flood.shUsed Cls.rmac.num 0 = Tab.getD s.dev.flood.shUsed Cls.rmac.num 0 + 1) ∧
      t.mem = s.mem ∧ t.out = []) ∧
  (∀ (s : State) (x : XPort),
    (s.queue x .rmab).findIdx? (fun q => !q.started && decide (s.time > q.at_ + s.fld .root F.DEV_FP_RB_AGE_US * 1000)) = none →
    Completes (.rmabAgeEviction x) s fun t => t = begun s)

/-- R102, R103, R111, R132, R136, R349: an egress sends the first cell of the class its scheduler chooses, and nothing where none is chosen; a response
with data that reads uncorrectable goes with PSN 1, any other cell that does is not sent: its packet is dropped, and a request's path is lost, its
entry's or that of one it takes, with the fault of EV064. A write of thresholds that keeps the limits sets them; one that does not logs EV062. An
egress that holds cells and stalls opens the fault of EV058, but not that of a fabric port whose link holds its cells back; an internal one loses its
queues. The model's choices and readings that this rests on: log entries 3, 7, 16, 113, 131, 151. -/
def Obligations.EgressAndThresholds : Prop :=
  (∀ (s : State) (x : XPort) (credit : List Cls) (ecc : Ecc), (∀ pt, x.port? = some pt → s.mode pt.g ≠ .f) →
    (∀ e, s.choose x credit.contains = (none, e) → Completes (.cellSend x credit ecc) s fun t =>
      t = { begun s with dev := { (begun s).dev with flood := { s.dev.flood with egress := Tab.put s.dev.flood.egress x.key e } } }) ∧
    (∀ (c : Cls) (e : Egress) (p : Pkt) (r : List Pkt) (h : HeldCell) (hs : List HeldCell), s.choose x credit.contains = (some c, e) →
      s.queue x c = p :: r → p.held = h :: hs → (ecc = .uncorrectable → FirstOf s (s.domainOf x.evUnit) 0) →
      (ecc ≠ .uncorrectable ∨ poisonable h.cell = true → Completes (.cellSend x credit ecc) s fun t =>
        t.out = [.cell (s.leaving (if ecc = .uncorrectable then { h.cell with psn := true } else h.cell)) x] ∧
        (∀ i w, h.cell.answers = true → h.cell.eop = true → h.cell.ort = some (i, w.gen) → Tab.get? s.dev.ort.entries i = some w → w.isOpen = true →
          Tab.get? t.dev.ort.entries i = none ∧ Tab.getD t.dev.ort.gens i 0 = (w.gen + 1) % 16) ∧
        t.queue x c = (if hs.isEmpty && p.complete then r else { p with held := hs, started := true, sent := p.sent + 1 } :: r) ∧
        (∀ k, k ≠ qKey x c → Tab.get? t.dev.flood.queues k = Tab.get? s.dev.flood.queues k) ∧
        (∀ k, Tab.getD t.dev.flood.resUsed k 0 = Tab.getD s.dev.flood.resUsed k 0 - if h.inRes = true ∧ k = h.cell.cls.num then 1 else 0) ∧
        (∀ k, Tab.getD t.dev.flood.shUsed k 0 = Tab.getD s.dev.flood.shUsed k 0 - if h.inRes = false ∧ k = h.cell.cls.num then 1 else 0) ∧
        Tab.get? t.dev.flood.egress x.key = some { e with sending := if hs.isEmpty && p.complete then none else some c } ∧ t.mem = s.mem ∧
        (ecc = .uncorrectable → Opens t (s.domainOf x.evUnit) 0 x.evUnit)) ∧
      (ecc = .uncorrectable → poisonable h.cell = false → Completes (.cellSend x credit ecc) s fun t =>
        t.out = [] ∧ t.queue x c = r ∧ Opens t (s.domainOf x.evUnit) 0 x.evUnit ∧ t.mem = s.mem ∧
        (∀ o w, h.cell.answers = false → h.cell.req = none → h.cell.ort = some o → Tab.get? s.dev.ort.entries o.1 = some w → w.gen = o.2 → w.isOpen = true →
          Tab.get? t.dev.ort.entries o.1 = some { w with lost := true }) ∧
        (∀ q i, h.cell.answers = false → h.cell.req = some q → (∀ pt, h.cell.ing.port? = some pt → s.mode pt.g ≠ .m) → s.ingressFree h.cell.ing (ortCls q.op) = true →
          Tab.freeBelow s.dev.ort.entries 65536 = some i → s.ortRoom h.cell.ing = true →
          ∃ w, Tab.get? t.dev.ort.entries i = some w ∧ w.isOpen = true ∧ w.lost = true ∧ w.info = q ∧ w.ctx = .fwd (s.cellOrigin h.cell q))))) ∧
  (∀ (s : State) (m : Master) (k : Fin 7) (v : BitVec 32), Writable s .root .DEV_FP_CLS_CFG k.val →
    (fpLegal (fun c => if c.num = k.val then F.DEV_FP_CLS_CFG_RES.part v.toNat else s.clsRes c) (s.shMax .rmab) = true →
      Completes (.fpThresholdWrite m k false v) s fun t =>
        t.fldn .root F.DEV_FP_CLS_CFG_RES k.val = F.DEV_FP_CLS_CFG_RES.part v.toNat ∧
        (k.val ∈ [0, 2, 4, 5] → t.fldn .root F.DEV_FP_CLS_CFG_WEIGHT k.val = max 1 (min 15 (F.DEV_FP_CLS_CFG_WEIGHT.part v.toNat))) ∧
        KeepRegs s t (fkey .root F.DEV_FP_CLS_CFG_RES k.val :: if k.val ∈ [0, 2, 4, 5] then [fkey .root F.DEV_FP_CLS_CFG_WEIGHT k.val] else []) ∧
        t = { writing m s with
          regs := t.regs
          dev := { (writing m s).dev with io := { (writing m s).dev.io with crossing := t.dev.io.crossing } } }) ∧
    (fpLegal (fun c => if c.num = k.val then F.DEV_FP_CLS_CFG_RES.part v.toNat else s.clsRes c) (s.shMax .rmab) = false →
      Completes (.fpThresholdWrite m k false v) s fun t =>
        t.fldn .root F.DEV_FP_CLS_CFG_RES k.val = s.fldn .root F.DEV_FP_CLS_CFG_RES k.val ∧
        t.fldn .root F.DEV_FP_CLS_CFG_WEIGHT k.val = s.fldn .root F.DEV_FP_CLS_CFG_WEIGHT k.val ∧ t.mem = s.mem ∧
        (Room s → Logs t 62 .root 0 k.val s.time))) ∧
  (∀ (s : State) (m : Master) (k : Fin 7) (v : BitVec 32), Writable s .root .DEV_FP_CLS_SH k.val →
    fpLegal s.clsRes (if k.val = 6 then F.DEV_FP_CLS_SH_SHMAX.part v.toNat else s.shMax .rmab) = true →
    Completes (.fpThresholdWrite m k true v) s fun t =>
      t.fldn .root F.DEV_FP_CLS_SH_SHMAX k.val = F.DEV_FP_CLS_SH_SHMAX.part v.toNat ∧ KeepRegs s t [fkey .root F.DEV_FP_CLS_SH_SHMAX k.val]) ∧
  (∀ (s : State) (x : XPort), s.anyQueued x = true →
    (∀ pt, x.port? = some pt → s.portExists pt = true → s.linkHolds pt = true → Completes (.egressStall x) s fun t => t = begun s) ∧
    (∀ pt, x.port? = some pt → s.portExists pt = true → s.linkHolds pt = false →
      Completes (.egressStall x) s fun t => Opens t (s.domainOf (.port pt)) 2 (.port pt)) ∧
    (∀ n, x = XPort.int n → FirstOf s .root 2 → s.dev.ws.safe = false →
      Completes (.egressStall x) s fun t => Opens t .root 2 .root ∧ (∀ c, t.queue x c = []) ∧ t.xDown x = s.xDown x ∧ t.mem = s.mem ∧
        ∀ i e, Tab.get? t.dev.ort.entries i = some e → e.isOpen = true → e.egr = x → e.lost = true))

/-- R126-R131: a response frees its entry, whose generation rises by one, and passes the answer on; one that no open entry awaits is counted and logged as
EV060. An entry that times out loses its path with the fault of EV067; lost paths are answered and their entries move to QUAR, with EV059 and their
count once for a lost egress; a quarantine ends with the notice it owes in the queue. A notice is sent, is taken with the lines poisoned and
acknowledged, and ends at its acknowledgement. The model's choices and readings that this rests on: log entries 3, 16, 24, 25, 124, 132. -/
def Obligations.TrackedRequests : Prop :=
  (∀ (s : State) (pt : PortId) (tag : BitVec 16) (ix : Fin 65536) (gen : Fin 16) (d : Line) (poison : Bool) (mv : MetaV) (code : Fin 7) (old : BitVec 64),
    s.xDown pt.x = false →
    (s.ortNamed pt tag.toNat ix.val gen.val = none → Completes (.ortResponse pt tag ix gen d poison mv code old) s fun t =>
      t.fld .root F.DEV_ORT_LATE_COUNT = (s.fld .root F.DEV_ORT_LATE_COUNT + 1) % 2 ^ F.DEV_ORT_LATE_COUNT.w ∧ t.dev.ort = s.dev.ort ∧ t.out = [] ∧
      t.mem = s.mem ∧ (Room s → Unlimited s 60 (.port pt) → Logs t 60 (s.domainOf (.port pt)) 0 0 s.time)) ∧
    (∀ (i : Nat) (e : OrtEntry) (o : Origin), s.ortNamed pt tag.toNat ix.val gen.val = some (i, e) → Tab.get? s.dev.ort.entries i = some e → e.ctx = .fwd o →
      (∀ k, o ≠ .headwater k) → Reaches s (s.originSw o) → Completes (.ortResponse pt tag ix gen d poison mv code old) s fun t =>
        Tab.get? t.dev.ort.entries i = none ∧ Tab.getD t.dev.ort.gens i 0 = (e.gen + 1) % 16 ∧
        (∀ j, j ≠ i → Tab.get? t.dev.ort.entries j = Tab.get? s.dev.ort.entries j ∧ Tab.getD t.dev.ort.gens j 0 = Tab.getD s.dev.ort.gens j 0) ∧
        t.out = (if s.originDown o then [] else if e.info.op = .atomic then (s.outVia (.atomicResult o code.val old)).toList
          else answered s o mv (if e.info.op = .read then some d else none) (e.info.op == .read && poison)) ∧
        t = { begun s with out := t.out, dev := { (begun s).dev with ort := { s.dev.ort with entries := t.dev.ort.entries, gens := t.dev.ort.gens } } })) ∧
  (∀ (s : State) (i : Fin 65536) (e : OrtEntry), Tab.get? s.dev.ort.entries i.val = some e → e.isOpen = true → e.lost = false →
    FirstOf s (s.domainOf e.egr.evUnit) 1 →
    Completes (.ortTimeout i) s fun t => Tab.get? t.dev.ort.entries i.val = some { e with lost := true } ∧ Opens t (s.domainOf e.egr.evUnit) 1 e.egr.evUnit ∧
      t.out = [] ∧ t.mem = s.mem) ∧
  (∀ (s : State) (i : Nat) (e : OrtEntry) (o : Origin), s.dev.ws.safe = false → Tab.keep s.dev.ort.entries (fun _ v => v.isOpen && v.lost) = [(i, e)] →
    Tab.get? s.dev.ort.entries i = some e → e.ctx = .fwd o → (∀ k, o ≠ .headwater k) → (∀ w k, o ≠ .mill w k) → Reaches s (s.originSw o) →
    Completes .ortLostPathAnswer s fun t =>
      Tab.get? t.dev.ort.entries i = some { e with isOpen := false, gen := (e.gen + 1) % 16, owed := noticeOwed e, tQuar := s.time } ∧
      (∀ j, j ≠ i → Tab.get? t.dev.ort.entries j = Tab.get? s.dev.ort.entries j) ∧
      t.out = (if s.originDown o then [] else if e.info.op = .atomic then (s.outVia (.atomicResult o 5 0)).toList else answered s o .i none (e.info.op == .read)) ∧
      t.dev.ort.lostX = [] ∧ (∀ x, s.dev.ort.lostX = [x] → Space s → Logs t 59 (s.domainOf x.evUnit) 0 (if e.egr = x then 1 else 0) s.time) ∧
      (s.dev.ort.lostX = [] → ∀ v ∈ t.hist, v.event = 59 → v ∈ s.hist) ∧ t.mem = s.mem) ∧
  (∀ (s : State) (i : Fin 65536) (e : OrtEntry), Tab.get? s.dev.ort.entries i.val = some e → e.isOpen = false →
    (∀ h, e.owed = some h → s.dev.ort.notices.length < noticeMax) →
    Completes (.ortQuarantineExpiry i) s fun t =>
      Tab.get? t.dev.ort.entries i.val = none ∧ Tab.getD t.dev.ort.gens i.val 0 = e.gen ∧
      (∀ j, j ≠ i.val → Tab.get? t.dev.ort.entries j = Tab.get? s.dev.ort.entries j ∧ Tab.getD t.dev.ort.gens j 0 = Tab.getD s.dev.ort.gens j 0) ∧
      t.dev.ort.notices = s.dev.ort.notices ++ (match e.owed with
        | none => []
        | some h => [{ line := e.info.addr / 64, lines := 1, home := h, sent := false }]) ∧
      t = { begun s with dev := { (begun s).dev with ort := t.dev.ort } }) ∧
  (∀ (s : State) (line : BitVec 44) (h : Fin 16), s.owedHome line.toNat = some h → (s.route .iotx s.swid h).isSome = true →
    Completes (.poisonAddNoticeSend line) s fun t =>
      t = { begun s with
        out := (s.outVia (.poisonAdd line.toNat 1 h)).toList
        dev := { (begun s).dev with ort := { s.dev.ort with
          notices := s.dev.ort.notices.map fun n => if n.line = line.toNat then { n with sent := true } else n } } }) ∧
  (∀ (s : State) (src : Fin 16) (line : BitVec 44), s.linePoisoned line.toNat = false → PoisonFits s line.toNat → Reaches s src →
    Completes (.poisonAddNotice src line 1) s fun t =>
      t.out = (s.outVia (.noticeAck src)).toList ∧ t.linePoisoned line.toNat = true ∧
      (∀ la, la ≠ line.toNat → t.linePoisoned la = s.linePoisoned la) ∧
      t = { begun s with out := t.out, dev := { (begun s).dev with rsv := { s.dev.rsv with poison := t.dev.rsv.poison } } }) ∧
  (∀ (s : State) (src : Fin 16) (line : BitVec 44), Completes (.poisonAddNoticeAck src line) s fun t =>
    t.dev.ort.notices = (s.dev.ort.notices.filter fun n => !(n.line == line.toNat && n.home == src)) ∧
    (∀ i e, Tab.get? s.dev.ort.entries i = some e → Tab.get? t.dev.ort.entries i = some (if e.owed = some src ∧ e.isOpen = false ∧
      e.info.addr / 64 = line.toNat then { e with owed := none } else e)) ∧
    t = { begun s with dev := { (begun s).dev with ort := { s.dev.ort with entries := t.dev.ort.entries, notices := t.dev.ort.notices } } })

/-! ### Reservoir (spec 05) -/

/-- R145, R146, R155, R158, R161, R169, R194: RSV_RESIZE within its ranges and with nothing that stands in its way stops allocation, empties the cache and
recalls the directory; its end moves the boundaries; a busy one logs EV077. RSV_PURGE drops the lines of a range, RSV_FLUSH writes the dirty ones
back, RSV_UNPIN clears their pins; a walk is answered with its write-backs complete. RSV_SET_CLEAR ends the suspicion of a set, PSN_CLEAR removes
entries of the poison list, PSN_QUERY reports them; a unit withdrawn lets its accesses go on. The model's choices and readings that this rests on: log
entries 16, 27, 145. -/
def Obligations.ReservoirCommands : Prop :=
  (∀ (s : State) (h : Hdr) (m d : BitVec 8), RunsOnDevice s h 0x0200 →
    (1 ≤ m.toNat → m.toNat ≤ 8 → d.toNat ≤ 16 → s.resizeBusy m.toNat = false → Completes (.rsvResize h m d) s fun t =>
      t.bg = s.bg ++ [{ hdr := h, opcode := 0x0200, unit := none, args := [] }] ∧ t.fld .root F.DEV_RSV_RSZ_STATE = 1 ∧
      t.dev.rsv.resize = some { mapGib := m.toNat, dirGib := d.toNat } ∧ 
      (NoHurt s → ∀ k y, Tab.get? t.dev.rsv.ways k = some y → y.lost = true ∨ y.pu = true ∨ (y.dirty = true ∧ y.pin = false ∧
        .flush y.la (k / 16) (k % 16) true ∈ Tab.getD t.dev.flood.waiting (qKey (s.stackX y.la) .mreq) [])) ∧
      t.mayAllocate = false ∧ t.mem = s.mem ∧
      (s.fld .root F.DEV_COH_LOST_LOST = 0 → (∀ en ∈ s.dev.coh.dir, en.2.shv ≠ 0) → s.dev.coh.busy.length + s.dev.coh.dir.length ≤ 4096 →
        ∀ en ∈ s.dev.coh.dir, Tab.has t.dev.coh.busy en.2.la = true)) ∧
    (1 ≤ m.toNat → m.toNat ≤ 8 → d.toNat ≤ 16 → s.resizeBusy m.toNat = true → Completes (.rsvResize h m d) s fun t =>
      Answered t h stBusy 0 1 [] ∧ (Space s → Logs t 77 (.stack 0) 0 0 s.time) ∧ t.dev.rsv = s.dev.rsv ∧ t.bg = s.bg) ∧
    (m.toNat = 0 ∨ 8 < m.toNat ∨ 16 < d.toNat → Completes (.rsvResize h m d) s fun t => Answered t h stInvalid 0 1 [] ∧ Replied h (begun s) t)) ∧
  (∀ (s : State) (z : Resize), s.dev.rsv.resize = some z →
    (s.fld .root F.DEV_RSV_RSZ_STATE ≠ 2 → s.wbOut (fun _ => true) = false → (∀ e ∈ s.dev.rsv.ways, e.2.lost = true ∨ e.2.pu = true) → s.dev.coh.dir = [] →
      Completes .resizeFlushDone s fun t => t.fld .root F.DEV_RSV_RSZ_STATE = 2 ∧
        t.fld .root F.DEV_RSV_PART_MAP_GIB = z.mapGib % 2 ^ F.DEV_RSV_PART_MAP_GIB.w ∧ t.fld .root F.DEV_RSV_PART_DIR_GIB = z.dirGib % 2 ^ F.DEV_RSV_PART_DIR_GIB.w ∧
        t.fld .root F.DEV_RSV_PART_CACHE_GIB = (124 - z.mapGib - z.dirGib) % 2 ^ F.DEV_RSV_PART_CACHE_GIB.w ∧
        t.fld .root F.DEV_MAP_SIZE_NEXT = z.mapGib * 2 ^ 26 % 2 ^ F.DEV_MAP_SIZE_NEXT.w ∧
        t.dev.rsv = { s.dev.rsv with hint := [], hintHurt := [] } ∧ t.mayAllocate = false ∧ t.mem = s.mem ∧ t.out = []) ∧
    (∀ b, s.fld .root F.DEV_RSV_RSZ_STATE = 2 → Running s 0x0200 none b →
      Completes .resizeFlushDone s fun t => Done t b.hdr [] ∧ t.fld .root F.DEV_RSV_RSZ_STATE = 0 ∧
        t.dev.rsv = { s.dev.rsv with
          resize := none
          ways := s.dev.rsv.ways.filter fun e => e.2.lost && decide (e.1 / 16 < s.nsets)
          scrub := t.dev.rsv.scrub
          suspect := s.dev.rsv.suspect.filter fun n => decide (n < s.nsets) } ∧
        (Space s → Logs t 76 (.stack 0) 0 0 s.time) ∧ t.mem = s.mem)) ∧
  (∀ (s : State) (h : Hdr) (x : Fin 536870912) (n : BitVec 30), x.val + n.toNat ≤ 2 ^ 29 →
    (RunsOnDevice s h 0x0201 → Completes (.rsvPurge h x n) s fun t => t = { begun s with
      bg := s.bg ++ [{ hdr := h, opcode := 0x0201, unit := none, args := [x.val, n.toNat] }]
      dev := { (begun s).dev with rsv := { s.dev.rsv with
        ways := s.dev.rsv.ways.filter fun e => !InWalk x.val n.toNat e.2
        scrub := t.dev.rsv.scrub } } }) ∧
    (RunsOnDevice s h 0x0203 → Completes (.rsvUnpin h x n) s fun t => t = { begun s with
      bg := s.bg ++ [{ hdr := h, opcode := 0x0203, unit := none, args := [x.val, n.toNat] }]
      dev := { (begun s).dev with rsv := { s.dev.rsv with
        ways := s.dev.rsv.ways.map fun e => (e.1, if InWalk x.val n.toNat e.2 then { e.2 with pin := false } else e.2)
        scrub := t.dev.rsv.scrub } } }) ∧
    (∀ inval, RunsOnDevice s h 0x0202 → NoHurt s → Completes (.rsvFlush h x n inval) s fun t =>
      t.bg = s.bg ++ [{ hdr := h, opcode := 0x0202, unit := none, args := [x.val, n.toNat] }] ∧
      (∀ k y, Tab.get? t.dev.rsv.ways k = some y → InWalk x.val n.toNat y = true → (y.dirty = false ∧ inval = false) ∨ (y.dirty = true ∧
        .flush y.la (k / 16) (k % 16) inval ∈ Tab.getD t.dev.flood.waiting (qKey (s.stackX y.la) .mreq) [])) ∧ t.mem = s.mem ∧
      (∀ (k : Nat) (y : Way) (pt : PortId) (dpa i q : Nat), (s.dev.rsv.ways.filter fun e => InWalk x.val n.toNat e.2 && e.2.dirty) = [(k, y)] → Tab.get? s.dev.rsv.ways k = some y →
        s.mapBadNow (y.la / 32768) = false →
        (s.entry (y.la / 32768)).type ≠ .unmapped → (s.entry (y.la / 32768)).home = s.swid →
        s.place (s.entry (y.la / 32768)).tgtA (y.la * 64) = .module pt dpa → s.mode pt.g = .m → Tracked s (s.stackX y.la) pt i q →
        t.out = [.toModule pt (i, s.ortGen i) (s.ortGen i * 4096 + q) .memWr dpa y.data (BitVec.allOnes 64) false]))) ∧
  (∀ (s : State) (b : Bg), s.bg.find? (fun b => 0x0201 ≤ b.opcode && b.opcode ≤ 0x0203) = some b → Running s b.opcode none b →
    s.wbOut (fun la => decide (b.args.getD 0 0 ≤ la / 32768) && decide (la / 32768 < b.args.getD 0 0 + b.args.getD 1 0)) = false →
    Completes .cacheRangeWalkDone s fun t =>
      Done t b.hdr [] ∧ Replied b.hdr { begun s with bg := s.bg.filter fun c => !(c.opcode == b.opcode && c.unit == none) } t) ∧
  (∀ (s : State) (h : Hdr), RunsOnDevice s h 0x0204 →
    Completes (.rsvSetClear h none) s (fun t => Done t h [] ∧ Replied h { begun s with dev := { (begun s).dev with rsv := { s.dev.rsv with
      suspect := [], suspectAll := false, ways := s.dev.rsv.ways.filter fun e => !e.2.lost } } } t) ∧
    (∀ n, n < s.nsets → Completes (.rsvSetClear h (some n)) s fun t => Done t h [] ∧ Replied h { begun s with dev := { (begun s).dev with rsv := { s.dev.rsv with
      suspect := s.dev.rsv.suspect.filter fun k => k != n, ways := s.dev.rsv.ways.filter fun e => !(e.2.lost && e.1 / 16 == n) } } } t) ∧
    (∀ n, s.nsets ≤ n → Completes (.rsvSetClear h (some n)) s fun t => Answered t h stInvalid 0 1 [] ∧ Replied h (begun s) t)) ∧
  (∀ (s : State) (h : Hdr) (x : Fin 536870912), RunsOnDevice s h 0x0205 →
    (∀ l : Fin 32768, Completes (.psnClear h x (some l)) s fun t => Done t h [] ∧ Replied h { begun s with dev := { (begun s).dev with rsv := { s.dev.rsv with
      poison := s.dev.rsv.poison.filter fun e => !(e.2.x == x.val && !e.2.all && e.2.line == l.val) } } } t) ∧
    Completes (.psnClear h x none) s (fun t => Done t h [] ∧ t.psn x.val = false ∧ Replied h { begun s with dev := { (begun s).dev with rsv := { s.dev.rsv with
      poison := s.dev.rsv.poison.filter fun e => e.2.x != x.val } } } t)) ∧
  (∀ (s : State) (h : Hdr) (x : Fin 536870912), RunsOnDevice s h 0x0206 →
    Completes (.psnQuery h x) s fun t => Done t h (s.psnReply x.val) ∧ Replied h (begun s) t) ∧
  (∀ (s : State) (u : BitVec 16), (Tab.get? s.dev.rsv.withdraw u.toNat = none → Completes (.pinnedUnitWithdrawn u) s fun t => t = begun s) ∧
    (Tab.get? s.dev.rsv.withdraw u.toNat = some [] → s.dev.coh.atomWait = [] → Completes (.pinnedUnitWithdrawn u) s fun t =>
      t = { begun s with dev := { (begun s).dev with rsv := { s.dev.rsv with withdraw := Tab.erase s.dev.rsv.withdraw u.toNat } } }) ∧
    (∀ (a : Acc) (ps w : Nat), Tab.get? s.dev.rsv.withdraw u.toNat = some [a] → s.dev.coh.atomWait = [] → a.tgt = some (.pinned u.toNat) → a.op = .memRd →
      (∀ v ∈ (s.entry a.x).units, v = u.toNat) → NoHurt s → s.mapBadNow a.x = false → s.dirSets = 0 → Tab.get? s.dev.coh.busy a.la = none →
      s.place a.tgt a.gpa = .pinned ps w → Tab.get? s.dev.rsv.merge a.la = none → Leaves s a.origin →
      Completes (.pinnedUnitWithdrawn u) s fun t => t = { begun s with dev := { (begun s).dev with rsv := { s.dev.rsv with
        withdraw := Tab.erase s.dev.rsv.withdraw u.toNat
        reads := Tab.put s.dev.rsv.reads s.dev.rsv.nextRead { acc := { a with mv := .i }, scope := .place ps w, issued := false, arrived := none, stale := false, behind := [] }
        nextRead := s.dev.rsv.nextRead + 1 } } }))

/-- R149-R153, R161, R163: the read of a way that a line is placed in answers with it, a tag-hint entry that is in error leaves the hint cache and its
whole set is read, and the parallel read of a set answers a read that hits with the line, lets a read that misses have the data that has come from the
target, poisons it in a suspect set, and installs a write that allocates; a way whose burst one symbol of the line code corrects is counted and logged
as EV068, an uncorrectable dirty line is poisoned with the fault of EV071, a clean one leaves with EV070, and one whose metadata cannot be trusted
makes its set suspect with the fault of EV072. The model's choices and readings that this rests on: log entries 7, 14, 16, 125, 144, 145. -/
def Obligations.CacheSetReads : Prop :=
  ∀ (s : State) (id : Nat) (r : SetRead), Tab.get? s.dev.rsv.reads id = some r → r.behind = [] → Settled s → Tab.get? s.dev.rsv.merge r.acc.la = none →
    (∀ ps w y, r.scope = .place ps w → r.acc.op = .memRd → Leaves s r.acc.origin → s.way? ps w = some y →
      Completes (.cacheSetReadReturn id [] false) s fun t => t = { begun s with
        out := answered s r.acc.origin r.acc.mv (some y.data) (s.linePoisoned r.acc.la)
        dev := { (begun s).dev with rsv := { s.dev.rsv with reads := Tab.erase s.dev.rsv.reads id } } }) ∧
    (∀ l, r.scope = .ways l → r.acc.op = .memWrPtl → s.hinted (s.cacheSet r.acc.la) = true → Completes (.cacheSetReadReturn id [] true) s fun t =>
      t.hinted (s.cacheSet r.acc.la) = false ∧ t.out = [] ∧ t.mem = s.mem ∧ t.regs = s.regs ∧
      t.dev.rsv.reads = Tab.put (Tab.erase s.dev.rsv.reads id) s.dev.rsv.nextRead { r with scope := .all, issued := false, arrived := none, stale := false }) ∧
    (r.scope = .all →
    (r.acc.op = .memRd → Leaves s r.acc.origin →
      (∀ w y, s.findWay (s.cacheSet r.acc.la) r.acc.la = some w → s.way? (s.cacheSet r.acc.la) w = some y →
        Completes (.cacheSetReadReturn id [] false) s fun t =>
          t.out = answered s r.acc.origin r.acc.mv (some y.data) (s.linePoisoned r.acc.la) ∧ Tab.get? t.dev.rsv.reads id = none ∧
          t.way? (s.cacheSet r.acc.la) w = some { y with pin := y.pin || (r.acc.cmode == 3 &&
            decide (s.pinCount (s.cacheSet r.acc.la) < s.fld .root F.DEV_RSV_CCTL_PIN_MAX)) } ∧
          t.hinted (s.cacheSet r.acc.la) = true ∧ t.mem = s.mem ∧ KeepRegs s t (notedPlaces (.stack (setStack (s.cacheSet r.acc.la))))) ∧
      (s.findWay (s.cacheSet r.acc.la) r.acc.la = none → r.issued = true →
        (∀ d, s.setSuspect (s.cacheSet r.acc.la) = false → r.arrived = some (.data d false) → r.acc.cmode = 0 →
          Completes (.cacheSetReadReturn id [] false) s fun t =>
            t.out = answered s r.acc.origin r.acc.mv (some d) (s.linePoisoned r.acc.la) ∧ t.regs = s.regs ∧ t.dev.rsv.ways = s.dev.rsv.ways ∧
            Tab.get? t.dev.rsv.reads id = none) ∧
        (s.setSuspect (s.cacheSet r.acc.la) = true → Completes (.cacheSetReadReturn id [] false) s fun t =>
            t.out = answered s r.acc.origin r.acc.mv none true ∧ t.regs = s.regs ∧ t.dev.rsv.ways = s.dev.rsv.ways ∧ Tab.get? t.dev.rsv.reads id = none))) ∧
    (∀ w, r.acc.op = .memWr → Leaves s r.acc.origin → r.issued = false → s.findWay (s.cacheSet r.acc.la) r.acc.la = none → 2 ≤ r.acc.cmode.val → s.mayInstall r.acc.la = true →
      (List.range 16).find? (fun v => (s.way? (s.cacheSet r.acc.la) v).isNone) = some w →
      Completes (.cacheSetReadReturn id [] false) s fun t => t.out = answered s r.acc.origin r.acc.mv none false ∧
        (∃ y, t.way? (s.cacheSet r.acc.la) w = some y ∧ y.la = r.acc.la ∧ y.data = r.acc.data ∧ y.dirty = true ∧ y.lost = false) ∧ t.mem = s.mem) ∧
    (∀ (w : Fin 16) (b : Burst) (j : Fin 40), r.acc.op.isRead = true → r.issued = true → r.arrived = none → burstVerdict b = .corrected j →
      Completes (.cacheSetReadReturn id [(w, b)] false) s fun t =>
        t.fld (wayPc (s.cacheSet r.acc.la) w.val) F.RSV_ECC_CNT_CE =
          (s.fld (wayPc (s.cacheSet r.acc.la) w.val) F.RSV_ECC_CNT_CE + 1) % 2 ^ F.RSV_ECC_CNT_CE.w ∧
        (Space s → Unlimited s 68 (wayPc (s.cacheSet r.acc.la) w.val) →
          Logs t 68 (s.domainOf (wayPc (s.cacheSet r.acc.la) w.val)) 0 (rowOf (s.setOffset (s.cacheSet r.acc.la))) s.time) ∧ t.mem = s.mem) ∧
    (∀ (w : Fin 16) (y : Way) (b : Burst), r.acc.op.isRead = true → r.issued = true → r.arrived = none → s.way? (s.cacheSet r.acc.la) w.val = some y → y.lost = false →
      s.unitNamed (s.cacheSet r.acc.la / 2048) = false → burstVerdict b = .uncorrectable →
      (y.dirty = true → metaTrusted (y.meta ^^^ burstMeta b) = true → PoisonFits s y.la → Completes (.cacheSetReadReturn id [(w, b)] false) s fun t =>
        t.linePoisoned y.la = true ∧ Opens t (.stack (setStack (s.cacheSet r.acc.la))) 0 (wayPc (s.cacheSet r.acc.la) w.val) ∧
        t.fld (wayPc (s.cacheSet r.acc.la) w.val) F.RSV_ECC_CNT_UE =
          (s.fld (wayPc (s.cacheSet r.acc.la) w.val) F.RSV_ECC_CNT_UE + 1) % 2 ^ F.RSV_ECC_CNT_UE.w) ∧
      (y.dirty = false → y.pu = false → metaTrusted (y.meta ^^^ burstMeta b) = true → Completes (.cacheSetReadReturn id [(w, b)] false) s fun t =>
        t.way? (s.cacheSet r.acc.la) w.val = none ∧
        (Space s → Logs t 70 (.stack (setStack (s.cacheSet r.acc.la))) 0 y.la s.time) ∧ t.mem = s.mem) ∧
      (metaTrusted (y.meta ^^^ burstMeta b) = false → s.dev.rsv.suspect.length < 256 → Completes (.cacheSetReadReturn id [(w, b)] false) s fun t =>
        (∃ v, t.way? (s.cacheSet r.acc.la) w.val = some v ∧ v.lost = true) ∧ s.cacheSet r.acc.la ∈ t.dev.rsv.suspect ∧
        Opens t (.stack (setStack (s.cacheSet r.acc.la))) 0 (wayPc (s.cacheSet r.acc.la) w.val))))

/-- R160: a partial write of a resident line takes a merge buffer and is completed, merges its bytes into one that has not been written, waits behind one
that is being written, and waits for one where its stack's 64 are taken; the old line lies under the new bytes, with its poison; the write of the
merged line leaves it in its way, dirty, and frees the buffer. R161-R165: Meander reads the lines of a pseudo-channel in order while it is enabled,
and counts its laps; a clean read changes nothing, a corrected one is counted and written back unless a write has overtaken it, an uncorrectable line
of the sample ring is cleared and counted; a lap that runs too long logs EV074 once. The model's choices and readings that this rests on: log entries
3, 7, 13, 16, 125, 128, 130, 144, 145. -/
def Obligations.MergingAndScrubbing : Prop :=
  ((∀ (s : State) (o : Origin) (gpa : BitVec 50) (d : Line) (mask : Mask) (cm : Fin 4) (w : Nat) (y : Way) (a : Acc), a = partialOf s o gpa d mask cm → Leaves s o →
    (s.entry (gpa.toNat / 2 ^ 21)).type = .mapped → (s.entry (gpa.toNat / 2 ^ 21)).home = s.swid → HeldAt s a.la w y →
    (∀ m, Tab.get? s.dev.rsv.merge a.la = some m → m.writing = true → Completes (.partialWriteMerge o gpa d mask cm) s fun t =>
      t = { begun s with dev := { (begun s).dev with rsv := { s.dev.rsv with merge := Tab.put s.dev.rsv.merge a.la { m with late := m.late ++ [a] } } } }) ∧
    (∀ m, Tab.get? s.dev.rsv.merge a.la = some m → m.writing = false → m.reads = [] → Completes (.partialWriteMerge o gpa d mask cm) s fun t =>
      t.out = answered s o .i none false ∧ (∃ v, Tab.get? t.dev.rsv.merge a.la = some v ∧ v.data = mergeBytes m.data d mask ∧ v.mask = m.mask ||| mask ∧
        (v.writing = true ↔ m.mask ||| mask = BitVec.allOnes 64)) ∧ t.regs = s.regs ∧ t.mem = s.mem ∧ t.dev.rsv.ways = s.dev.rsv.ways) ∧
    (Tab.get? s.dev.rsv.merge a.la = none → s.mergeCount (s.lineStack a) < 64 → Completes (.partialWriteMerge o gpa d mask cm) s fun t =>
      t.out = answered s o .i none false ∧
      (∃ v, Tab.get? t.dev.rsv.merge a.la = some v ∧ v.data = mergeBytes 0 d mask ∧ v.mask = mask ∧ v.ready = false ∧ v.writing = false ∧
        v.stack = s.lineStack a ∧ v.pin = (cm == 3)) ∧
      t.fld (.stack (s.lineStack a)) F.RSV_MB_STAT_PEAK = max (s.fld (.stack (s.lineStack a)) F.RSV_MB_STAT_PEAK)
        ((s.mergeCount (s.lineStack a) + 1) % 2 ^ F.RSV_MB_STAT_PEAK.w) ∧
      KeepRegs s t (places (.stack (s.lineStack a)) [F.RSV_MB_STAT_PEAK]) ∧ t.mem = s.mem ∧ t.dev.rsv.ways = s.dev.rsv.ways) ∧
    (Tab.get? s.dev.rsv.merge a.la = none → 64 ≤ s.mergeCount (s.lineStack a) → Completes (.partialWriteMerge o gpa d mask cm) s fun t =>
      t = { begun s with dev := { (begun s).dev with rsv := { s.dev.rsv with mergeWait := s.dev.rsv.mergeWait ++ [a] } } })) ∧
  (∀ (s : State) (la : BitVec 44) (d : Line) (bad : Bool) (m : MergeEntry) (w : Nat) (y : Way), Tab.get? s.dev.rsv.merge la.toNat = some m → m.ready = false →
    m.writing = false → m.fromTarget = false → HeldAt s la.toNat w y →
    (s.linePoisoned la.toNat = false → (∀ q ∈ m.reads, q.op = .memRd ∧ Leaves s q.origin) → Completes (.mergeOldLineArrival la d ⟨bad, 0⟩) s fun t =>
      Tab.get? t.dev.rsv.merge la.toNat = some { m with data := mergeBytes y.data m.data m.mask, ready := true, writing := true, reads := [] } ∧
      t.out = (m.reads.flatMap fun q => answered s q.origin q.mv (some (mergeBytes y.data m.data m.mask)) false) ∧
      t.regs = s.regs ∧ t.mem = s.mem ∧ t.dev.rsv = { s.dev.rsv with merge := t.dev.rsv.merge }) ∧
    (∀ b, burstVerdict b = .uncorrectable → metaTrusted (y.meta ^^^ burstMeta b) = true → y.dirty = true → y.la = la.toNat → PoisonFits s la.toNat →
      Completes (.mergeOldLineArrival la d ⟨bad, b⟩) s fun t => t.linePoisoned la.toNat = true ∧
      Tab.get? t.dev.rsv.merge la.toNat = some { m with data := mergeBytes y.data m.data m.mask, ready := true, writing := true, reads := [] } ∧ t.mem = s.mem)) ∧
  (∀ (s : State) (la : BitVec 44) (m : MergeEntry), Tab.get? s.dev.rsv.merge la.toNat = some m →
    (m.writing = false → Settled s → Completes (.mergeWriteComplete la) s fun t => t = begun s) ∧
    (∀ w y, m.writing = true → m.late = [] → (∀ a ∈ s.dev.rsv.mergeWait, s.lineStack a ≠ m.stack) → HeldAt s la.toNat w y → Settled s →
      Completes (.mergeWriteComplete la) s fun t =>
        Tab.get? t.dev.rsv.merge la.toNat = none ∧
        t.way? (s.cacheSet la.toNat) w = some { y with
          data := m.data
          dirty := true
          pin := y.pin || (m.pin && decide (s.pinCount (s.cacheSet la.toNat) < s.fld .root F.DEV_RSV_CCTL_PIN_MAX)) } ∧
        (∀ k, k ≠ wayKey (s.cacheSet la.toNat) w → Tab.get? t.dev.rsv.ways k = Tab.get? s.dev.rsv.ways k) ∧
        t = { begun s with dev := { (begun s).dev with rsv := { s.dev.rsv with
          merge := Tab.erase s.dev.rsv.merge la.toNat, ways := t.dev.rsv.ways, scrub := t.dev.rsv.scrub } } }))) ∧
  ((∀ (s : State) (st : Fin 4) (c : Fin 32),
    (s.flag (.stack st) F.RSV_SCRUB_CTL_EN = true → s.dev.rsv.selfRefresh = false → Completes (.scrubRead st c) s fun t =>
      Tab.get? t.dev.rsv.scrub (pcKey st c) = some (Tab.getD s.dev.rsv.scrub (pcKey st c) [] ++ [{
        line := s.fld (.pc st c) F.RSV_SCRUB_POS_LINE, overtaken := false, image := s.scrubImage st c (s.fld (.pc st c) F.RSV_SCRUB_POS_LINE) }]) ∧
      t.fld (.pc st c) F.RSV_SCRUB_POS_LINE = (s.fld (.pc st c) F.RSV_SCRUB_POS_LINE + 1) % 2 ^ 24 ∧
      (s.fld (.pc st c) F.RSV_SCRUB_POS_LINE = 0 →
        t.fld (.pc st c) F.RSV_SCRUB_LAP_LAPS = (s.fld (.pc st c) F.RSV_SCRUB_LAP_LAPS + 1) % 2 ^ F.RSV_SCRUB_LAP_LAPS.w ∧
        Tab.get? t.dev.rsv.lapStart (pcKey st c) = some s.time ∧ pcKey st c ∉ t.dev.rsv.lapWarned ∧
        (∀ t0, Tab.get? s.dev.rsv.lapStart (pcKey st c) = some t0 →
          t.fld (.pc st c) F.RSV_SCRUB_LAP_LAST_MS = (s.time - t0) / 1000000 % 2 ^ F.RSV_SCRUB_LAP_LAST_MS.w)) ∧
      (s.fld (.pc st c) F.RSV_SCRUB_POS_LINE ≠ 0 → KeepRegs s t (places (.pc st c) [F.RSV_SCRUB_POS_LINE])) ∧
      KeepRegs s t (places (.pc st c) [F.RSV_SCRUB_POS_LINE, F.RSV_SCRUB_LAP_LAPS, F.RSV_SCRUB_LAP_LAST_MS]) ∧
      t = { begun s with regs := t.regs, dev := { (begun s).dev with rsv := { s.dev.rsv with
        scrub := t.dev.rsv.scrub, lapStart := t.dev.rsv.lapStart, lapWarned := t.dev.rsv.lapWarned } } }) ∧
    (s.flag (.stack st) F.RSV_SCRUB_CTL_EN = false ∨ s.dev.rsv.selfRefresh = true → Completes (.scrubRead st c) s fun t => t = begun s)) ∧
  (∀ (s : State) (st : Fin 4) (c : Fin 32) (bd : BitVec 512) (bw bc : BitVec 64) (b : Burst) (sym : Fin 40) (both : Bool) (came : ScrubIn) (r : ScrubRead) (rs : List ScrubRead),
    b = burstParts bd bw bc → Tab.getD s.dev.rsv.scrub (pcKey st c) [] = r :: rs →
    (burstVerdict b = .ok → Completes (.scrubReadReturn st c bd bw bc came) s fun t =>
      (∀ p o f, came.struck = [(p, o, f, b)] → Tab.get? t.dev.rsv.struck ((p.val * 32 + o.val) * 2 ^ 24 + f.val) = some b) ∧
      (∀ k ∈ came.hints, s.hinted k = true → k ∈ t.dev.rsv.hintHurt) ∧ t.mem = s.mem ∧ t.out = [] ∧ KeepRegs s t []) ∧
    (burstVerdict b = .ok → Completes (.scrubReadReturn st c bd bw bc ⟨both, [], []⟩) s fun t => Tab.getD t.dev.rsv.scrub (pcKey st c) [] = rs ∧
      t = { begun s with dev := { (begun s).dev with rsv := { s.dev.rsv with scrub := t.dev.rsv.scrub } } }) ∧
    (burstVerdict b = .corrected sym → Completes (.scrubReadReturn st c bd bw bc ⟨both, [], []⟩) s fun t => Tab.getD t.dev.rsv.scrub (pcKey st c) [] = rs ∧
      t.out = (if r.overtaken || s.scrubImage st c r.line != r.image || s.mergePending st c r.line then [] else [.scrubWrite st c r.line]) ∧
      t.fld (.pc st c) F.RSV_ECC_CNT_CE = (s.fld (.pc st c) F.RSV_ECC_CNT_CE + 1) % 2 ^ F.RSV_ECC_CNT_CE.w ∧
      (∀ n, (List.range 64).find? (fun n => s.fldn (.pc st c) F.RSV_CE_ROW_V n == 1 && s.fldn (.pc st c) F.RSV_CE_ROW_ROW n == rowOf (r.line * 64)) = some n →
        t.fldn (.pc st c) F.RSV_CE_ROW_COUNT n = min 65535 (s.fldn (.pc st c) F.RSV_CE_ROW_COUNT n + 1) ∧ t.fldn (.pc st c) F.RSV_CE_ROW_SYM n = sym.val) ∧
      (Space s → Unlimited s 68 (.pc st c) → Logs t 68 (.stack st) 0 (rowOf (r.line * 64)) s.time) ∧ t.mem = s.mem) ∧
    (burstVerdict b = .uncorrectable → r.line * 64 < 2 ^ 25 → 0xC0000000 ≤ regionByte st c (r.line * 64) → Completes (.scrubReadReturn st c bd bw bc ⟨both, [], []⟩) s fun t =>
      t.fld (.pc st c) F.RSV_ECC_CNT_UE = (s.fld (.pc st c) F.RSV_ECC_CNT_UE + 1) % 2 ^ F.RSV_ECC_CNT_UE.w ∧
      t.fld .root F.GAU_SMP_LOST_DAMAGED = (s.fld .root F.GAU_SMP_LOST_DAMAGED + 1) % 2 ^ F.GAU_SMP_LOST_DAMAGED.w ∧
      (∀ a, memRead t.mem a = if a / 64 = regionByte st c (r.line * 64) / 64 then 0 else memRead s.mem a) ∧
      (Space s → Unlimited s 198 .root → Logs t 198 .root 0 1 s.time))) ∧
  (∀ (s : State) (st : Fin 4) (c : Fin 32),
    (s.fld (.stack st) F.RSV_SCRUB_CTL_LAP_WARN ≠ 0 → s.dev.rsv.lapWarned.contains (pcKey st c) = false → Tab.has s.dev.rsv.lapStart (pcKey st c) = true →
      Completes (.scrubLapWarn st c) s fun t => t.dev.rsv.lapWarned = s.dev.rsv.lapWarned ++ [pcKey st c] ∧
        (Room s → Logs t 74 (.stack st) 0 0 s.time) ∧
        Notes (.pc st c) { begun s with dev := { (begun s).dev with rsv := { s.dev.rsv with lapWarned := t.dev.rsv.lapWarned } } } t) ∧
    (s.fld (.stack st) F.RSV_SCRUB_CTL_LAP_WARN = 0 → Completes (.scrubLapWarn st c) s fun t => t = begun s)))

/-! ### Coherence and atomics (spec 06) -/

/-- R180-R185, R187, R193: e4 serves the transaction at the head of a line: it sends the snoops the directory entry calls for, frees an entry of a full
set, waits where it cannot, or, with none to send, makes the entry, releases the line and lets the access go on with its grant. A set that the entry
cache finds in error beyond correction leaves it and is read again. A directory set that is read enters the entry cache and what waited for it goes
on, an uncorrectable one becomes suspect with the fault of EV081. The answer that ends a recall frees its entry; one that nobody awaits logs EV086.
The model's choices and readings that this rests on: log entries 13, 16, 28, 29, 126. -/
def Obligations.DirectoryTransactions : Prop :=
  (∀ (s : State) (la : BitVec 44) (b : Busy) (a : Acc) (ecc : Ecc), AtHead s la.toNat b → b.cur = .access a → a.la = la.toNat → ecc ≠ .uncorrectable →
    (∀ k e h inv, s.dirFind la.toNat = some (k, e) → Tab.get? s.dev.coh.dir k = some e → e.shv ≠ 0 → cohSnoops a e = [(h, inv)] → Reaches s (s.hostSw h) → s.hostSnoops h < s.fld .root F.DEV_COH_CFG_BI_MAX →
      s.resTaken .birs < s.clsRes .birs →
      Completes (.coherenceRequest ⟨la, ecc⟩) s fun t =>
        t.out = (s.outVia (.bisnp h la.toNat inv)).toList ∧ Tab.get? t.dev.coh.busy la.toNat = some { b with served := true, snoops := [{ host := h, inv, sent := some s.time }] } ∧
        t.fld .root F.DEV_COH_SNP_COUNT = (s.fld .root F.DEV_COH_SNP_COUNT + 1) % 2 ^ F.DEV_COH_SNP_COUNT.w ∧
        KeepRegs s t (places .root [F.DEV_COH_SNP_COUNT]) ∧ (∀ j, Tab.get? t.dev.coh.dir j = Tab.get? s.dev.coh.dir j) ∧ t.mem = s.mem) ∧
    (∀ h k, s.dirFind la.toNat = none → a.wtype = .sharedHw → a.host = some h → a.op = .memRd → a.mv = .s → s.grantOk a = true →
      s.dirRoom la.toNat = .free k → b.queue = [] → s.dev.coh.noBusy = [] → Tab.get? s.dev.rsv.merge la.toNat = none → s.hinted (s.cacheSet la.toNat) = true → NoHurt s →
      (∀ ps v, s.place a.tgt a.gpa ≠ .pinned ps v) → s.tagWays (s.cacheSet la.toNat) la.toNat ≠ [] → s.unitNamed (s.cacheSet la.toNat / 2048) = false → Leaves s a.origin →
      Completes (.coherenceRequest ⟨la, ecc⟩) s fun t =>
        t.out = [] ∧ Tab.get? t.dev.coh.busy la.toNat = none ∧
        Tab.get? t.dev.rsv.reads s.dev.rsv.nextRead = some { acc := { a with mv := .s }, scope := .ways (s.tagWays (s.cacheSet la.toNat) la.toNat), issued := false,
                                                             arrived := none, stale := false, behind := [] } ∧
        Tab.get? t.dev.coh.dir k = some { shv := hostBit h, la := la.toNat, excl := false, owner := 0, age := 0 } ∧ t.mem = s.mem) ∧
    (∀ k d, s.dirFind la.toNat = none → (cohResult a (s.grantOk a) none).1.isSome = true → s.dirRoom la.toNat = .evict k → Tab.get? s.dev.coh.dir k = some d → d.la ≠ la.toNat →
      d.shv ≠ 0 → s.dirFind d.la = some (k, d) → Tab.has s.dev.coh.busy d.la = false → s.dev.coh.busy.length < 4096 →
      Completes (.coherenceRequest ⟨la, ecc⟩) s fun t =>
        (∃ v, Tab.get? t.dev.coh.busy d.la = some v ∧ v.cur = .recall ∧ v.served = true ∧ v.snoops.map (fun n => n.host) = vecHosts d.shv) ∧
        Tab.get? t.dev.coh.busy la.toNat = some { b with room := some k } ∧
        t.fld .root F.DEV_COH_EVICT_COUNT = (s.fld .root F.DEV_COH_EVICT_COUNT + 1) % 2 ^ F.DEV_COH_EVICT_COUNT.w ∧ t.dev.coh.dir = s.dev.coh.dir ∧ t.mem = s.mem) ∧
    (s.dirFind la.toNat = none → (cohResult a (s.grantOk a) none).1.isSome = true → s.dirRoom la.toNat = .wait →
      Completes (.coherenceRequest ⟨la, ecc⟩) s fun t => t = begun s)) ∧
  (∀ (s : State) (la : BitVec 44), Completes (.coherenceRequest ⟨la, .uncorrectable⟩) s fun t =>
    t = { begun s with dev := { (begun s).dev with coh := { s.dev.coh with cached := s.dev.coh.cached.filter fun k => k != s.dirSet la.toNat } } }) ∧
  (∀ (s : State) (set : BitVec 30), set.toNat ∉ s.dev.coh.cached → s.dev.coh.cached.length < dirCacheSets →
    (Tab.getD s.dev.coh.setWait set.toNat [] = [] → Completes (.directorySetReadReturn set 0) s fun t =>
      t = { begun s with dev := { (begun s).dev with coh := { s.dev.coh with
        cached := s.dev.coh.cached ++ [set.toNat], setWait := Tab.erase s.dev.coh.setWait set.toNat } } }) ∧
    (∀ a, Tab.getD s.dev.coh.setWait set.toNat [] = [.access a] → s.dirSet a.la = set.toNat → Tab.get? s.dev.coh.busy a.la = none → s.dev.coh.busy.length < 4096 →
      Completes (.directorySetReadReturn set 0) s fun t =>
        t = { begun s with dev := { (begun s).dev with coh := { s.dev.coh with
          cached := s.dev.coh.cached ++ [set.toNat], setWait := Tab.erase s.dev.coh.setWait set.toNat
          busy := Tab.put s.dev.coh.busy a.la (Busy.of (.access a) []) } } }) ∧
    (FirstOf s .root 0 → s.dev.coh.suspect.length < 256 → Tab.getD s.dev.coh.setWait set.toNat [] = [] → ∀ b, burstVerdict b = .uncorrectable → Completes (.directorySetReadReturn set b) s fun t =>
      Opens t .root 0 .root ∧ set.toNat ∈ t.dev.coh.suspect ∧ set.toNat ∈ t.dev.coh.cached ∧
      (∀ k, k / 4 = set.toNat → Tab.get? t.dev.coh.dir k = none) ∧ (∀ k, k / 4 ≠ set.toNat → Tab.get? t.dev.coh.dir k = Tab.get? s.dev.coh.dir k) ∧ t.mem = s.mem)) ∧
  (∀ (s : State) (h : Fin 64) (la : BitVec 44) (r : BiRsp),
    ((∀ b n, ¬Snooped s h la.toNat b n) → Completes (.birsp h la r) s fun t => Notes (s.hostUnit h) (begun s) t ∧
      (Room s → Logs t 86 (s.domainOf (s.hostUnit h)) 0 la.toNat s.time)) ∧
    (∀ b n k e, Snooped s h la.toNat b n → n.inv = false ∨ r ≠ .e → b.served = true → b.cur = .recall → b.snoops = [n] → b.queue = [] → s.dev.coh.noBusy = [] →
      s.dirFind la.toNat = some (k, e) →
      Completes (.birsp h la r) s fun t => Tab.get? t.dev.coh.dir k = none ∧ Tab.get? t.dev.coh.busy la.toNat = none ∧ t.mem = s.mem))

/-- R176, R177, R187-R193, R250: a host that does not answer, or that keeps what it may not, opens the fault of EV078 and is taken as lost, with a contain
notice to its switch; a contain notice opens the fault of EV079 at its port, or takes the host as lost, and is acknowledged. A retired host's walk
removes it from the directory, poisons what it owned, and ends with EV080. BIConflictAck answers BIConflict, and DIR_SET_CLEAR ends a set's suspicion.
The model's choices and readings that this rests on: log entries 3, 16, 23, 26, 88, 146. -/
def Obligations.LostHosts : Prop :=
  (∀ (s : State) (h : Fin 64) (la : BitVec 44) (b : Busy) (n : Snoop) (c : Instr), Snooped s h la.toNat b n → c = .snoopTimeout h la ∨ (c = .birsp h la .e ∧ n.inv = true) →
    Completes c s fun t => Opens t (s.domainOf (s.hostUnit h)) 3 (s.hostUnit h) ∧
      (s.hostSw h ≠ s.swid → FirstOf s .root 3 → Reaches s (s.hostSw h) → bitOf (t.fld .root F.DEV_COH_LOST_LOST) h.val = true ∧ Gone t (.containNotice h (s.hostSw h)) ∧
        { host := h, sw := s.hostSw h } ∈ t.dev.coh.notes)) ∧
  (∀ (s : State) (h : Fin 64) (la : BitVec 44), (∀ b n, ¬Snooped s h la.toNat b n) → Completes (.snoopTimeout h la) s fun t => t = begun s) ∧
  (∀ (s : State) (src sw : Fin 16) (pt : PortId),
    (sw = s.swid → s.portExists pt = true → s.mode pt.g = .h → Completes (.containNotice src sw pt) s fun t =>
      Opens t (s.domainOf (.port pt)) 3 (.port pt) ∧ (Reaches s src → Gone t (.noticeAck src))) ∧
    (∀ h, sw ≠ s.swid → s.hostOf sw pt = some h → Completes (.containNotice src sw pt) s fun t =>
      bitOf (t.fld .root F.DEV_COH_LOST_LOST) h.val = true ∧ (Reaches s src → Gone t (.noticeAck src))) ∧
    (sw ≠ s.swid → s.hostOf sw pt = none →
      (Reaches s src → Completes (.containNotice src sw pt) s fun t => t = { begun s with out := (s.outVia (.noticeAck src)).toList }) ∧
      (src ≠ s.swid → s.members src = [] → Completes (.containNotice src sw pt) s fun t => Notes .root (begun s) t ∧ t.out = [] ∧
        (Room s → Unlimited s 100 .root → Logs t 100 .root 0 src.val s.time)))) ∧
  (∀ (s : State) (h : Fin 64) (src : Fin 16), Completes (.containNoticeAck h src) s fun t =>
    t = { s with out := [], dev := { s.dev with coh := { s.dev.coh with notes := s.dev.coh.notes.filter fun n => !(n.host == h && n.sw == src) } } }) ∧
  (∀ (s : State) (pt : PortId) (c : Conflict), s.portExists pt = true → s.mode pt.g = .h → s.isContained pt = false →
    (s.ingressFree (s.stackX c.la.toNat) .mrsp = true → Completes (.biconflict pt c) s fun t => t = { s with out := [.biConflictAck pt c.tag] }) ∧
    (∀ n mv d p, .out (.answer (.host pt n) mv d p) ∈ Tab.getD s.dev.flood.waiting (qKey (s.stackX c.la.toNat) .mrsp) [] →
      Completes (.biconflict pt c) s fun t => Waits s t (s.stackX c.la.toNat) .mrsp (.out (.biConflictAck pt c.tag)) ∧ t.out = [] ∧ t.mem = s.mem)) ∧
  (∀ (s : State) (m : Master) (n : Fin 64) (v : BitVec 32), Writable s .root .DEV_COH_HOST n.val →
    (s.fldn .root F.DEV_COH_HOST_V n.val = 0 → bitOf (s.fld .root F.DEV_COH_LOST_LOST) n.val = false → Completes (.hostRetire m n v) s fun t =>
      (∀ f ∈ (regSpec .root .DEV_COH_HOST).fields, f.acc = .rw → t.fldn .root f n.val = f.bring (f.part v.toNat) % 2 ^ f.w) ∧
      KeepRegs s t ((regSpec .root .DEV_COH_HOST).fields.map fun f => fkey .root f n.val) ∧ t.dev.coh = s.dev.coh ∧ t.mem = s.mem) ∧
    (s.fldn .root F.DEV_COH_HOST_V n.val = 1 → bitOf v.toNat 31 = true → Completes (.hostRetire m n v) s fun t =>
      t.dev.coh = s.dev.coh ∧ t.fldn .root F.DEV_COH_HOST_V n.val = 1 ∧ t.fld .root F.DEV_COH_LOST_LOST = s.fld .root F.DEV_COH_LOST_LOST ∧
      (Room s → Logs t 40 .root 0 n.val s.time)) ∧
    (s.fldn .root F.DEV_COH_HOST_V n.val = 1 → bitOf v.toNat 31 = false → bitOf (s.fld .root F.DEV_COH_LOST_LOST) n.val = false → n ∉ s.dev.coh.retiring →
      Completes (.hostRetire m n v) s fun t =>
        bitOf (t.fld .root F.DEV_COH_LOST_LOST) n.val = true ∧ t.dev.coh = { s.dev.coh with retiring := s.dev.coh.retiring ++ [n] } ∧
        KeepRegs s t (places .root [F.DEV_COH_LOST_LOST]) ∧ t.mem = s.mem) ∧
    (s.fldn .root F.DEV_COH_HOST_V n.val = 1 → bitOf v.toNat 31 = false → bitOf (s.fld .root F.DEV_COH_LOST_LOST) n.val = true → n ∉ s.dev.coh.retiring →
      Completes (.hostRetire m n v) s fun t => t.dev.coh = { s.dev.coh with retiring := s.dev.coh.retiring ++ [n] } ∧
        t.fld .root F.DEV_COH_LOST_LOST = s.fld .root F.DEV_COH_LOST_LOST ∧ t.mem = s.mem)) ∧
  (∀ (s : State), (s.fld .root F.DEV_COH_LOST_LOST = 0 → Completes .hostWalkComplete s fun t => t = begun s) ∧
    (s.fld .root F.DEV_COH_LOST_LOST ≠ 0 → (∀ en ∈ s.dev.coh.dir, en.2.excl = true → s.lostMask.getLsbD en.2.owner.val = false) →
      Completes .hostWalkComplete s fun t => t.fld .root F.DEV_COH_LOST_LOST = 0 ∧ t.dev.coh.retiring = [] ∧
        (∀ h ∈ s.dev.coh.retiring, t.fldn .root F.DEV_COH_HOST_V h.val = 0) ∧ (Room s → Logs t 80 .root 0 0 s.time) ∧ t.mem = s.mem ∧
        (∀ k e, s.dev.coh.dir = [(k, e)] → t.dev.coh.dir = if e.shv &&& ~~~s.lostMask = 0 then [] else [(k, { e with shv := e.shv &&& ~~~s.lostMask })])) ∧
    (∀ k e, s.fld .root F.DEV_COH_LOST_LOST ≠ 0 → s.dev.coh.dir = [(k, e)] → e.excl = true → s.lostMask.getLsbD e.owner.val = true → PoisonFits s e.la →
      FirstOf s (s.domainOf (s.hostUnit e.owner)) 3 → Completes .hostWalkComplete s fun t => t.dev.coh.dir = [] ∧ t.linePoisoned e.la = true ∧
        Opens t (s.domainOf (s.hostUnit e.owner)) 3 (s.hostUnit e.owner) ∧ t.fld .root F.DEV_COH_LOST_LOST = 0)) ∧
  (∀ (s : State) (h : Hdr), RunsOnDevice s h 0x0207 →
    Completes (.dirSetClear h none) s (fun t => Done t h [] ∧ Replied h { begun s with dev := { (begun s).dev with coh := { s.dev.coh with
      suspect := [], suspectAll := false, touched := [] } } } t) ∧
    (∀ n, n < s.dirSets → Completes (.dirSetClear h (some n)) s fun t => Done t h [] ∧ Replied h { begun s with dev := { (begun s).dev with coh := { s.dev.coh with
      suspect := s.dev.coh.suspect.filter fun k => k != n, touched := s.dev.coh.touched.filter fun la => s.dirSet la != n } } } t) ∧
    (∀ n, s.dirSets ≤ n → Completes (.dirSetClear h (some n)) s fun t => Answered t h stInvalid 0 1 [] ∧ Replied h (begun s) t))

/-- R195-R198: an atomic operation whose unit is fenced, whose address is out of range, misaligned or unmapped returns its code and the old value 0 with
EV084; one at home takes its line, or waits where the unit is full; one at home elsewhere is forwarded. The answer of its module frees its tracker
entry and waits for the set read beside it. Its read returns the old value: with a write of the new one where it differs, with code 4 where the line
is poisoned. The model's choices and readings that this rests on: log entries 19, 125, 146. -/
def Obligations.AtomicOperations : Prop :=
  (∀ (s : State) (o : Origin) (op : AtomOp) (gpa : BitVec 64) (code : Nat),
    code = (if s.isFenced (.engine 2) then 5 else if 2 ^ 50 ≤ gpa.toNat then 1 else if gpa.toNat % 8 ≠ 0 then 2
      else if s.fld .root F.DEV_MAP_SIZE_NEXT ≤ gpa.toNat / 2 ^ 21 ∨ (s.entry (gpa.toNat / 2 ^ 21)).type = .unmapped ∨ s.mapBadNow (gpa.toNat / 2 ^ 21) = true then 3 else 0) →
    (code ≠ 0 → Unheld s → Reaches s (s.originSw o) → Completes (.atomicOp o op gpa) s fun t => Notes o.unit { begun s with out := (s.outVia (.atomicResult o code 0)).toList } t ∧
      (Room s → Unlimited s 84 o.unit → Logs t 84 (s.domainOf o.unit) 0 code s.time)) ∧
    (code = 0 → (s.entry (gpa.toNat / 2 ^ 21)).home = s.swid →
      (s.atomRoom gpa.toNat = false → Completes (.atomicOp o op gpa) s fun t => t = { begun s with dev := { (begun s).dev with coh := { s.dev.coh with
        atomWait := s.dev.coh.atomWait ++ [{ op, gpa := gpa.toNat, origin := o }] } } }) ∧
      (s.atomRoom gpa.toNat = true → Tab.get? s.dev.coh.busy (gpa.toNat / 64) = none → s.dev.coh.busy.length < 4096 →
        s.dirSets = 0 ∨ s.dirSet (gpa.toNat / 64) ∈ s.dev.coh.cached → Completes (.atomicOp o op gpa) s fun t =>
        t = { begun s with dev := { (begun s).dev with coh := { s.dev.coh with
          atoms := Tab.put s.dev.coh.atoms s.dev.coh.nextAtom (Atomic.mk op gpa.toNat o (s.fld .root F.DEV_EPOCH_CUR)
            (s.entry (gpa.toNat / 2 ^ 21)).tgtA .waiting)
          nextAtom := s.dev.coh.nextAtom + 1
          cached := if s.dirSet (gpa.toNat / 64) ∈ s.dev.coh.cached then (s.dev.coh.cached.filter fun k => k != s.dirSet (gpa.toNat / 64)) ++ [s.dirSet (gpa.toNat / 64)]
            else s.dev.coh.cached
          busy := Tab.put s.dev.coh.busy (gpa.toNat / 64) (Busy.of (.atomic s.dev.coh.nextAtom) []) } } })) ∧
    (∀ egr i, code = 0 → (s.entry (gpa.toNat / 2 ^ 21)).home ≠ s.swid → s.route .rmac s.swid (s.entry (gpa.toNat / 2 ^ 21)).home = some egr →
      (∀ pt, egr.port? = some pt → s.mode pt.g ≠ .m) → Tab.freeBelow s.dev.ort.entries 65536 = some i → s.ortRoom o.xport = true → s.ingressFree o.xport .rmac = true →
      Completes (.atomicOp o op gpa) s fun t => t.out = [.atomicFwd (s.entry (gpa.toNat / 2 ^ 21)).home egr (i, s.ortGen i) op gpa.toNat] ∧
        (∃ w, Tab.get? t.dev.ort.entries i = some w ∧ w.isOpen = true ∧ w.gen = s.ortGen i ∧ w.egr = egr ∧ w.ctx = .fwd o ∧ w.tIssue = s.time ∧ w.lost = false) ∧
        t.dev.coh = s.dev.coh ∧ t.mem = s.mem)) ∧
  (∀ (s : State) (id : Nat) (a : Atomic) (ld : Line) (lb : Bool) (i k : Nat) (e : OrtEntry) (q : Acc) (r : SetRead), Tab.get? s.dev.coh.atoms id = some a →
    (∀ d bad, a.step ≠ .got d bad) → s.atomEntry id = some (i, e) → Tab.get? s.dev.ort.entries i = some e → e.ctx = .acc q false →
    Tab.find s.dev.rsv.reads (fun _ v => sameAcc v.acc q && v.issued && v.arrived.isNone) = some (k, r) → Completes (.atomicReadReturn id ld lb) s fun t =>
      t = { begun s with dev := { (begun s).dev with
        ort := { s.dev.ort with entries := Tab.erase s.dev.ort.entries i, gens := Tab.setD s.dev.ort.gens 0 i ((e.gen + 1) % 16) }
        rsv := { s.dev.rsv with reads := Tab.upd s.dev.rsv.reads k fun v => { v with arrived := some (.data ld lb) } } } }) ∧
  (∀ (s : State) (id : Nat) (a : Atomic) (ld : Line) (lb : Bool), Tab.get? s.dev.coh.atoms id = some a → s.atomEntry id = none →
    ((∀ d bad, a.step ≠ .got d bad) → Completes (.atomicReadReturn id ld lb) s fun t => t = begun s) ∧
    (∀ d bad, a.step = .got d bad → Alone s (a.gpa / 64) → Reaches s (s.originSw a.origin) → (bad || s.linePoisoned (a.gpa / 64)) = true → Completes (.atomicReadReturn id ld lb) s fun t =>
      t.out = (s.outVia (.atomicResult a.origin 4 0)).toList ∧ Tab.get? t.dev.coh.atoms id = none ∧ Tab.get? t.dev.coh.busy (a.gpa / 64) = none ∧
      t.dev.rsv = s.dev.rsv ∧ t.mem = s.mem ∧ KeepRegs s t (notedPlaces a.origin.unit)) ∧
    (∀ d, a.step = .got d false → Alone s (a.gpa / 64) → Reaches s (s.originSw a.origin) → s.linePoisoned (a.gpa / 64) = false →
      (atomNew a.op (lineWord d a.gpa) = lineWord d a.gpa → Completes (.atomicReadReturn id ld lb) s fun t =>
        t.out = (s.outVia (.atomicResult a.origin 0 (lineWord d a.gpa))).toList ∧ Tab.get? t.dev.coh.atoms id = none ∧ Tab.get? t.dev.coh.busy (a.gpa / 64) = none ∧
        t.dev.rsv = s.dev.rsv ∧ t.regs = s.regs ∧ t.mem = s.mem) ∧
      (∀ m, atomNew a.op (lineWord d a.gpa) ≠ lineWord d a.gpa → Tab.get? s.dev.rsv.merge (a.gpa / 64) = some m → m.writing = false → m.reads = [] → Settled s →
        Completes (.atomicReadReturn id ld lb) s fun t =>
          t.out = (s.outVia (.atomicResult a.origin 0 (lineWord d a.gpa))).toList ∧ Tab.get? t.dev.coh.atoms id = none ∧ Tab.get? t.dev.coh.busy (a.gpa / 64) = none ∧
          (∃ v, Tab.get? t.dev.rsv.merge (a.gpa / 64) = some v ∧ v.mask = m.mask ||| BitVec.ofNat 64 (255 * 2 ^ (a.gpa % 64)) ∧
            v.data = mergeBytes m.data ((atomNew a.op (lineWord d a.gpa)).setWidth 512 <<< (a.gpa % 64 * 8)) (BitVec.ofNat 64 (255 * 2 ^ (a.gpa % 64)))) ∧
          t.regs = s.regs ∧ t.mem = s.mem)))

/-! ### Millrace (spec 07) -/

/-- R201, R204-R206, R214-R216, R237, R242, R298: FLOW_CREATE opens a flow end with its numbers, FLOW_DESTROY frees one that has nothing queued, to
complete or still to be written, and is busy else; the instance commands set up an event queue or the rings of a slot, register a region under a free
key, close one, and report one; a revoked region keeps its command running until its last packet has ended, which frees its index with a new
generation and writes REVOKE_DONE. The model's choices and readings that this rests on: log entries 13, 33, 35, 40, 133. -/
def Obligations.FlowsAndRegions : Prop :=
  (∀ (s : State) (h : Hdr) (f : Fin 16384) (i : Fin 1024) (slot : BitVec 16) (sw : Fin 16) (peer : Fin 16384) (gen : BitVec 8), RunsOnDevice s h 0x0300 →
    (s.instState i = 1 → s.flow? f.val = none → slot.toNat < 1024 → s.slotFlow i slot.toNat = none → s.instFlows i < 1024 → gen.toNat ≠ 0 →
      Tab.get? s.dev.mill.lastGen f.val ≠ some gen.toNat → Completes (.flowCreate h f i slot sw peer gen) s fun t =>
        t.flow? f.val = some { Flow.new i slot.toNat sw peer.val gen.toNat (s.rtoMin f.val) with
          departed := !(s.flowCauses (Flow.new i slot.toNat sw peer.val gen.toNat (s.rtoMin f.val))).isEmpty } ∧
        (∀ k, k ≠ f.val → t.flow? k = s.flow? k) ∧ Tab.get? t.dev.mill.lastGen f.val = some gen.toNat ∧ Done t h [] ∧ t.mem = s.mem) ∧
    (s.instState i = 0 → Completes (.flowCreate h f i slot sw peer gen) s fun t => Answered t h stUnavailable 0 1 [] ∧ Replied h (begun s) t) ∧
    (s.instState i = 1 → s.flow? f.val ≠ none → Completes (.flowCreate h f i slot sw peer gen) s fun t => Answered t h stInvalid 0 1 [] ∧ Replied h (begun s) t)) ∧
  (∀ (s : State) (h : Hdr) (f : Fin 16384) (w : Flow), RunsOnDevice s h 0x0301 → s.flow? f.val = some w →
    (w.descs = [] → w.fetching = false → (∀ r, w.rings = some r → r.sqHead = r.sqTail) → s.cqesHeld f.val w = false → Completes (.flowDestroy h f) s fun t => Done t h [] ∧
      Replied h { begun s with dev := { (begun s).dev with mill := { s.dev.mill with flows := Tab.erase s.dev.mill.flows f.val } } } t) ∧
    (w.descs ≠ [] ∨ w.fetching = true ∨ (∃ r, w.rings = some r ∧ r.sqHead ≠ r.sqTail) ∨ s.cqesHeld f.val w = true → Completes (.flowDestroy h f) s fun t => Answered t h stBusy 0 1 [] ∧ Replied h (begun s) t)) ∧
  (∀ (s : State) (m : Master) (i : Fin 1024), InstTakes s i .MRC_ICMD_CTL 0 →
    (6 ≤ s.icmdNum i 8 1 → s.icmdNum i 8 1 ≤ 16 → s.icmdNum i 0 8 % 4096 = 0 → s.icmdNum i 10 2 < 2048 → Completes (.eqSetup m i) s fun t =>
      (Tab.get? s.dev.mill.eqs i.val = none → Tab.get? t.dev.mill.eqs i.val = some (EvQ.mk (s.icmdNum i 0 8) (s.icmdNum i 8 1) (s.icmdNum i 10 2) 0 0 true 0) ∧
        t.fld (.inst i) F.MRC_ICMD_CTL_STATUS = 0 ∧ t.fld (.inst i) F.MRC_ICMD_RES_RES = 0 ∧ KeepRegs s t (icmdPlaces i) ∧
        t = { writing m s with regs := t.regs, dev := { (writing m s).dev with
          mill := { s.dev.mill with eqs := t.dev.mill.eqs }, io := { (writing m s).dev.io with crossing := t.dev.io.crossing } } })) ∧
    (Tab.get? s.dev.mill.eqs i.val = none →
      (s.icmdNum i 8 1 < 6 ∨ 16 < s.icmdNum i 8 1 ∨ s.icmdNum i 0 8 % 4096 ≠ 0 → Completes (.eqSetup m i) s fun t => IcmdEnded t i 1 0 ∧ t.dev.mill = s.dev.mill) ∧
      (∀ f w, s.slotFlow i (s.icmdNum i 0 2) = some f → s.flow? f = some w → w.descs = [] → w.fetching = false → 6 ≤ s.icmdNum i 16 1 → s.icmdNum i 16 1 ≤ 16 →
        6 ≤ s.icmdNum i 32 1 → s.icmdNum i 32 1 ≤ 16 → s.icmdNum i 8 8 % 4096 = 0 → s.icmdNum i 24 8 % 4096 = 0 → s.icmdNum i 34 2 < 2048 →
        Completes (.flowSetup m i) s fun t => IcmdEnded t i 0 0 ∧
          t.flow? f = some { w with rings := some (MRings.mk (s.icmdNum i 8 8) (s.icmdNum i 16 1) 0 0 (s.icmdNum i 24 8) (s.icmdNum i 32 1) 0 0 (s.icmdNum i 34 2) true) } ∧
          (∀ k, k ≠ f → t.flow? k = s.flow? k) ∧ KeepRegs s t (icmdPlaces i) ∧ t.mem = s.mem) ∧
      (s.slotFlow i (s.icmdNum i 0 2) = none → Completes (.flowSetup m i) s fun t => IcmdEnded t i 5 0 ∧ t.dev.mill = s.dev.mill) ∧
      (∀ ix, s.icmdNum i 0 8 % 4096 = 0 → s.icmdNum i 8 8 % 4096 = 0 → 4096 ≤ s.icmdNum i 8 8 → s.icmdNum i 8 8 ≤ 2 ^ 40 → s.icmdNum i 0 8 + s.icmdNum i 8 8 ≤ 2 ^ 64 →
        bitOf (s.icmdNum i 16 1) 0 = false → bitOf (s.icmdNum i 16 1) 4 = false → (s.instRegions i).length < 65536 → s.freeRegion = some ix →
        Completes (.regionRegister m i) s fun t => IcmdEnded t i 0 (s.regionKey ix) ∧
          (∃ r, Tab.get? t.dev.mill.regions ix = some r ∧ r.v = true ∧ r.closing = false ∧ r.pool = false ∧ r.permW = bitOf (s.icmdNum i 16 1) 1 ∧
            r.permR = bitOf (s.icmdNum i 16 1) 2 ∧ r.permA = false ∧ r.inst = i ∧ r.base = s.icmdNum i 0 8 ∧ r.len = s.icmdNum i 8 8) ∧
          (∀ k, k ≠ ix → Tab.get? t.dev.mill.regions k = Tab.get? s.dev.mill.regions k) ∧ KeepRegs s t (icmdPlaces i) ∧ t.mem = s.mem) ∧
      (s.icmdNum i 0 8 % 4096 ≠ 0 ∨ s.icmdNum i 8 8 < 4096 → Completes (.regionRegister m i) s fun t => IcmdEnded t i 1 0 ∧ t.dev.mill = s.dev.mill) ∧
      (∀ ix r, s.keyRegion (s.icmdNum i 0 4) = some (ix, r) → r.inst = i → Completes (.regionQuery m i) s fun t => IcmdEnded t i 0 r.base ∧
        t.fldn (.inst i) F.MRC_ICMD_DATA_DATA 0 = r.len % 2 ^ 32 ∧ t.fldn (.inst i) F.MRC_ICMD_DATA_DATA 1 = r.len / 2 ^ 32 % 2 ^ 32 ∧ t.dev.mill = s.dev.mill ∧
        KeepRegs s t (icmdPlaces i ++ (List.range 4).map (fkey (.inst i) F.MRC_ICMD_DATA_DATA))) ∧
      (s.keyRegion (s.icmdNum i 0 4) = none →
        Completes (.regionQuery m i) s (fun t => IcmdEnded t i 5 0 ∧ t.dev.mill = s.dev.mill) ∧
        Completes (.instanceRegionRevoke m i) s (fun t => IcmdEnded t i 5 0 ∧ t.dev.mill = s.dev.mill))) ∧
    (∀ ix r, s.keyRegion (s.icmdNum i 0 4) = some (ix, r) → r.inst = i → r.closing = false → Completes (.instanceRegionRevoke m i) s fun t =>
      t.fld (.inst i) F.MRC_ICMD_CTL_BUSY = 1 ∧ Tab.get? t.dev.mill.regions ix = some { r with closing := true, hdr := none, closedAt := s.time } ∧
      (∀ k, k ≠ ix → Tab.get? t.dev.mill.regions k = Tab.get? s.dev.mill.regions k) ∧ KeepRegs s t (places (.inst i) [F.MRC_ICMD_CTL_BUSY]) ∧ t.mem = s.mem)) ∧
  (∀ (s : State) (h : Hdr) (key : BitVec 32), RunsOnDevice s h 0x0302 →
    (∀ ix r, s.keyRegion key.toNat = some (ix, r) → r.closing = false → Completes (.regionRevoke h key) s fun t =>
      Tab.get? t.dev.mill.regions ix = some { r with closing := true, hdr := some h, closedAt := s.time } ∧
      t = { begun s with
        bg := s.bg ++ [{ hdr := h, opcode := 0x0302, unit := none, args := [ix] }]
        dev := { (begun s).dev with mill := { s.dev.mill with regions := t.dev.mill.regions } } }) ∧
    (s.keyRegion key.toNat = none → Completes (.regionRevoke h key) s fun t => Answered t h stNotFound 0 1 [] ∧ Replied h (begun s) t)) ∧
  (∀ (s : State) (ix : BitVec 24) (r : Region), Tab.get? s.dev.mill.regions ix.toNat = some r → r.v = true → r.closing = true → s.regionHeld ix.toNat = false → r.dmg = false →
    Completes (.revokeDone ix) s fun t => Tab.get? t.dev.mill.regions ix.toNat = none ∧ t.regionGen ix.toNat = (s.regionGen ix.toNat + 1) % 256 ∧
      t.dev.mill.freed = s.dev.mill.freed ++ [ix.toNat] ∧ (∀ h, r.hdr = some h → Done t h [] ∧ t.bg = s.bg.filter fun b => !(b.opcode == 0x0302 && b.args == [ix.toNat])) ∧
      (r.hdr = none → Tab.get? s.dev.mill.eqs r.inst.val = none → s.flag (.inst r.inst) F.MRC_ICMD_CTL_BUSY = true → IcmdEnded t r.inst 0 0) ∧
      (∀ h q pt fn, r.hdr = some h → EqOpen s r.inst q pt fn → eqEntry s q pt fn 0x0006 0 (s.regionKey ix.toNat) 0 ∈ t.out) ∧
      (r.closedAt + 10000 < s.time → Space s → Logs t 93 (.inst r.inst) 0 (s.regionKey ix.toNat) s.time) ∧ t.mem = s.mem) ∧
  (∀ (s : State) (ix : BitVec 24), s.regionHeld ix.toNat = true → Completes (.revokeDone ix) s fun t => t = begun s)

/-- R207-R211, R218, R219, R227, R240, R242: doorbells move the pointers of a slot's rings and of the event queue, and a descriptor that is queued is
fetched; one that has been fetched starts: a WRITE reads its source, a READ sends its RREQ; a malformed one completes with its code and EV090, a
failed fetch puts the flow end in ERROR, which ignores later doorbells. A source that has been read goes out in WDATA, one that failed completes with
LOCAL_ERR. The model's choices and readings that this rests on: log entries 16, 32, 36, 133. -/
def Obligations.DoorbellsAndDescriptors : Prop :=
  (∀ (s : State) (m : Master) (i slot : Fin 1024) (v : BitVec 32) (f : Nat) (w : Flow) (r : MRings), s.instState i = 1 ∨ s.instState i = 2 → s.slotFlow i slot.val = some f →
    s.flow? f = some w → w.rings = some r → w.inst = i →
    (Writable s (.inst i) .MRC_SQ_DB slot.val → w.err = false → r.takesTail (F.MRC_SQ_DB_TAIL.part v.toNat) = true →
      (w.fetching = true ∨ s.instState i = 2 ∨ r.sqHead = F.MRC_SQ_DB_TAIL.part v.toNat → Completes (.sqDoorbell m i slot v) s fun t =>
        t.flow? f = some { w with rings := some { r with sqTail := F.MRC_SQ_DB_TAIL.part v.toNat } } ∧ t.regs = s.regs ∧
        t.dev.mill = { s.dev.mill with flows := t.dev.mill.flows } ∧ t.mem = s.mem ∧ t.out = []) ∧
      (∀ pt fn k, w.fetching = false → s.instState i = 1 → r.sqHead ≠ F.MRC_SQ_DB_TAIL.part v.toNat → r.cqFree w.descs.length ≠ 0 → MayRead s f i pt fn k →
        Completes (.sqDoorbell m i slot v) s fun t =>
          t.out = [.busRead pt fn (k, s.ortGen k) (r.sqBase + r.sqHead * 64) 64] ∧
          t.flow? f = some { w with fetching := true, rings := some { r with sqTail := F.MRC_SQ_DB_TAIL.part v.toNat, sqHead := (r.sqHead + 1) % 2 ^ r.sqLog } } ∧
          (∃ it, Tab.get? t.dev.mill.items s.dev.mill.nextItem = some it ∧ it.flow = f ∧ it.work = .fetch r.sqHead ∧ it.issued = true) ∧ t.mem = s.mem)) ∧
    (Writable s (.inst i) .MRC_SQ_DB slot.val → w.err = false → r.takesTail (F.MRC_SQ_DB_TAIL.part v.toNat) = false → Completes (.sqDoorbell m i slot v) s fun t =>
      t.dev.mill = s.dev.mill ∧ (Room s → Unlimited s 90 (flowUnit f) → Logs t 90 (flowUnit f) 0 slot.val s.time) ∧ t.mem = s.mem) ∧
    (Writable s (.inst i) .MRC_CQ_DB slot.val → w.err = false → w.fetching = true ∨ s.instState i = 2 ∨ r.sqHead = r.sqTail → Completes (.cqDoorbell m i slot v) s fun t =>
      t.flow? f = some { w with rings := some { r with cqHead := F.MRC_CQ_DB_HEAD.part v.toNat % 2 ^ r.cqLog } } ∧ t.regs = s.regs ∧
      t.dev.mill = { s.dev.mill with flows := t.dev.mill.flows } ∧ t.mem = s.mem ∧ t.out = []) ∧
    (w.err = true →
      (Writable s (.inst i) .MRC_SQ_DB slot.val → Completes (.sqDoorbell m i slot v) s fun t => t = writing m s) ∧
      (Writable s (.inst i) .MRC_CQ_DB slot.val → Completes (.cqDoorbell m i slot v) s fun t => t = writing m s))) ∧
  (∀ (s : State) (m : Master) (i : Fin 1024) (v : BitVec 32) (q : EvQ), Writable s (.inst i) .MRC_EQ_DB 0 → s.instState i = 1 ∨ s.instState i = 2 →
    Tab.get? s.dev.mill.eqs i.val = some q → Completes (.eqDoorbell m i v) s fun t =>
      Tab.get? t.dev.mill.eqs i.val = some { q with head := F.MRC_EQ_DB_HEAD.part v.toNat % 2 ^ q.log } ∧
      (∀ k, k ≠ i.val → Tab.get? t.dev.mill.eqs k = Tab.get? s.dev.mill.eqs k) ∧ t.regs = s.regs ∧
      t.dev.mill = { s.dev.mill with eqs := t.dev.mill.eqs } ∧ t.mem = s.mem) ∧
  (∀ (s : State) (id f idx : Nat) (it : MItem) (w : Flow), ItemOf s id f it → it.work = .fetch idx → Calm s f w → w.descs = [] → w.pkts = [] →
    Completes (.descriptorFetched id none) s (fun t => EntersError t f w ∧ (Space s → Logs t 87 (flowUnit f) 0 f s.time)) ∧
    (∀ l r pt fn, w.malformed (descOf w.nextSn idx l) = true → CanComplete s w r pt fn → Completes (.descriptorFetched id (some l)) s fun t =>
      cqEntry r pt fn (descOf w.nextSn idx l) 0x0E ∈ t.out ∧ (∃ v, t.flow? f = some v ∧ v.descs = [] ∧ v.nextSn = w.nextSn + 1 ∧ v.fetching = false ∧ v.err = false) ∧
      (Space s → Unlimited s 90 (flowUnit f) → Logs t 90 (flowUnit f) 0 f s.time) ∧ t.mem = s.mem) ∧
    (∀ l p, w.malformed (descOf w.nextSn idx l) = false → (descOf w.nextSn idx l).opc = 2 →
      (descOf w.nextSn idx l).len ≤ 16 * 4096 - (descOf w.nextSn idx l).roff % 4096 →
      p = MPkt.mk w.sndNxt w.nextSn .rreq (descOf w.nextSn idx l).fin 0 (descOf w.nextSn idx l).roff (descOf w.nextSn idx l).len (descOf w.nextSn idx l).rkey
        (descOf w.nextSn idx l).op1 (descOf w.nextSn idx l).op2 [] (2 ^ (((descOf w.nextSn idx l).roff % 4096 + (descOf w.nextSn idx l).len + 4095) / 4096) - 1) 1 0 [] s.time
        (s.rto f w) none false →
      Completes (.descriptorFetched id (some l)) s fun t =>
        t.out = sent s f w p false p.blocks ∧ (∃ v, t.flow? f = some v ∧ v.pkts = [p] ∧ v.sndNxt = (w.sndNxt + 1) % 2 ^ 24 ∧
          v.descs = [{ descOf w.nextSn idx l with cut := (descOf w.nextSn idx l).len }]) ∧
        t.fld (flowUnit f) F.MRC_TX_COUNT = (s.fld (flowUnit f) F.MRC_TX_COUNT + 1) % 2 ^ F.MRC_TX_COUNT.w ∧ KeepRegs s t (places (flowUnit f) [F.MRC_TX_COUNT]) ∧ t.mem = s.mem) ∧
    (∀ l pt fn k, w.malformed (descOf w.nextSn idx l) = false → (descOf w.nextSn idx l).opc = 1 → MayRead s f w.inst pt fn k →
      Completes (.descriptorFetched id (some l)) s fun t =>
        .busRead pt fn (k, s.ortGen k) (descOf w.nextSn idx l).laddr (descOf w.nextSn idx l).len ∈ t.out ∧
        (∃ v, t.flow? f = some v ∧ v.descs = [descOf w.nextSn idx l] ∧ v.pkts = []) ∧
        (∃ j, Tab.get? t.dev.mill.items s.dev.mill.nextItem = some j ∧ j.work = .source w.nextSn ∧ j.issued = true) ∧ t.mem = s.mem)) ∧
  (∀ (s : State) (id f : Nat) (it : MItem) (w : Flow) (d : MDesc), ItemOf s id f it → it.work = .source d.sn → Calm s f w → w.descs = [d] → w.pkts = [] → d.opc = 1 →
    d.status = none → d.cut = 0 → d.src = none →
    (∀ l p, l.length = d.len → 0 < d.len → d.len ≤ 4096 - d.roff % 4096 →
      p = MPkt.mk w.sndNxt d.sn .wdata d.fin 0 d.roff d.len d.rkey d.op1 d.op2 l 0 1 0 [] s.time (s.rto f w) none false →
      Completes (.localReadComplete id (some l)) s fun t =>
        t.out = sent s f w p false 0 ∧ (∃ v, t.flow? f = some v ∧ v.pkts = [p] ∧ v.sndNxt = (w.sndNxt + 1) % 2 ^ 24) ∧
        t.fld (flowUnit f) F.MRC_TX_COUNT = (s.fld (flowUnit f) F.MRC_TX_COUNT + 1) % 2 ^ F.MRC_TX_COUNT.w ∧ KeepRegs s t (places (flowUnit f) [F.MRC_TX_COUNT]) ∧ t.mem = s.mem) ∧
    (∀ r pt fn, CanComplete s w r pt fn → Completes (.localReadComplete id none) s fun t =>
      cqEntry r pt fn d 0x01 ∈ t.out ∧ (∃ v, t.flow? f = some v ∧ v.descs = []) ∧ t.mem = s.mem))

/-- R203, R224, R226, R228-R233, R235, R238, R240: an ACK, an RDATA and an ARSP end their packets, and the descriptor completes with its entry; data that
was read is written to the initiator's memory. A trim notice and a timeout send the packet again, with their counts; after RETRY_MAX timeouts, a RETRY
that lasts too long, ABORT and a path lost for REC_MS the flow end enters ERROR. The model's choices and readings that this rests on: log entries 16,
34, 35, 38, 133. -/
def Obligations.SendersEnds : Prop :=
  (∀ (s : State) (h : MHdr) (w : Flow) (p : MPkt) (d : MDesc) (r : MRings) (pt : PortId) (fn : Nat), Calm s h.dstFlow.val w → w.fgen = h.fgen.toNat → w.pkts = [p] → w.descs = [d] →
    p.sn = d.sn → d.status = none → d.fail = none → CanComplete s w r pt fn →
    (∀ (cum start : BitVec 24) (sack : BitVec 256) (rejs : List (Nat × Nat)) (more : Bool) (code : Nat), p.type = .wdata → d.opc = 1 → d.cut = d.len →
      ackEnds cum.toNat start.toNat sack rejs more p = some code → Completes (.ack (sound h) cum start sack [] rejs more) s fun t =>
        cqEntry r pt fn { d with done := (if code = 0 then d.done + p.len else d.done), result := (if code = 0 then 0 else d.result), dep := false } code ∈ t.out ∧
        (∃ v, t.flow? h.dstFlow.val = some v ∧ v.pkts = [] ∧ v.descs = [] ∧ v.err = false ∧ (p.sends = 1 → v.srtt = (7 * w.srtt + (s.time - p.sentAt)) / 8)) ∧
        t.regs = s.regs ∧ t.mem = s.mem) ∧
    (∀ (data : List Byte) (b : Nat × Nat × Nat), p.type = .rreq → p.seq = h.seq.toNat → p.blocks = 2 ^ h.seg.val → d.opc = 2 → d.cut = d.len → h.stat = 0 →
      (rreqBlocks p.roff p.len).find? (fun b => b.1 == h.seg.val) = some b → Completes (.rdata (sound h) data) s fun t =>
        .busWrite pt fn (d.laddr + (p.off + (b.2.1 - p.roff))) (data.take b.2.2) .data ∈ t.out ∧
        cqEntry r pt fn { d with done := d.done + (data.take b.2.2).length, result := 0 } 0 ∈ t.out ∧
        (∃ v, t.flow? h.dstFlow.val = some v ∧ v.pkts = [] ∧ v.descs = []) ∧ t.regs = s.regs ∧ t.mem = s.mem) ∧
    (p.type = .atomic → p.seq = h.seq.toNat → d.opc = 3 ∨ d.opc = 4 → d.cut ≠ 0 → Completes (.arsp (sound h)) s fun t =>
      cqEntry r pt fn { d with result := (if h.stat.toNat = 0 then h.op1 else d.result) } h.stat.toNat ∈ t.out ∧
      (∃ v, t.flow? h.dstFlow.val = some v ∧ v.pkts = [] ∧ v.descs = []) ∧ t.regs = s.regs ∧ t.mem = s.mem)) ∧
  (∀ (s : State) (h : MHdr) (w : Flow) (p : MPkt), Calm s h.dstFlow.val w → w.fgen = h.fgen.toNat → w.pkts.find? (fun p => p.seq == h.seq.toNat) = some p →
    (h.orig = some .rdata → p.type = .rreq → bitOf p.blocks h.seg.val = true → Tab.getD p.trims h.seg.val 0 + 1 < 64 → Completes (.trim (sound h)) s fun t =>
      t.out = sent s h.dstFlow.val w p true (2 ^ h.seg.val) ∧
      (∃ v, t.flow? h.dstFlow.val = some v ∧ v.pkts.find? (fun p => p.seq == h.seq.toNat) = some { p with
        trims := Tab.put p.trims h.seg.val (Tab.getD p.trims h.seg.val 0 + 1), sends := p.sends + 1 }) ∧
      t.fld (flowUnit h.dstFlow.val) F.MRC_RTX_TRIM = (s.fld (flowUnit h.dstFlow.val) F.MRC_RTX_TRIM + 1) % 2 ^ F.MRC_RTX_TRIM.w ∧
      KeepRegs s t (places (flowUnit h.dstFlow.val) [F.MRC_RTX_TRIM]) ∧ t.mem = s.mem)) ∧
  (∀ (s : State) (h : MHdr) (w : Flow), NoHurt s → s.flow? h.dstFlow.val = some w → s.isFenced (flowUnit h.dstFlow.val) = false → w.err = false → w.fgen = h.fgen.toNat →
    Completes (.abort (sound h)) s fun t => EntersError t h.dstFlow.val w ∧ (Space s → (∀ q ∈ w.pkts, w.gone q = false) → Logs t 87 (flowUnit h.dstFlow.val) 0 h.dstFlow.val s.time) ∧ t.mem = s.mem) ∧
  (∀ (s : State) (f : Fin 16384) (seq : BitVec 24) (w : Flow) (p : MPkt), Calm s f.val w → w.pkts.find? (fun p => p.seq == seq.toNat) = some p →
    (p.retries < s.fld (flowUnit f.val) F.MRC_RTO_RETRY_MAX → s.dev.fab.lostDst.contains w.peerSw.val = false → Completes (.rtoExpiry f seq) s fun t =>
      t.out = sent s f.val w p true p.blocks ∧
      (∃ v, t.flow? f.val = some v ∧ v.pkts.find? (fun p => p.seq == seq.toNat) = some { p with
        retries := p.retries + 1, trims := [], sentAt := s.time, rto := min (s.rtoMax f.val) (p.rto * 2), sends := p.sends + 1 }) ∧
      t.fld (flowUnit f.val) F.MRC_RTX_TIMER = (s.fld (flowUnit f.val) F.MRC_RTX_TIMER + 1) % 2 ^ F.MRC_RTX_TIMER.w ∧
      KeepRegs s t (places (flowUnit f.val) [F.MRC_RTX_TIMER]) ∧ t.mem = s.mem) ∧
    (s.fld (flowUnit f.val) F.MRC_RTO_RETRY_MAX ≤ p.retries → s.dev.fab.lostDst.contains w.peerSw.val = false → Completes (.rtoExpiry f seq) s fun t =>
      EntersError t f.val w ∧ (Space s → (∀ q ∈ w.pkts, w.gone q = false) → Logs t 88 (flowUnit f.val) 0 f.val s.time)) ∧
    (∀ q, w.pkts.find? (fun p => p.seq == seq.toNat && p.rnrSince.isSome) = some q → p = q →
      Completes (.rnrResend f seq) s (fun t => t.out = sent s f.val w p true p.blocks ∧
        (∃ v, t.flow? f.val = some v ∧ v.pkts.find? (fun p => p.seq == seq.toNat) = some { p with sends := p.sends + 1 }) ∧ t.regs = s.regs ∧ t.mem = s.mem) ∧
      Completes (.rnrTimeout f seq) s fun t => EntersError t f.val w ∧ (Space s → (∀ q ∈ w.pkts, w.gone q = false) → Logs t 87 (flowUnit f.val) 0 f.val s.time))) ∧
  (∀ (s : State) (f : Fin 16384) (w : Flow), s.flow? f.val = some w → s.isFenced (flowUnit f.val) = false → w.err = false → s.dev.fab.lostDst.contains w.peerSw.val = true →
    Completes (.pathRecoveryTimeout f) s fun t => EntersError t f.val w ∧ (Space s → (∀ q ∈ w.pkts, w.gone q = false) → Logs t 87 (flowUnit f.val) 0 f.val s.time) ∧
      (∀ q pt fn, EqOpen s w.inst q pt fn → eqEntry s q pt fn 0x0004 f.val w.peerSw.val 0x0A ∈ t.out) ∧ t.mem = s.mem)

/-- R203, R217, R219, R221-R225, R230, R232, R233, R241: a packet that passes the tests is accepted: WDATA is placed with an ordering read behind it, RREQ
starts its block's read, ATOMIC its operation; a bad key is rejected and a frozen instance asks for a retry in an ACK; a packet of another generation
is counted and discarded. A completed placement, read or atomic ends its position, with its answer; an ordering read that completes covers the
placements issued before it; an ACK that is due, or that a trimmed packet calls for, is sent. A flow state area that reads uncorrectable puts its end
in ERROR with EV091, and a region entry that does is damaged and rejects. A header of R219 in its 64 bytes reads back as it is. The model's choices
and readings that this rests on: log entries 16, 37, 39, 133. -/
def Obligations.Receiving : Prop :=
  (∀ (s : State) (h : MHdr) (w : Flow) (data : List Byte) (op : AtomOp), h.type = .wdata ∨ h.type = .rreq ∨ h.type = .atomic → Passes s h w →
    (∀ c, s.keyTest h.dstFlow.val w h = .reject c → 2 ≤ c →
      ∀ i, (h.type = .wdata ∧ i = Instr.wdata (sound h) data) ∨ (h.type = .rreq ∧ i = Instr.rreq (sound h)) ∨ (h.type = .atomic ∧ i = Instr.atomic (sound h) op) → Completes i s fun t =>
        (∃ v, t.flow? h.dstFlow.val = some v ∧ Tab.get? v.rxRes h.seq.toNat = some c ∧ v.ackDue = false) ∧
        (∃ m cum st sa tr rj mo, Gone t (Out.millAck m cum st sa tr rj mo) ∧ m.dstSw = w.peerSw) ∧ t.dev.mill.items = s.dev.mill.items ∧ t.regs = s.regs ∧ t.mem = s.mem) ∧
    (s.keyTest h.dstFlow.val w h = .retry →
      ∀ i, (h.type = .wdata ∧ i = Instr.wdata (sound h) data) ∨ (h.type = .rreq ∧ i = Instr.rreq (sound h)) ∨ (h.type = .atomic ∧ i = Instr.atomic (sound h) op) → Completes i s fun t =>
        (∃ m cum st sa rj mo, Gone t (Out.millAck m cum st sa [(h.seq.toNat, 0x81)] rj mo) ∧ m.dstSw = w.peerSw) ∧ t.dev.mill.items = s.dev.mill.items ∧
        t.regs = s.regs ∧ t.mem = s.mem) ∧
    (∀ ix r pt fn k, s.keyTest h.dstFlow.val w h = .ok ix r → r.pool = false → MayRead s h.dstFlow.val w.inst pt fn k →
      (h.type = .wdata → Completes (.wdata (sound h) data) s fun t =>
        t.out = [.busWrite pt fn (r.base + h.roff) data (.place (flowEngine h.dstFlow.val) s.dev.mill.nextItem), .busRead pt fn (k, s.ortGen k) (r.base + h.roff) 0] ∧
        (∃ v, t.flow? h.dstFlow.val = some v ∧ Tab.get? v.rxRes h.seq.toNat = some 0) ∧
        Tab.get? t.dev.mill.items s.dev.mill.nextItem = some ⟨h.dstFlow.val, w.fgen, w.inst, .place h.seq.toNat h.final h.retx, some ix, some (r.base + h.roff, 0), true, (s.writesOut pt).filter fun k => k != s.dev.mill.nextItem⟩ ∧
        t.mem = s.mem) ∧
      (∀ b, h.type = .rreq → (rreqBlocks h.roff h.len).filter (fun b => h.segmask.getLsbD b.1) = [b] → Completes (.rreq (sound h)) s fun t =>
        t.out = [.busRead pt fn (k, s.ortGen k) (r.base + b.2.1) b.2.2] ∧ (∃ v, t.flow? h.dstFlow.val = some v ∧ Tab.get? v.rxRes h.seq.toNat = some 0) ∧
        Tab.get? t.dev.mill.items s.dev.mill.nextItem = some ⟨h.dstFlow.val, w.fgen, w.inst, .block h.seq.toNat b.1 b.2.1 (h.final || h.retx), some ix, some (r.base + b.2.1, b.2.2), true, []⟩ ∧
        t.mem = s.mem)) ∧
    (∀ ix r, s.keyTest h.dstFlow.val w h = .ok ix r → h.type = .atomic → s.isFenced (.engine 2) = true → Completes (.atomic (sound h) op) s fun t =>
      .atomicResult (.mill (flowEngine h.dstFlow.val) s.dev.mill.nextItem) 5 0 ∈ t.out ∧
      (∃ v, t.flow? h.dstFlow.val = some v ∧ Tab.get? v.rxRes h.seq.toNat = some 0) ∧
      Tab.get? t.dev.mill.items s.dev.mill.nextItem = some ⟨h.dstFlow.val, w.fgen, w.inst, .atomic h.seq.toNat (h.final || h.retx), some ix, none, true, []⟩ ∧ t.mem = s.mem) ∧
    (∀ ix r, s.keyTest h.dstFlow.val w h = .ok ix r → h.type = .atomic → s.isFenced (.engine 2) = false → r.base + h.roff < 2 ^ 50 → (r.base + h.roff) % 8 = 0 →
      (r.base + h.roff) / 2 ^ 21 < s.fld .root F.DEV_MAP_SIZE_NEXT → (s.entry ((r.base + h.roff) / 2 ^ 21)).type ≠ .unmapped → (r.base + h.roff) / 2 ^ 21 ∉ s.dev.xlat.bad →
      (s.entry ((r.base + h.roff) / 2 ^ 21)).home = s.swid → s.atomRoom (r.base + h.roff) = true → Completes (.atomic (sound h) op) s fun t =>
        Tab.get? t.dev.coh.atoms s.dev.coh.nextAtom = some (Atomic.mk op (r.base + h.roff) (.mill (flowEngine h.dstFlow.val) s.dev.mill.nextItem) (s.fld .root F.DEV_EPOCH_CUR)
          (s.entry ((r.base + h.roff) / 2 ^ 21)).tgtA .waiting) ∧
        (∃ v, t.flow? h.dstFlow.val = some v ∧ Tab.get? v.rxRes h.seq.toNat = some 0) ∧ t.out = [] ∧ t.mem = s.mem)) ∧
  (∀ (s : State) (h : MHdr) (data : List Byte) (w : Flow), NoHurt s → s.isFenced (flowUnit h.dstFlow.val) = false → s.flow? h.dstFlow.val = some w → w.fgen ≠ h.fgen.toNat →
    ∀ i ∈ [Instr.wdata (sound h) data, Instr.rreq (sound h), Instr.rdata (sound h) data, Instr.arsp (sound h), Instr.trim (sound h), Instr.abort (sound h)], Completes i s fun t =>
      t.fld (flowUnit h.dstFlow.val) F.MRC_RX_DISC_FLOW = (s.fld (flowUnit h.dstFlow.val) F.MRC_RX_DISC_FLOW + 1) % 2 ^ F.MRC_RX_DISC_FLOW.w ∧
      KeepRegs s t (places (flowUnit h.dstFlow.val) [F.MRC_RX_DISC_FLOW]) ∧ OnlyRegs (begun s) t) ∧
  (∀ (s : State) (id f : Nat) (it : MItem) (w : Flow), ItemOf s id f it → s.flow? f = some w → it.fgen = w.fgen →
    (∀ seq fin retx, it.work = .place seq fin retx → s.itemBusy (flowEngine f) id = false → Completes (.placementComplete id) s fun t =>
      (∃ v, t.flow? f = some v ∧ Ended v seq) ∧ Tab.get? t.dev.mill.items id = none ∧ t.regs = s.regs ∧ t.mem = s.mem ∧
      (fin = true ∨ retx = true → ∃ m cum st sa tr rj mo, Gone t (Out.millAck m cum st sa tr rj mo) ∧ m.dstSw = w.peerSw) ∧
      (∀ k ∈ it.behind, ∀ j q a b, Tab.get? s.dev.mill.items k = some j → j.work = .place q a b →
        Tab.get? t.dev.mill.items k = none ∨ ∃ v, Tab.get? t.dev.mill.items k = some v ∧ v.work = .spent ∧ v.region = none) ∧
      (∀ k j q a b, it.behind = [k] → k ≠ id → Tab.get? s.dev.mill.items k = some j → j.work = .place q a b → j.flow = f → j.fgen = w.fgen → seqBelow q w.rxB = false →
        ∃ v, t.flow? f = some v ∧ Ended v q)) ∧
    (it.work = .spent → Completes (.placementComplete id) s fun t => Tab.get? t.dev.mill.items id = none ∧ t.dev.mill.flows = s.dev.mill.flows ∧ t.out = [] ∧
      t.regs = s.regs ∧ t.mem = s.mem) ∧
    (∀ seq seg roff now (stat : Fin 9) data, it.work = .block seq seg roff now → stat.val ≠ 0 ∨ s.itemBusy (flowEngine f) id = false → Completes (.rreqReadComplete id stat data) s fun t =>
      Gone t (.mill { s.millHdr f w .rdata with
        seq := BitVec.ofNat 24 seq, seg := ⟨seg % 16, Nat.mod_lt _ (by decide)⟩, roff, stat := BitVec.ofNat 8 stat.val
        len := if stat.val = 0 then data.length else 0 } (if stat.val = 0 then data else []) none) ∧
      Tab.get? t.dev.mill.items id = none ∧ t.regs = s.regs ∧ t.mem = s.mem ∧
      (s.dev.mill.items = [(id, it)] → Tab.get? w.rxRes seq = some 0 → (∃ v, t.flow? f = some v ∧ Ended v seq) ∧
        (now = true → ∃ m cum st sa tr rj mo, Gone t (Out.millAck m cum st sa tr rj mo) ∧ m.dstSw = w.peerSw))) ∧
    (∀ seq now (code : Fin 7) old, it.work = .atomic seq now → Completes (.atomicResult id code old) s fun t =>
      Gone t (.mill { s.millHdr f w .arsp with seq := BitVec.ofNat 24 seq, stat := BitVec.ofNat 8 (atomStatus code.val), op1 := old } [] none) ∧
      (∃ v, t.flow? f = some v ∧ Ended v seq ∧ v.atoms.getLast? = some ⟨seq, atomStatus code.val, old⟩) ∧
      Tab.get? t.dev.mill.items id = none ∧ t.regs = s.regs ∧ t.mem = s.mem ∧
      (now = true → ∃ m cum st sa tr rj mo, Gone t (Out.millAck m cum st sa tr rj mo) ∧ m.dstSw = w.peerSw))) ∧
  (∀ (s : State) (f : Fin 16384) (w : Flow), s.flow? f.val = some w → s.isFenced (flowUnit f.val) = false →
    (w.ackDue = true → Unheld s → Reaches s w.peerSw → Completes (.ackDelayExpiry f) s fun t => (∃ m cum st sa tr rj mo, Gone t (Out.millAck m cum st sa tr rj mo) ∧ m.dstSw = w.peerSw) ∧
      t.flow? f.val = some { w with newEnds := [], ackDue := false } ∧ t.regs = s.regs ∧ t.mem = s.mem) ∧
    (w.ackDue = false → Completes (.ackDelayExpiry f) s fun t => t = begun s)) ∧
  (∀ (s : State) (h : MHdr) (w : Flow), Calm s h.dstFlow.val w → w.fgen = h.fgen.toNat → h.orig = some .wdata → Completes (.trim (sound h)) s fun t =>
    (∃ m cum st sa rj mo, Gone t (Out.millAck m cum st sa [(h.seq.toNat, 0x80)] rj mo) ∧ m.dstSw = w.peerSw) ∧ t.regs = s.regs ∧ t.mem = s.mem) ∧
  (∀ (s : State) (h : MHdr) (w : Flow) (data : List Byte), h.type = .wdata → s.isFenced (flowUnit h.dstFlow.val) = false → s.flow? h.dstFlow.val = some w →
    (∀ key, w.err = false → FirstOf s (s.domainOf (flowUnit h.dstFlow.val)) 0 → Completes (.wdata ⟨h, true, key⟩ data) s fun t =>
      EntersError t h.dstFlow.val w ∧ (Space s → Logs t 91 (s.domainOf (flowUnit h.dstFlow.val)) 1 h.dstFlow.val s.time)) ∧
    (∀ ix r, Passes s h w → s.keyTest h.dstFlow.val w h = .ok ix r → Completes (.wdata ⟨h, false, true⟩ data) s fun t =>
      (∃ v, Tab.get? t.dev.mill.regions ix = some v ∧ v.dmg = true) ∧ (∃ v, t.flow? h.dstFlow.val = some v ∧ Tab.get? v.rxRes h.seq.toNat = some 2) ∧
      t.dev.mill.items = s.dev.mill.items ∧ t.mem = s.mem)) ∧
  (∀ h : MHdr, h.roff < 2 ^ 64 → h.len < 2 ^ 32 → (millBytes h).length = 64 ∧ millParse (millBytes h) = some h)

/-! ### Fabric (spec 08) -/

/-- R245, R247, R248, R254-R256: the identity and a configured set are stored, or refused with EV101 while a fabric link is active or a group named is not
in mode F. A recompute gives each destination its effective set and DEV_FAB_STAT its reach; a set that becomes empty gives a path-loss notice and
opens the fault of EV098, one that has members again ends it with EV099; each UP link holds the mask last advertised. A newer advertisement on an UP
link is applied, any other ignored; a refresh sends the mask again under the next sequence. The model's choices and readings that this rests on: log
entries 16, 45, 46, 105, 147. -/
def Obligations.Routing : Prop :=
  (∀ (s : State) (m : Master) (v : BitVec 32), Writable s .root .DEV_FAB_ID 0 →
    ((∀ g : Fin 64, s.mode g = .f → s.fabState g = 0 ∨ s.fabState g = 5) ∨
        (v.toNat % 2 ^ 4 = s.swid.val ∧ v.toNat / 2 ^ 16 = s.fld .root F.DEV_FAB_ID_FABRIC_ID) →
      Completes (.fabricIdWrite m v) s fun t =>
        t.fld .root F.DEV_FAB_ID_FABRIC_ID = v.toNat / 2 ^ 16 ∧ t.fld .root F.DEV_FAB_ID_MAXHOP = max 1 (v.toNat / 2 ^ 8 % 2 ^ 4) ∧
        t.fld .root F.DEV_FAB_ID_SWID = v.toNat % 2 ^ 4 ∧
        KeepRegs s t (places .root [F.DEV_FAB_ID_FABRIC_ID, F.DEV_FAB_ID_MAXHOP, F.DEV_FAB_ID_SWID]) ∧ OnlyRegs (writing m s) t) ∧
    ((∃ g : Fin 64, s.mode g = .f ∧ s.fabState g ≠ 0 ∧ s.fabState g ≠ 5) →
        v.toNat % 2 ^ 4 ≠ s.swid.val ∨ v.toNat / 2 ^ 16 ≠ s.fld .root F.DEV_FAB_ID_FABRIC_ID →
      Completes (.fabricIdWrite m v) s fun t => Notes .root (writing m s) t ∧ (Room s → Logs t 101 .root 0 0 s.time))) ∧
  (∀ (s : State) (m : Master) (n : Fin 16) (v : BitVec 64), Writable s .root .DEV_FAB_RT n.val →
    ((∀ g : Fin 64, bitOf v.toNat g.val = true → s.mode g = .f) → Completes (.routingTableWrite m n v) s fun t =>
      t.fldn .root F.DEV_FAB_RT_MEMBERS n.val = v.toNat ∧ KeepRegs s t [fkey .root F.DEV_FAB_RT_MEMBERS n.val] ∧ OnlyRegs (writing m s) t) ∧
    ((∃ g : Fin 64, bitOf v.toNat g.val = true ∧ s.mode g ≠ .f) → Completes (.routingTableWrite m n v) s fun t =>
      Notes .root (writing m s) t ∧ (Room s → Logs t 101 .root 0 n.val s.time))) ∧
  (∀ s : State, ((∀ d : Fin 16, (s.fldn .root F.DEV_FAB_EFF_MEMBERS d.val ≠ 0 → s.effSet d ≠ 0) ∧ (s.effSet d ≠ 0 → d.val ∉ s.dev.fab.lostDst)) →
      Completes .effectiveSetRecompute s fun t =>
        (∀ d : Fin 16, t.fldn .root F.DEV_FAB_EFF_MEMBERS d.val = s.effSet d ∧
          bitOf (t.fld .root F.DEV_FAB_STAT_REACH) d.val = decide (d = s.swid ∨ s.effSet d ≠ 0)) ∧
        (∀ g, s.fabUp g = true → Tab.get? t.dev.fab.advMask g.val = some (t.advContent g)) ∧ t.dev.fab.lostDst = s.dev.fab.lostDst ∧
        LinkMoves (begun s) t) ∧
    (∀ d : Fin 16, Unused s → FirstOf s .root 1 → s.fldn .root F.DEV_FAB_EFF_MEMBERS d.val ≠ 0 → s.effSet d = 0 →
      (∀ e : Fin 16, (e ≠ d → s.fldn .root F.DEV_FAB_EFF_MEMBERS e.val ≠ 0 → s.effSet e ≠ 0) ∧ (s.effSet e ≠ 0 → e.val ∉ s.dev.fab.lostDst)) →
      Completes .effectiveSetRecompute s fun t =>
        t.fldn .root F.DEV_FAB_EFF_MEMBERS d.val = 0 ∧ d.val ∈ t.dev.fab.lostDst ∧ Opens t .root 1 .root ∧
        (Space s → s.upLinks.length ≤ 8 → Logs t 98 .root 1 d.val s.time) ∧ t.mem = s.mem) ∧
    (∀ d : Fin 16, Unused s → d.val ∈ s.dev.fab.lostDst → s.effSet d ≠ 0 →
      (∀ e : Fin 16, (s.fldn .root F.DEV_FAB_EFF_MEMBERS e.val ≠ 0 → s.effSet e ≠ 0) ∧ (e ≠ d → s.effSet e ≠ 0 → e.val ∉ s.dev.fab.lostDst)) →
      Completes .effectiveSetRecompute s fun t =>
        t.fldn .root F.DEV_FAB_EFF_MEMBERS d.val = s.effSet d ∧ d.val ∉ t.dev.fab.lostDst ∧
        (Space s → s.upLinks.length ≤ 8 → Logs t 99 .root 0 d.val s.time) ∧ t.mem = s.mem)) ∧
  (∀ (s : State) (g : Fin 64) (mask : BitVec 16) (seq : BitVec 32), NoneHeld s g 0x21 →
    (s.fabUp g = true → (∀ q, Tab.get? s.dev.fab.advRx g.val = some q → q < seq.toNat) → Completes (.reachAdvertisement g mask seq) s fun t =>
      t.fld (fabPort g) F.PRT_FAB_STAT_PEER_REACH = mask.toNat ∧ KeepRegs s t (places (fabPort g) [F.PRT_FAB_STAT_PEER_REACH]) ∧
      t = { begun s with
        regs := t.regs
        dev := { (begun s).dev with fab := { s.dev.fab with advRx := Tab.put s.dev.fab.advRx g.val seq.toNat } } }) ∧
    (s.fabUp g = false ∨ (∃ q, Tab.get? s.dev.fab.advRx g.val = some q ∧ seq.toNat ≤ q) →
      Completes (.reachAdvertisement g mask seq) s fun t => t = begun s)) ∧
  (∀ s : State, Completes .reachRefresh s fun t => LinkMoves (begun s) t ∧
    (∀ g, s.fabUp g = true → Tab.getD t.dev.fab.advTx g.val 0 = Tab.getD s.dev.fab.advTx g.val 0 + 1 ∧
      Tab.get? t.dev.fab.advMask g.val = some (s.advContent g)) ∧
    (∀ g : Fin 64, s.fabUp g = false → Tab.get? t.dev.fab.advTx g.val = Tab.get? s.dev.fab.advTx g.val) ∧
    (∀ g, s.upLinks = [g] → LinkReady s g 1 → ∃ a b, t.out = [sentFlit g a idleSlots,
      sentFlit g b (ctrlSlots (reachMsg (s.fld .root F.DEV_FAB_ID_FABRIC_ID) s.swid.val (s.advContent g) (Tab.getD s.dev.fab.advTx g.val 0 + 1)))]))

/-- R259-R264, R332, R333: the authentication of a link whose turn has come, one of 8 at once, sends what it asks of the peer as far as the answers let it
go, and fails with the first code that applies, or takes the link to ADMIT once the peer has challenged this end too, where CRINIT and the identity
message go out; an identity message is accepted, kept while the link is still in AUTH, or fails the link; CRINIT sets the credits; once both are there
the link is UP with EV095 and its first advertisement. The time limit fails a link in AUTH or ADMIT. FAB_TRUST_SET replaces the list, FAB_LINK_RETRY
takes a link from FAIL to AUTH, where it is authenticated or waits for its turn, FAB_COMPLETE sets READY. The model's choices and readings that this
rests on: log entries 7, 16, 42, 43, 44, 48, 134. -/
def Obligations.LinkAdmission : Prop :=
  (∀ (s : State) (g : Fin 64) (version : SpdmPeer) (chain : SpdmChain) (sig : Bool) (root : BitVec 384),
    (s.fabState g ≠ 2 ∨ (g.val, true) ∉ s.dev.fab.auth → Completes (.linkAuthenticationComplete g version root chain sig) s fun t => t = begun s) ∧
    (s.fabState g = 2 → (g.val, true) ∈ s.dev.fab.auth → NoneWaits s → Unheld s → FirstOf s (s.domainOf (fabPort g)) 6 → ∀ code,
      (peerOffers version = false ∧ code = 1) ∨ (peerOffers version = true ∧ (chain.intact = false ∨ chain.groupUnit = false ∨ root ∉ s.dev.fab.trust) ∧ code = 2) ∨
        (peerOffers version = true ∧ chain.intact = true ∧ chain.groupUnit = true ∧ root ∈ s.dev.fab.trust ∧ sig = false ∧ code = 3) →
      Completes (.linkAuthenticationComplete g version root chain sig) s fun t => ∃ nonce, LinkFails { begun s with
        out := (authAsks version chain (s.dev.fab.trust.contains root) nonce).map fun m => .spdm (129 + g.val) m.1 m.2
        fresh := s.fresh + 1 } s t g code 96) ∧
    (s.fabState g = 2 → (g.val, true) ∈ s.dev.fab.auth → Unheld s → peerOffers version = true → chain.intact = true → chain.groupUnit = true → root ∈ s.dev.fab.trust → sig = true →
        s.linkProven g = false → Completes (.linkAuthenticationComplete g version root chain sig) s fun t => ∃ nonce, t = { begun s with
        out := (authAsks version chain true nonce).map fun m => .spdm (129 + g.val) m.1 m.2
        fresh := s.fresh + 1
        dev := { (begun s).dev with fab := { s.dev.fab with passed := s.dev.fab.passed ++ [g.val] } } }) ∧
    (s.fabState g = 2 → (g.val, true) ∈ s.dev.fab.auth → NoneWaits s → Unheld s → (0x13 : BitVec 8) ∈ version.versions → version.p384 = true → version.sha384 = true → chain.intact = true →
        chain.groupUnit = true → root ∈ s.dev.fab.trust → sig = true → s.linkProven g = true → Tab.get? s.dev.fab.early g.val = none →
      Completes (.linkAuthenticationComplete g version root chain sig) s fun t => LinkMoves { begun s with fresh := s.fresh + 1 } t ∧ t.fabState g = 3 ∧
        Tab.get? t.dev.fab.joining g.val = some { identityOk := false, crinitSent := true, crinitRx := (s.flink g).crinit } ∧
        (LinkReady s g 2 → ∃ nonce a b c d, t.out = ((authAsks version chain true nonce).map fun m => .spdm (129 + g.val) m.1 m.2) ++ [sentFlit g a idleSlots,
          sentFlit g b (ctrlSlots (crinitMsg (768 - (s.rxReserves g).sum) (s.fld (fabPort g) F.PRT_FL_RXLIM_RBMAX) (s.rxReserves g))), sentFlit g c idleSlots,
          sentFlit g d (ctrlSlots (identityMsg (s.fld .root F.DEV_FAB_ID_FABRIC_ID) s.swid.val g.val (s.fld .root F.DEV_RSV_PART_MAP_GIB)))]))) ∧
  (∀ (s : State) (g grp : Fin 64) (fabId : BitVec 16) (sw : Fin 16) (gib : BitVec 8), NoneHeld s g 0x20 →
    (s.fabState g = 2 → Completes (.identity g fabId sw grp gib) s fun t => t = { begun s with
      dev := { (begun s).dev with fab := { s.dev.fab with early := Tab.put s.dev.fab.early g.val { fabId, sw, grp, mapGib := gib } } } }) ∧
    (s.fabState g ≠ 2 → s.fabState g ≠ 3 → Completes (.identity g fabId sw grp gib) s fun t => t = begun s) ∧
    (s.fabState g = 3 → NoneWaits s → FirstOf s (s.domainOf (fabPort g)) 6 → ∀ code,
      (fabId.toNat ≠ s.fld .root F.DEV_FAB_ID_FABRIC_ID ∧ code = 4) ∨
        (fabId.toNat = s.fld .root F.DEV_FAB_ID_FABRIC_ID ∧ sw = s.swid ∧ code = 5) ∨
        (fabId.toNat = s.fld .root F.DEV_FAB_ID_FABRIC_ID ∧ sw ≠ s.swid ∧ s.flag (fabPort g) F.PRT_FAB_PEER_EN = true ∧
          (sw.val ≠ s.fld (fabPort g) F.PRT_FAB_PEER_PEER_SW ∨ grp.val ≠ s.fld (fabPort g) F.PRT_FAB_PEER_PEER_GRP) ∧ code = 6) →
      Completes (.identity g fabId sw grp gib) s fun t => LinkFails (begun s) s t g code 97) ∧
    (s.fabState g = 3 → fabId.toNat = s.fld .root F.DEV_FAB_ID_FABRIC_ID → sw ≠ s.swid → (s.flag (fabPort g) F.PRT_FAB_PEER_EN = false ∨
        (sw.val = s.fld (fabPort g) F.PRT_FAB_PEER_PEER_SW ∧ grp.val = s.fld (fabPort g) F.PRT_FAB_PEER_PEER_GRP)) →
      ((∀ a, Tab.get? s.dev.fab.joining g.val = some a → a.crinitSent = false ∨ a.crinitRx = false) → Completes (.identity g fabId sw grp gib) s fun t =>
        ∃ r, r.fld (fabPort g) F.PRT_FAB_STAT_PEER_SW = sw.val ∧ r.fld (fabPort g) F.PRT_FAB_STAT_PEER_GRP = grp.val ∧
          KeepRegs s r (places (fabPort g) [F.PRT_FAB_STAT_PEER_SW, F.PRT_FAB_STAT_PEER_GRP]) ∧
          r = { begun s with
            regs := r.regs
            dev := { (begun s).dev with fab := { s.dev.fab with joining := Tab.upd s.dev.fab.joining g.val fun a => { a with identityOk := true } } } } ∧
          Notes (fabPort g) r t ∧
          (gib.toNat ≠ s.fld .root F.DEV_RSV_PART_MAP_GIB → Room s → Logs t 102 (s.domainOf (fabPort g)) 0 gib.toNat s.time)) ∧
      (∀ a, Tab.get? s.dev.fab.joining g.val = some a → a.crinitSent = true → a.crinitRx = true → s.mode g = .f → UpAlone s →
        Completes (.identity g fabId sw grp gib) s fun t => CameUp s t g ∧ t.fld (fabPort g) F.PRT_FAB_STAT_PEER_SW = sw.val ∧
          t.fld (fabPort g) F.PRT_FAB_STAT_PEER_GRP = grp.val))) ∧
  (∀ (s : State) (g : Fin 64) (shared : BitVec 16) (res : List (BitVec 8)) (rbMax : BitVec 16), NoneHeld s g 0x22 →
    (s.fabState g ∉ [2, 3, 4] → Completes (.crinit g shared res rbMax) s fun t => t = begun s) ∧
    (s.fabState g ∈ [2, 3, 4] → (s.fabState g = 3 → ∀ a, Tab.get? s.dev.fab.joining g.val = some a → a.identityOk = false ∨ a.crinitSent = false) →
      Completes (.crinit g shared res rbMax) s fun t => LinkMoves (begun s) t ∧ t.fabState g = s.fabState g ∧
        t.fld (fabPort g) F.PRT_FL_CRED_SH_CR = min 1023 (shared.toNat - ((s.flink g).shared.map fun e => e.2).sum) ∧
        (∀ c : Cls, Tab.get? (t.flink g).cred c.num = some (((res.map BitVec.toNat).getD c.num 0) - Tab.getD (s.flink g).charged c.num 0)) ∧
        (t.flink g).rbMax = rbMax.toNat ∧ (t.flink g).crinit = true ∧
        (∀ a, Tab.get? s.dev.fab.joining g.val = some a → Tab.get? t.dev.fab.joining g.val = some { a with crinitRx := true })) ∧
    (∀ a, s.fabState g = 3 → Tab.get? s.dev.fab.joining g.val = some a → a.identityOk = true → a.crinitSent = true → s.mode g = .f → UpAlone s →
      Completes (.crinit g shared res rbMax) s fun t => CameUp s t g)) ∧
  (∀ (s : State) (g : Fin 64),
    (s.fabState g = 2 ∨ (s.fabState g = 3 ∧ ∀ a, Tab.get? s.dev.fab.joining g.val = some a → a.identityOk = false) →
      NoneWaits s → FirstOf s (s.domainOf (fabPort g)) 6 → Completes (.authTimeout g) s fun t => LinkFails (begun s) s t g 7 96) ∧
    ((s.fabState g ≠ 2 ∧ s.fabState g ≠ 3) ∨ (s.fabState g = 3 ∧ ∃ a, Tab.get? s.dev.fab.joining g.val = some a ∧ a.identityOk = true) →
      Completes (.authTimeout g) s fun t => t = begun s)) ∧
  (∀ (s : State) (h : Hdr) (l : List (BitVec 384)), RunsOnDevice s h 0x0400 →
    (l.length ≤ 8 → Completes (.fabTrustSet h l) s fun t => Done t h [] ∧
      Replied h { begun s with dev := { (begun s).dev with fab := { s.dev.fab with trust := l } } } t) ∧
    (8 < l.length → Completes (.fabTrustSet h l) s fun t => Answered t h stLimit 0 1 [] ∧ Replied h (begun s) t)) ∧
  (∀ (s : State) (h : Hdr) (g : Fin 64), RunsNow s h 0x0401 → Names s h (.group g) → s.fabState g = 5 → NoneWaits s →
    Completes (.fabLinkRetry h) s fun t => Done t h [] ∧ t.fabState g = 2 ∧ t.fld (fabPort g) F.PRT_FAB_STAT_FAIL_CODE = 0 ∧
      KeepRegs s t (places (fabPort g) [F.PRT_FAB_STAT_STATE, F.PRT_FAB_STAT_FAIL_CODE] ++ answerPlaces h) ∧
      t.dev.fab = { s.dev.fab with auth := t.dev.fab.auth } ∧ t.dev.link = s.dev.link ∧ t.mem = s.mem ∧
      (((List.finRange 64).filter s.authNow).length < 8 → t.dev.fab.auth.getLast? = some (g.val, true) ∧ Sent t (.spdm (129 + g.val) 0x84 [])) ∧
      (8 ≤ ((List.finRange 64).filter s.authNow).length → t.dev.fab.auth.getLast? = some (g.val, false))) ∧
  (∀ (s : State) (h : Hdr), RunsOnDevice s h 0x0402 → s.dev.mill.flows = [] →
    Completes (.fabComplete h) s fun t => Done t h [] ∧ t.fld .root F.DEV_FAB_STAT_READY = 1 ∧
      KeepRegs s t (fkey .root F.DEV_FAB_STAT_READY 0 :: answerPlaces h) ∧ t.dev.fab = s.dev.fab ∧ t.mem = s.mem)

/-! ### Instances (spec 10) -/

/-- R299, R300, R320: a mailbox word is written from its own side while its FULL bit is 0, else dropped with EV119; each FULL bit is set by the sender and
cleared by the receiver alone, with EV118 and the mailbox vector. A rule's BASE and LIMIT are held until its CTL is written, which takes all three
together; a reserved ACTION or SPACE leaves the rule as it is; a locked rule takes no write, and logs EV127. The model's choices and readings that
this rests on: log entries 16, 137. -/
def Obligations.MailboxAndRules : Prop :=
  (∀ (s : State) (m : Master) (i : Fin 1024) (h2m : Bool) (j : Fin 64) (v : BitVec 32), Writable s (.inst i) (if h2m then .INS_MBX_H2M else .INS_MBX_M2H) j.val →
    (s.instSide m i = h2m → s.full i h2m = false → Completes (.mailboxSlotWrite m i h2m j v) s fun t =>
      t.fldn (.inst i) (if h2m then F.INS_MBX_H2M_DATA else F.INS_MBX_M2H_DATA) j.val = v.toNat ∧
      KeepRegs s t [fkey (.inst i) (if h2m then F.INS_MBX_H2M_DATA else F.INS_MBX_M2H_DATA) j.val] ∧ OnlyRegs (writing m s) t) ∧
    (s.instSide m i ≠ h2m ∨ s.full i h2m = true → Completes (.mailboxSlotWrite m i h2m j v) s fun t =>
      Notes (.inst i) (writing m s) t ∧ (Room s → Logs t 119 (.inst i) 0 j.val s.time))) ∧
  (∀ (s : State) (m : Master) (i : Fin 1024),
    (s.instSide m i = true → s.full i true = false → Completes (.h2mFullSet m i) s fun t => ∃ r,
      r.full i true = true ∧ KeepRegs s r (places (.inst i) [F.INS_MBX_DB_H2M_FULL]) ∧ OnlyRegs (writing m s) r ∧
      (s.anyPending = true → t = r) ∧ (s.anyPending = false → Notes (.inst i) r t ∧ (Room s → Logs t 118 (.inst i) 0 i.val s.time))) ∧
    (s.instSide m i = false ∨ s.full i true = true → Completes (.h2mFullSet m i) s fun t => t = writing m s) ∧
    (s.instSide m i = false → s.full i true = true → Completes (.h2mFullClear m i) s fun t =>
      t.full i true = false ∧ KeepRegs s t (places (.inst i) [F.INS_MBX_DB_H2M_FULL]) ∧ MailboxVector s (writing m s) t i) ∧
    (s.instSide m i = true → Completes (.h2mFullClear m i) s fun t => t = writing m s) ∧
    (s.instSide m i = false → s.full i false = false → Completes (.m2hFullSet m i) s fun t =>
      t.full i false = true ∧ KeepRegs s t (places (.inst i) [F.INS_MBX_DB_M2H_FULL]) ∧ MailboxVector s (writing m s) t i) ∧
    (s.instSide m i = true ∨ s.full i false = true → Completes (.m2hFullSet m i) s fun t => t = writing m s) ∧
    (s.instSide m i = true → Completes (.m2hFullClear m i) s fun t =>
      t.full i false = false ∧ KeepRegs s t (places (.inst i) [F.INS_MBX_DB_M2H_FULL]) ∧ OnlyRegs (writing m s) t) ∧
    (s.instSide m i = false → Completes (.m2hFullClear m i) s fun t => t = writing m s)) ∧
  (∀ (s : State) (m : Master) (n : Fin 4096) (limit : Bool) (v : BitVec 64),
    (Writable s .root (if limit then .LEV_RULE_LIMIT else .LEV_RULE_BASE) n.val →
      (s.fldn .root F.LEV_RULE_CTL_LOCK n.val = 0 → Completes (.leveeRuleRangeWrite m n limit v) s fun t => t.regs = s.regs ∧
        Tab.get? (if limit then t.dev.io.ruleLimit else t.dev.io.ruleBase) n.val = some v.toNat ∧
        t = { writing m s with dev := { (writing m s).dev with io := { (writing m s).dev.io with
          ruleBase := if limit then s.dev.io.ruleBase else t.dev.io.ruleBase
          ruleLimit := if limit then t.dev.io.ruleLimit else s.dev.io.ruleLimit } } }) ∧
      (s.fldn .root F.LEV_RULE_CTL_LOCK n.val = 1 → Completes (.leveeRuleRangeWrite m n limit v) s fun t =>
        Notes .root (writing m s) t ∧ (Room s → Logs t 127 .root 0 n.val s.time))) ∧
    (Writable s .root .LEV_RULE_CTL n.val →
      (s.fldn .root F.LEV_RULE_CTL_LOCK n.val = 0 → v.toNat / 2 ^ 39 % 4 ≠ 3 → v.toNat / 2 ^ 34 % 4 ≠ 3 →
        ∀ i, i = Instr.leveeRuleCtlWrite m n v ∨ (∃ w, i = Instr.leveeRuleLock m n w ∧ w.toNat + 2 ^ 63 = v.toNat) → Completes i s fun t =>
          (∀ f ∈ (regSpec .root .LEV_RULE_CTL).fields, t.fldn .root f n.val = v.toNat / 2 ^ f.lo % 2 ^ f.w) ∧
          (∀ b, Tab.get? s.dev.io.ruleBase n.val = some b → t.fldn .root F.LEV_RULE_BASE_BASE_PG n.val = b % 2 ^ 40) ∧
          (∀ b, Tab.get? s.dev.io.ruleLimit n.val = some b → t.fldn .root F.LEV_RULE_LIMIT_LIMIT_PG n.val = b % 2 ^ 40) ∧
          KeepRegs s t ((regSpec .root .LEV_RULE_CTL).fields.map (fun f => fkey .root f n.val) ++
            (if Tab.has s.dev.io.ruleBase n.val = true then [fkey .root F.LEV_RULE_BASE_BASE_PG n.val] else []) ++
            (if Tab.has s.dev.io.ruleLimit n.val = true then [fkey .root F.LEV_RULE_LIMIT_LIMIT_PG n.val] else [])) ∧
          t = { writing m s with
            regs := t.regs
            dev := { (writing m s).dev with io := { (writing m s).dev.io with
              ruleBase := Tab.erase s.dev.io.ruleBase n.val
              ruleLimit := Tab.erase s.dev.io.ruleLimit n.val } } }) ∧
      (s.fldn .root F.LEV_RULE_CTL_LOCK n.val = 0 → v.toNat / 2 ^ 39 % 4 = 3 ∨ v.toNat / 2 ^ 34 % 4 = 3 → Completes (.leveeRuleCtlWrite m n v) s fun t =>
        (∀ f ∈ (regSpec .root .LEV_RULE_CTL).fields, t.fldn .root f n.val = s.fldn .root f n.val) ∧
        t.fldn .root F.LEV_RULE_BASE_BASE_PG n.val = s.fldn .root F.LEV_RULE_BASE_BASE_PG n.val ∧
        t.fldn .root F.LEV_RULE_LIMIT_LIMIT_PG n.val = s.fldn .root F.LEV_RULE_LIMIT_LIMIT_PG n.val ∧ t.mem = s.mem) ∧
      (s.fldn .root F.LEV_RULE_CTL_LOCK n.val = 1 → ∀ w : BitVec 63, ∀ i ∈ [Instr.leveeRuleCtlWrite m n v, Instr.leveeRuleLock m n w], Completes i s fun t =>
        Notes .root (writing m s) t ∧ (Room s → Logs t 127 .root 0 n.val s.time))))

/-- R294, R302-R308, R311-R313: a VF that leaves the enabled range, a Function Level Reset and INS_RESET start an instance's reset, which squashes its
tracked requests and ends with nothing held and EV122. INS_FREEZE freezes and drains, and is answered at the drain's end or its limit; INS_SAVE writes
the image; INS_RESTORE checks it whole and installs it; INS_THAW, INS_DISCARD and FLOW_REPOINT do what R302 says. The model's choices and readings
that this rests on: log entries 16, 76, 87, 149. -/
def Obligations.InstanceLife : Prop :=
  (∀ (s : State) (pt : PortId) (n : Fin 65), s.portExists pt = true → s.mode pt.g = .h → Completes (.vfEnableChange pt n) s fun t =>
    Tab.getD t.dev.ports.numVfs pt.ix 0 = min n.val (s.fld (.port pt) F.PRT_HCFG_NUM_VFS) ∧
    (∀ (k : Nat) (i : Fin 1024), k < s.fld (.port pt) F.PRT_HCFG_NUM_VFS → i.val = s.fld (.port pt) F.PRT_HCFG_INST_BASE + k →
      (k < n.val → t.instState i = if s.instState i = 0 then 1 else s.instState i) ∧
      (n.val ≤ k → s.instState i = 1 ∨ s.instState i = 2 → ResetBegun s t i) ∧ (n.val ≤ k → s.instState i = 0 ∨ s.instState i = 3 → t.instState i = s.instState i)) ∧
    t.mem = s.mem ∧ t.hist = s.hist) ∧
  (∀ (s : State) (pt : PortId) (fn : Fin 65) (i : Fin 1024), s.portExists pt = true → s.mode pt.g = .h → s.vfInst pt fn.val = some i → s.instEnabled i = true →
    (s.instState i = 1 ∨ s.instState i = 2 → Completes (.functionLevelReset pt fn) s fun t => ResetBegun s t i ∧ t.mem = s.mem ∧ t.hist = s.hist ∧
      (∀ b, Running s 0x0303 (some (.inst i)) b → Answered t b.hdr stUnavailable 0 1 []) ∧
      (s.bgOf 0x0303 (some (.inst i)) = none → Unheld s → t = { begun s with
        regs := t.regs
        out := t.out
        dev := { (begun s).dev with
          flood := { s.dev.flood with waiting := t.dev.flood.waiting }
          mill := { s.dev.mill with regions := t.dev.mill.regions } } })) ∧
    (s.instState i = 0 ∨ s.instState i = 3 → Completes (.functionLevelReset pt fn) s fun t => t = begun s)) ∧
  (∀ (s : State) (h : Hdr) (i : Fin 1024), Names s h (.inst i) →
    (RunsNow s h 0x0303 →
      (s.instState i = 1 → Completes (.insFreeze h) s fun t => t.instState i = 2 ∧ t.fld (.inst i) F.INS_STAT_DRAINING = 1 ∧
        KeepRegs s t (places (.inst i) [F.INS_STAT_STATE, F.INS_STAT_DRAINING]) ∧
        t = { begun s with
          regs := t.regs
          bg := s.bg ++ [{ hdr := h, opcode := 0x0303, unit := some (.inst i), args := [] }] }) ∧
      (s.instState i = 0 → Completes (.insFreeze h) s fun t => Answered t h stUnavailable 0 1 [] ∧ Replied h (begun s) t) ∧
      (s.instState i = 3 → Completes (.insFreeze h) s fun t => Answered t h stBusy 0 1 [] ∧ Replied h (begun s) t)) ∧
    (∀ pt a (len : BitVec 32), RunsNow s h 0x0304 →
      (s.instState i = 3 ∨ s.freezing i = true → Completes (.insSave h (.bus pt a) len) s fun t => Answered t h stBusy 0 1 [] ∧ Replied h (begun s) t) ∧
      (s.instState i = 2 → s.freezing i = false →
        64768 < 32 * (s.instRegions i).length + 8 * (s.rejectRecords i).length + 16 * (s.atomRecords i).length ∨
          (∃ e ∈ s.flowsOf i, ∃ c ∈ e.2.rxRes, 1 ≤ c.2 ∧ seqBelow c.1 e.2.rxB = false ∧ 256 ≤ seqDiff c.1 e.2.rxB) →
        Completes (.insSave h (.bus pt a) len) s fun t => Answered t h stLimit 0 1 [] ∧ Replied h (begun s) t) ∧
      (s.instState i = 2 → s.freezing i = false →
        32 * (s.instRegions i).length + 8 * (s.rejectRecords i).length + 16 * (s.atomRecords i).length ≤ 64768 →
        (∀ e ∈ s.flowsOf i, ∀ c ∈ e.2.rxRes, c.2 = 0 ∨ seqBelow c.1 e.2.rxB = true ∨ seqDiff c.1 e.2.rxB < 256) →
        (len.toNat < (s.image i).length → Completes (.insSave h (.bus pt a) len) s fun t => Answered t h stInvalid 0 1 [] ∧ Replied h (begun s) t) ∧
        ((s.image i).length ≤ len.toNat → Completes (.insSave h (.bus pt a) len) s fun t =>
          (s.bme pt 0 = true → Sent t (.busWrite pt 0 a (s.image i) .data)) ∧
          (s.bme pt 0 = false → .busWrite pt 0 a (s.image i) .data ∈ Tab.getD t.dev.ports.held (fnKey pt 0) []) ∧
          t.fld (.inst i) F.INS_STAT_SAVED = 1 ∧ t.instState i = 2 ∧ Done t h [] ∧ t.dev.mill = s.dev.mill ∧ t.mem = s.mem ∧
          (Room s → Logs t 123 (.inst i) 0 i.val s.time)))) ∧
    (∀ (src : Option (Fin 1024)) (m : ImgRead), RunsNow s h 0x0305 →
      (¬EmptyInst s i → Completes (.insRestore h src m) s fun t => Answered t h stBusy 0 1 [] ∧ t.dev.mill = s.dev.mill ∧ t.instState i = s.instState i ∧
        t.mem = s.mem ∧ (Room s → ∃ a, Logs t 128 (.inst i) 0 a s.time)) ∧
      ∀ (pt : PortId) (a : Nat) (l : List Byte), m.buf = .bus pt a → s.mode pt.g = .h →
      (EmptyInst s i → m.data = none ∨ s.bme pt 0 = false → Completes (.insRestore h src m) s fun t => Answered t h stUnavailable 0 1 [] ∧ t.dev.mill = s.dev.mill ∧
        t.instState i = s.instState i ∧ t.mem = s.mem ∧ (Room s → ∃ a, Logs t 128 (.inst i) 0 a s.time)) ∧
      (EmptyInst s i → s.imageRead m = .ok l → imgOk l = false → Completes (.insRestore h src m) s fun t => Answered t h stInvalid 0 1 [] ∧ t.dev.mill = s.dev.mill ∧
        t.instState i = s.instState i ∧ t.mem = s.mem ∧ (Room s → ∃ a, Logs t 128 (.inst i) 0 a s.time)) ∧
      (EmptyInst s i → s.imageRead m = .ok l → Restorable s src l → Completes (.insRestore h src m) s fun t => t.instState i = 2 ∧ Done t h [] ∧ t.mem = s.mem ∧
        (∀ p ∈ busParts a m.len.toNat, ∃ g, .busRead pt 0 g p.1 p.2 ∈ t.out) ∧
        (∀ r ∈ imgFlows l, ∃ v, t.flow? (imgNum r 0 2) = some v ∧ v.inst = i ∧ v.slot = imgNum r 2 2 ∧ v.fgen = imgNum r 4 1 ∧ v.err = bitOf (imgNum r 5 1) 3 ∧
          v.peerFlow = imgNum r 6 2 ∧ v.sndNxt = imgNum r 40 3 ∧ v.rxB = imgNum r 52 3 ∧ v.hiUna = imgNum r 88 3) ∧
        (∀ r ∈ imgRegions l, ∃ q, Tab.get? t.dev.mill.regions (imgNum r 0 4 / 256) = some q ∧ q.inst = i ∧ q.v = true ∧ q.closing = false ∧ q.pool = false ∧
          q.base = imgNum r 8 8 ∧ q.len = imgNum r 16 8 ∧ t.regionKey (imgNum r 0 4 / 256) = imgNum r 0 4) ∧
        (∀ j < 64, t.fldn (.inst i) F.INS_MBX_H2M_DATA j = imgNum l (256 + 4 * j) 4 ∧ t.fldn (.inst i) F.INS_MBX_M2H_DATA j = imgNum l (512 + 4 * j) 4) ∧
        t.full i true = bitOf (imgNum l 19 1) 0 ∧ t.full i false = bitOf (imgNum l 19 1) 1 ∧ (Room s → Logs t 121 (.inst i) 0 i.val s.time))) ∧
    (RunsNow s h 0x0306 →
      (s.freezing i = true → Completes (.insThaw h) s fun t => Answered t h stBusy 0 1 [] ∧ Replied h (begun s) t) ∧
      (s.instState i = 2 → s.freezing i = false → s.flowsOf i = [] → Completes (.insThaw h) s fun t =>
        Done t h [] ∧ t.instState i = 1 ∧ t.fld (.inst i) F.INS_STAT_SAVED = 0 ∧
        KeepRegs s t (places (.inst i) [F.INS_STAT_STATE, F.INS_STAT_SAVED] ++ answerPlaces h) ∧ t.dev.mill = s.dev.mill ∧ t.mem = s.mem)) ∧
    (RunsNow s h 0x0307 →
      (s.freezing i = true → Completes (.insDiscard h) s fun t => Answered t h stBusy 0 1 [] ∧ Replied h (begun s) t) ∧
      (s.instState i = 2 → s.freezing i = false → Completes (.insDiscard h) s fun t => Done t h [] ∧ t.instState i = 1 ∧ Emptied s t i ∧
        t.fld (.inst i) F.INS_STAT_SAVED = 0 ∧ t.full i true = false ∧ t.full i false = false ∧ t.mem = s.mem ∧ t.hist = s.hist ∧
        ∀ m d k, Out.mill m d k ∉ t.out)) ∧
    (∀ (f : Fin 16384) (sw : Fin 16) (peer : Fin 16384), RunsNow s h 0x0308 →
      (∀ w, s.flow? f.val = some w → w.inst = i → Completes (.flowRepoint h f sw peer) s fun t => Done t h [] ∧
        (∃ v, t.flow? f.val = some v ∧ v.peerSw = sw ∧ v.peerFlow = peer.val ∧ v.sndNxt = w.sndNxt ∧ v.rxB = w.rxB ∧ v.rxRes = w.rxRes ∧ v.pkts = w.pkts) ∧
        (∀ k, k ≠ f.val → t.flow? k = s.flow? k) ∧ t.mem = s.mem) ∧
      (s.flow? f.val = none → Completes (.flowRepoint h f sw peer) s fun t => Answered t h stInvalid 0 1 [] ∧ Replied h (begun s) t)) ∧
    (RunsNow s h 0x0309 →
      (s.instState i = 1 ∨ s.instState i = 2 → Completes (.insReset h) s fun t => ResetBegun s t i ∧
        { hdr := h, opcode := 0x0309, unit := some (.inst i), args := [] } ∈ t.bg ∧ t.mem = s.mem ∧ t.hist = s.hist) ∧
      (s.instState i = 0 → Completes (.insReset h) s fun t => Answered t h stUnavailable 0 1 [] ∧ Replied h (begun s) t) ∧
      (s.instState i = 3 → Completes (.insReset h) s fun t =>
        t = { begun s with bg := s.bg ++ [{ hdr := h, opcode := 0x0309, unit := some (.inst i), args := [] }] }))) ∧
  (∀ (s : State) (i : Fin 1024) (b : Bg),
    (s.freezing i = true → s.drained i = true → Running s 0x0303 (some (.inst i)) b → Completes (.freezeDrainEnd i) s fun t =>
      t.fld (.inst i) F.INS_STAT_DRAINING = 0 ∧ t.instState i = 2 ∧ Done t b.hdr [] ∧
      t.bg = s.bg.filter (fun c => !(c.opcode == 0x0303 && c.unit == some (.inst i))) ∧
      KeepRegs s t (places (.inst i) [F.INS_STAT_DRAINING] ++ answerPlaces b.hdr) ∧ t.dev.mill = s.dev.mill ∧ t.mem = s.mem) ∧
    (s.freezing i = false ∨ s.drained i = false → Completes (.freezeDrainEnd i) s fun t => t = begun s) ∧
    (s.freezing i = true → s.flowsOf i = [] → Running s 0x0303 (some (.inst i)) b → Completes (.freezeDrainTimeout i) s fun t =>
      t.fld (.inst i) F.INS_STAT_DRAINING = 0 ∧ t.instState i = 1 ∧ Answered t b.hdr stBusy 0 1 [] ∧
      (Room s → Logs t 120 (.inst i) 0 i.val s.time) ∧ t.dev.mill = s.dev.mill ∧ t.mem = s.mem) ∧
    (s.freezing i = false → Completes (.freezeDrainTimeout i) s fun t => t = begun s)) ∧
  (∀ (s : State) (i : Fin 1024), s.instState i = 3 → s.flag (.inst i) F.INS_STAT_DRAINING = true →
    ((∀ e ∈ s.dev.ort.entries, e.2.isOpen = true → e.2.info.inst = some i → e.2.info.op.isWrite = false) → Completes (.instanceResetSquash i) s fun t =>
      t.fld (.inst i) F.INS_STAT_DRAINING = 0 ∧
      (∀ k e, Tab.get? s.dev.ort.entries k = some e → e.isOpen = true → e.info.inst = some i →
        ∃ w, Tab.get? t.dev.ort.entries k = some w ∧ w.isOpen = false ∧ w.info.inst = some 0x3FF) ∧
      (∀ q ∈ t.dev.mill.items, q.2.inst ≠ i) ∧ KeepRegs s t (places (.inst i) [F.INS_STAT_DRAINING]) ∧
      t = { begun s with
        regs := t.regs
        dev := { (begun s).dev with
          ort := { s.dev.ort with entries := t.dev.ort.entries }
          mill := { s.dev.mill with items := t.dev.mill.items }
          ports := { s.dev.ports with held := t.dev.ports.held, squashed := t.dev.ports.squashed } } }) ∧
    (∀ k e, Tab.get? s.dev.ort.entries k = some e → (s.dev.ort.entries.filter fun e => e.2.isOpen && e.2.info.inst == some i) = [(k, e)] →
      e.info.op.isWrite = true → s.psnLines (e.info.addr / 64 / 32768) + 1 ≤ s.fld .root F.DEV_PL_CTL_MAXL →
      (∃ q ∈ psnWindow (e.info.addr / 64 / 32768), Tab.has s.dev.rsv.poison q = false) → Completes (.instanceResetSquash i) s fun t =>
        t.linePoisoned (e.info.addr / 64) = true ∧ (∃ w, Tab.get? t.dev.ort.entries k = some w ∧ w.isOpen = false ∧ w.gen = (e.gen + 1) % 16) ∧ t.mem = s.mem)) ∧
  (∀ (s : State) (i : Fin 1024), s.instState i = 3 → s.flag (.inst i) F.INS_STAT_DRAINING = false → Completes (.instanceResetComplete i) s fun t =>
    t.instState i = (if s.instEnabled i = true then 1 else 0) ∧ Emptied s t i ∧
    (∀ pt fn, s.instPort i = some (pt, fn) → fn < 128 → Tab.get? t.dev.ports.held (fnKey pt fn) = none ∧ fnKey pt fn ∉ t.dev.ports.vfBme) ∧
    (∀ b ∈ s.bg, b.opcode = 0x0309 → b.unit = some (.inst i) → Done t b.hdr []) ∧
    (∀ k r h, Tab.get? s.dev.mill.regions k = some r → r.v = true → r.inst = i → r.hdr = some h → Done t h []) ∧
    (Room s → Logs t 122 (.inst i) 0 (Tab.getD s.dev.ports.squashed i.val 0 * 2 ^ 32 + s.instFlows i) s.time) ∧ t.mem = s.mem)

/-! ### Groups, host ports and module ports (spec 09) -/

/-- R269-R271, R279, R289: a change of a group's mode or width is refused with its first reason and EV115, or clears the U fields of its ports and waits
for the PHY domain to be off; then the new mode takes effect, and with the domain on again the change ends with EV114 and training begins. PRT_HCFG
and PRT_MCFG take a write, or refuse one with EV115. The model's choices and readings that this rests on: log entries 16, 90, 115. -/
def Obligations.GroupsAndPortConfiguration : Prop :=
  (∀ (s : State) (m : Master) (g : Fin 64) (v : BitVec 32), Writable s (.group g) .GRP_CFG 0 →
    (Mode.ofNum (v.toNat % 4) = s.mode g → bitOf v.toNat 2 = s.split g → s.flag (.group g) F.GRP_STAT_CHG = false → Completes (.groupModeChange m g v) s fun t =>
      t.fld (.group g) F.GRP_CFG_MODE = v.toNat % 4 ∧ t.fld (.group g) F.GRP_CFG_SPLIT = v.toNat / 4 % 2 ∧
      KeepRegs s t (places (.group g) [F.GRP_CFG_MODE, F.GRP_CFG_SPLIT]) ∧ OnlyRegs (writing m s) t) ∧
    (Mode.ofNum (v.toNat % 4) ≠ s.mode g ∨ bitOf v.toNat 2 ≠ s.split g ∨ s.flag (.group g) F.GRP_STAT_CHG = true →
      (∀ n, s.groupRefuse g (Mode.ofNum (v.toNat % 4)) (bitOf v.toNat 2) false = some n → Completes (.groupModeChange m g v) s fun t => ∃ r,
        r.fld (.group g) F.GRP_STAT_REFUSE = n ∧ KeepRegs s r (places (.group g) [F.GRP_STAT_REFUSE]) ∧ OnlyRegs (writing m s) r ∧
        Notes (.group g) r t ∧ (Room s → Logs t 115 (.group g) 0 n s.time)) ∧
      (s.groupRefuse g (Mode.ofNum (v.toNat % 4)) (bitOf v.toNat 2) false = none → s.fabState g = 0 → Completes (.groupModeChange m g v) s fun t =>
        t.fld (.group g) F.GRP_CFG_MODE = v.toNat % 4 ∧ t.fld (.group g) F.GRP_CFG_SPLIT = v.toNat / 4 % 2 ∧ t.fld (.group g) F.GRP_STAT_CHG = 1 ∧
        (∀ k, groupCleared g k → Tab.get? t.regs k = none) ∧
        (∀ k, ¬groupCleared g k → k ∉ places (.group g) [F.GRP_CFG_MODE, F.GRP_CFG_SPLIT, F.GRP_STAT_CHG] → Tab.get? t.regs k = Tab.get? s.regs k) ∧
        t = { writing m s with
          regs := t.regs
          dev := { (writing m s).dev with ports := { s.dev.ports with grpStep := Tab.put s.dev.ports.grpStep g.val 1 } } }))) ∧
  (∀ (s : State) (g : Fin 64),
    (s.grpStep g = 1 → Completes (.groupPhyOffDone g) s fun t =>
      t.fld (.group g) F.GRP_STAT_CUR_MODE = s.fld (.group g) F.GRP_CFG_MODE % 4 ∧ t.fld (.group g) F.GRP_STAT_CUR_SPLIT = s.fld (.group g) F.GRP_CFG_SPLIT % 2 ∧
      bitOf (t.fld .root F.DEV_PD_STAT_GRP_ON) g.val = false ∧ t.fld (.group g) F.GRP_PWR_STATE = 0 ∧
      (s.fld (.group g) F.GRP_CFG_MODE = 0 → t.fld (.group g) F.GRP_STAT_CHG = 0 ∧ Tab.get? t.dev.ports.grpStep g.val = none ∧
        (Room s → Logs t 114 (.group g) 0 0 s.time)) ∧
      (s.fld (.group g) F.GRP_CFG_MODE ≠ 0 → t.fld (.group g) F.GRP_STAT_CHG = s.fld (.group g) F.GRP_STAT_CHG ∧ Tab.get? t.dev.ports.grpStep g.val = some 2 ∧
        t.hist = s.hist) ∧ t.mem = s.mem) ∧
    (s.grpStep g = 4 → Completes (.groupPhyOffDone g) s fun t => t.fld (.group g) F.GRP_STAT_CHG = 0 ∧ bitOf (t.fld .root F.DEV_PD_STAT_GRP_ON) g.val = false ∧
      Tab.get? t.dev.ports.grpStep g.val = none ∧ t.mode g = s.mode g ∧ t.hist = s.hist ∧ t.mem = s.mem) ∧
    (s.grpStep g ≠ 1 → s.grpStep g ≠ 4 → Completes (.groupPhyOffDone g) s fun t => t = begun s) ∧
    (s.grpStep g = 2 ∨ s.grpStep g = 3 → Completes (.groupPowerUpDone g) s fun t =>
      bitOf (t.fld .root F.DEV_PD_STAT_GRP_ON) g.val = true ∧ t.fld (.group g) F.GRP_STAT_CHG = 0 ∧ Tab.get? t.dev.ports.grpStep g.val = none ∧
      (s.grpStep g = 2 → Room s → Logs t 114 (.group g) 0 0 s.time) ∧ (s.grpStep g = 3 → Room s → Logs t 183 .root 0 g.val s.time) ∧
      (s.mode g = .f → s.fabState g = 0 → s.flag (.group g) F.GRP_LTEST_BUSY = false → s.isContained ⟨g, 0⟩ = false → s.isFenced (.group g) = false →
        s.dev.ws.safe = false → t.fabState g = 1) ∧ t.mem = s.mem) ∧
    (s.grpStep g ≠ 2 → s.grpStep g ≠ 3 → Completes (.groupPowerUpDone g) s fun t => t = begun s)) ∧
  (∀ (s : State) (m : Master) (pt : PortId) (v : BitVec 32), Writable s (.port pt) .PRT_HCFG 0 →
    (s.fld (.port pt) F.PRT_HSTAT_LSTATE = 0 → F.PRT_HCFG_INST_BASE.part v.toNat + min 64 (F.PRT_HCFG_NUM_VFS.part v.toNat) ≤ 1024 →
      (∀ q ∈ s.portsIn .h, q ≠ pt → instsMeet (F.PRT_HCFG_INST_BASE.part v.toNat) (min 64 (F.PRT_HCFG_NUM_VFS.part v.toNat))
        (s.fld (.port q) F.PRT_HCFG_INST_BASE) (s.fld (.port q) F.PRT_HCFG_NUM_VFS) = false) →
      F.PRT_HCFG_MAXRATE.part v.toNat ≠ 0 → F.PRT_HCFG_MAXRATE.part v.toNat ≠ 7 → Completes (.hostPortConfigWrite m pt v) s fun t =>
        (∀ f ∈ (regSpec .port .PRT_HCFG).fields, t.fld (.port pt) f = f.bring (f.part v.toNat)) ∧
        KeepRegs s t (places (.port pt) (regSpec .port .PRT_HCFG).fields) ∧ OnlyRegs (writing m s) t) ∧
    (s.fld (.port pt) F.PRT_HSTAT_LSTATE ≠ 0 ∨ 1024 < F.PRT_HCFG_INST_BASE.part v.toNat + min 64 (F.PRT_HCFG_NUM_VFS.part v.toNat) ∨
        (∃ q ∈ s.portsIn .h, q ≠ pt ∧ instsMeet (F.PRT_HCFG_INST_BASE.part v.toNat) (min 64 (F.PRT_HCFG_NUM_VFS.part v.toNat))
          (s.fld (.port q) F.PRT_HCFG_INST_BASE) (s.fld (.port q) F.PRT_HCFG_NUM_VFS) = true) →
      Completes (.hostPortConfigWrite m pt v) s fun t => Notes (.port pt) (writing m s) t ∧ (Room s → Logs t 115 (s.domainOf (.port pt)) 0 0 s.time))) ∧
  (∀ (s : State) (m : Master) (pt : PortId) (v : BitVec 32) (k : Fin 64), Writable s (.port pt) .PRT_MCFG 0 → k.val = v.toNat % 64 →
    (s.slotTaken pt k = false →
      s.isBound pt = some k ∨ ((∀ j, s.isBound pt = some j → s.slotOff j = true) ∧ s.slotOff k = true) →
      F.PRT_MCFG_MAXRATE.part v.toNat ≠ 0 → F.PRT_MCFG_MAXRATE.part v.toNat ≠ 7 → Completes (.modulePortConfigWrite m pt v) s fun t =>
        (∀ f ∈ (regSpec .port .PRT_MCFG).fields, t.fld (.port pt) f = f.bring (f.part v.toNat)) ∧
        KeepRegs s t (places (.port pt) (regSpec .port .PRT_MCFG).fields) ∧
        t = { writing m s with
          regs := t.regs
          dev := { (writing m s).dev with ports := { s.dev.ports with
            bound := s.dev.ports.bound.filter (fun n => n != pt.ix) ++ [pt.ix] } } }) ∧
    (s.slotTaken pt k = true ∨ (∃ j, s.isBound pt = some j ∧ j ≠ k ∧ s.slotOff j = false) ∨
        (s.isBound pt ≠ some k ∧ s.slotOff k = false) →
      Completes (.modulePortConfigWrite m pt v) s fun t => Notes (.port pt) (writing m s) t ∧ (Room s → Logs t 115 (s.domainOf (.port pt)) 0 k.val s.time)))

/-- R273-R276, R280, R283-R287: a host's decoder commit under R41's checks, its decommit, what a decoder shows, CDAT and the mailbox's answers; a link
that trains serves CXL.mem from 8 GT/s on in flit mode, with EV106, else CXL.io with EV108. Clearing Bus Master Enable logs EV104; setting it sends
what was held in order and the pending vectors; the hold limit opens the fault of EV105. A port reset empties the port; it ends with DOWN or training;
PERST_L is kept as a pin and releases, as a link does that its host had disabled; configuration requests are answered with the identity and BAR0. The
model's choices and readings that this rests on: log entries 16, 78, 82, 93, 94, 116, 135, 136, 137. -/
def Obligations.HostFace : Prop :=
  (∀ (s : State) (pt : PortId) (n : Fin 16) (base : BitVec 52) (size : BitVec 53) (ways : Fin 17), s.portExists pt = true → s.mode pt.g = .h →
    (s.flag (.port pt) F.PRT_HCFG_HDM_OWN = false → Completes (.hdmDecoderCommit pt n base size ways) s (fun t => t = begun s) ∧
      Completes (.hdmDecoderDecommit pt n) s fun t => t = begun s) ∧
    (s.flag (.port pt) F.PRT_HCFG_HDM_OWN = true →
      (s.winEn pt n.val = false → s.fldn (.port pt) F.PRT_WIN_CTL_LOCK n.val = 0 → size.toNat = s.winSize pt n.val → ways.val = 1 → base.toNat % 2 ^ 28 = 0 →
        (((Prog.setn (.port pt) F.PRT_WIN_BASE_BASE_HI n.val (base.toNat / 2 ^ 28)).run s).winOk pt n.val (s.fldn (.port pt) F.PRT_WIN_CTL_WTYPE n.val) = true →
          Completes (.hdmDecoderCommit pt n base size ways) s fun t =>
            t.fldn (.port pt) F.PRT_WIN_BASE_BASE_HI n.val = base.toNat / 2 ^ 28 ∧ t.fldn (.port pt) F.PRT_WIN_CTL_EN n.val = 1 ∧
            KeepRegs s t [fkey (.port pt) F.PRT_WIN_BASE_BASE_HI n.val, fkey (.port pt) F.PRT_WIN_CTL_EN n.val] ∧
            t.cxlKept pt (.hdm n.val 5) = 0 ∧ t = { begun s with
              regs := t.regs
              out := [.hdm pt n.val true]
              dev := { (begun s).dev with ports := { s.dev.ports with cxl := t.dev.ports.cxl } } }) ∧
        (((Prog.setn (.port pt) F.PRT_WIN_BASE_BASE_HI n.val (base.toNat / 2 ^ 28)).run s).winOk pt n.val (s.fldn (.port pt) F.PRT_WIN_CTL_WTYPE n.val) = false →
          Completes (.hdmDecoderCommit pt n base size ways) s fun t => t.winEn pt n.val = false ∧ t.out = [.hdm pt n.val false] ∧
            t.cxlKept pt (.hdm n.val 5) = 1 ∧ (Room s → Logs t 109 (s.domainOf (.port pt)) 0 n.val s.time) ∧ t.mem = s.mem)) ∧
      (size.toNat ≠ s.winSize pt n.val ∨ ways.val ≠ 1 → Completes (.hdmDecoderCommit pt n base size ways) s fun t =>
        (∃ r, r = { begun s with
            out := [.hdm pt n.val false]
            dev := { (begun s).dev with ports := { s.dev.ports with cxl := r.dev.ports.cxl } } } ∧
          r.cxlKept pt (.hdm n.val 5) = 1 ∧ Notes (.port pt) r t) ∧ (Room s → Logs t 109 (s.domainOf (.port pt)) 0 n.val s.time)) ∧
      (size.toNat = s.winSize pt n.val → ways.val = 1 → base.toNat % 2 ^ 28 = 0 → s.winEn pt n.val = true ∨ s.fldn (.port pt) F.PRT_WIN_CTL_LOCK n.val = 1 →
        Completes (.hdmDecoderCommit pt n base size ways) s fun t => t.winEn pt n.val = s.winEn pt n.val ∧ t.winBase pt n.val = s.winBase pt n.val ∧
          t.out = [.hdm pt n.val (s.winEn pt n.val)] ∧ (Room s → Logs t 40 (s.domainOf (.port pt)) 0 n.val s.time) ∧ t.mem = s.mem) ∧
      (s.fldn (.port pt) F.PRT_WIN_CTL_LOCK n.val = 1 → Completes (.hdmDecoderDecommit pt n) s fun t => t.winEn pt n.val = s.winEn pt n.val ∧
        t.out = [.hdm pt n.val (s.winEn pt n.val)] ∧ (Room s → Logs t 40 (s.domainOf (.port pt)) 0 n.val s.time) ∧ t.mem = s.mem) ∧
      (s.fldn (.port pt) F.PRT_WIN_CTL_LOCK n.val = 0 → Completes (.hdmDecoderDecommit pt n) s fun t => t.fldn (.port pt) F.PRT_WIN_CTL_EN n.val = 0 ∧
        KeepRegs s t [fkey (.port pt) F.PRT_WIN_CTL_EN n.val] ∧ t = { begun s with
          regs := t.regs
          out := [.hdm pt n.val false]
          dev := { (begun s).dev with ports := { s.dev.ports with cxl := t.dev.ports.cxl } } }))) ∧
  (∀ (s : State) (pt : PortId) (n : Fin 16), s.flag (.port pt) F.PRT_HCFG_HDM_OWN = false →
    s.cxlWord pt (.hdm n.val 4) = some (s.hdmControl pt n.val) ∧
    bitOf (s.hdmControl pt n.val) 12 = decide (s.fldn (.port pt) F.PRT_WIN_CTL_WTYPE n.val ≠ 2) ∧
    (s.winEn pt n.val = true → bitOf (s.hdmControl pt n.val) 8 = true ∧ bitOf (s.hdmControl pt n.val) 10 = true ∧
      s.cxlWord pt (.hdm n.val 0) = some (s.winBase pt n.val % 2 ^ 32) ∧ s.cxlWord pt (.hdm n.val 1) = some (s.winBase pt n.val / 2 ^ 32) ∧
      s.cxlWord pt (.hdm n.val 2) = some (s.winSize pt n.val % 2 ^ 32) ∧ s.cxlWord pt (.hdm n.val 3) = some (s.winSize pt n.val / 2 ^ 32)) ∧
    (s.winEn pt n.val = false → bitOf (s.hdmControl pt n.val) 10 = false)) ∧
  (∀ (s : State) (pt : PortId), s.hostUp pt = true →
    Completes (.cdatRead pt) s (fun t => t = { s with out := [.cdat pt ((s.sizedWins pt).map fun n => (n, s.winSize pt n, 96, 81, Config.cdatBandwidth))] }) ∧
    (∀ i ∈ [Instr.identifyMemoryDevice pt, Instr.getPartitionInfo pt], Completes i s fun t =>
      t = { s with out := [.cxlReply pt true [((s.sizedWins pt).map fun n => s.winSize pt n).sum, 0]] }) ∧
    Completes (.getSupportedLogs pt) s (fun t => t = { s with out := [.cxlReply pt true [1, 32]] }) ∧
    Completes (.getLog pt true) s (fun t => t = { s with out := [.cxlReply pt true [0x0100, 0x0101, 0x0400, 0x0401, 0x4000, 0x4100, 0x4200, 0x4300]] }) ∧
    Completes (.getLog pt false) s (fun t => t = { s with out := [.cxlReply pt false []] }) ∧
    Completes (.getEventRecords pt) s (fun t => t = { s with out := [.cxlReply pt true ((Tab.getD s.dev.ports.records pt.ix []).flatMap fun r => [r.1, r.2.1, r.2.2])] }) ∧
    (∀ l, Completes (.clearEventRecords pt l) s fun t => Tab.getD t.dev.ports.records pt.ix [] = (Tab.getD s.dev.ports.records pt.ix []).filter (fun r => !l.contains r.1) ∧
      t = { s with
        out := [.cxlReply pt true []]
        dev := { s.dev with ports := { s.dev.ports with records := t.dev.ports.records } } }) ∧
    Completes (.getHealthInfo pt) s (fun t => t = { s with out := [.cxlReply pt true [s.summaryLevel .root]] }) ∧
    Completes (.getPoisonList pt) s (fun t => t = { s with out := [.cxlReply pt true (s.poisonList pt)] })) ∧
  (∀ (s : State) (pt : PortId) (cxl : Bool) (rate : Fin 7) (width : Fin 9) (flit : Fin 3) (tx : List LaneTx) (rx : List LaneRx),
    (s.hMayTrain pt = true → s.fld (.port pt) F.PRT_HSTAT_LSTATE ≤ 1 → ∀ mem : Bool, mem = (cxl && decide (3 ≤ min rate.val (s.fld (.port pt) F.PRT_HCFG_MAXRATE)) && flit.val != 0) →
      Completes (.hostLinkUp pt cxl rate width flit tx rx) s fun t =>
        t.fld (.port pt) F.PRT_HSTAT_RATE = min rate.val (s.fld (.port pt) F.PRT_HCFG_MAXRATE) ∧
        t.fld (.port pt) F.PRT_HSTAT_WIDTH = (if s.split pt.g = true then min 4 width.val else width.val) ∧ t.fld (.port pt) F.PRT_HSTAT_FLIT = flit.val ∧
        t.fld (.port pt) F.PRT_HSTAT_LSTATE = (if mem then 3 else 2) ∧ t.fld (.port pt) F.PRT_HSTAT_MEM_EN = b2n mem ∧ t.xDown pt.x = false ∧
        (Room s → Logs t (if mem then 106 else 108) (s.domainOf (.port pt)) 0 0 s.time) ∧ t.mem = s.mem) ∧
    (s.hMayTrain pt = false ∨ 1 < s.fld (.port pt) F.PRT_HSTAT_LSTATE → Completes (.hostLinkUp pt cxl rate width flit tx rx) s fun t => t = begun s)) ∧
  (∀ (s : State) (pt : PortId) (fn : Fin 65), s.portExists pt = true → s.mode pt.g = .h →
    (s.ownBme pt fn.val = true → Completes (.bmeClear pt fn) s fun t => ∃ r, r.ownBme pt fn.val = false ∧
      KeepRegs s r (if fn = 0 then places (.port pt) [F.PRT_HSTAT_BME] else []) ∧
      r = { begun s with
        regs := r.regs
        dev := { (begun s).dev with ports := { s.dev.ports with vfBme := r.dev.ports.vfBme } } } ∧
      Notes (.port pt) r t ∧ (Room s → Logs t 104 (s.domainOf (.port pt)) 0 fn.val s.time)) ∧
    (s.ownBme pt fn.val = false → Completes (.bmeClear pt fn) s fun t => t = begun s) ∧
    (s.dev.mill.items = [] → s.ringOn pt = false → Completes (.bmeSet pt fn) s fun t => t.ownBme pt fn.val = true ∧ t.mem = s.mem ∧ t.hist = s.hist ∧
      (fn ≠ 0 → s.flag (.port pt) F.PRT_HSTAT_BME = true → (∀ i, s.vfInst pt fn.val = some i → s.instState i ≠ 3) → (∃ more, t.out = heldOf s pt fn.val ++ more) ∧ Tab.get? t.dev.ports.held (fnKey pt fn.val) = none ∧
        ∀ vec < 2048, msixKey pt fn.val vec 0 ∈ s.dev.ports.msixPend → s.msixWord pt fn.val vec 3 % 2 = 0 →
          Sent t (.msix pt fn.val vec (s.msixWord pt fn.val vec 0 + s.msixWord pt fn.val vec 1 * 2 ^ 32) (s.msixWord pt fn.val vec 2)) ∧
          msixKey pt fn.val vec 0 ∉ t.dev.ports.msixPend) ∧
      (fn = 0 → ∀ k, k ≤ s.fld (.port pt) F.PRT_HCFG_NUM_VFS → k = 0 ∨ fnKey pt k ∈ s.dev.ports.vfBme → (∀ i, s.vfInst pt k = some i → s.instState i ≠ 3) → ∀ o ∈ heldOf s pt k, o ∈ t.out)) ∧
    (s.ownBme pt fn.val = false → s.dev.mill.items = [] → FirstOf s (s.domainOf (.port pt)) 3 →
      (s.dev.mill.flows = [] → Completes (.bmeHoldExpiry pt fn) s fun t => Opens t (s.domainOf (.port pt)) 3 (.port pt) ∧ t.mem = s.mem ∧
        (Room s → s.dev.mill.eqs = [] → Logs t 105 (s.domainOf (.port pt)) 1 fn.val s.time)) ∧
      (∀ f w, s.dev.mill.flows = [(f, w)] → w.err = false → w.inst ∈ s.portInsts pt → (∃ k, s.instPort w.inst = some (pt, k) ∧ (fn = 0 ∨ k = fn.val)) →
        Completes (.bmeHoldExpiry pt fn) s fun t => EntersError t f w ∧ Opens t (s.domainOf (.port pt)) 3 (.port pt) ∧ t.mem = s.mem)) ∧
    (s.ownBme pt fn.val = true → Completes (.bmeHoldExpiry pt fn) s fun t => t = begun s)) ∧
  (∀ (s : State) (pt : PortId), s.mode pt.g = .h → s.dev.coh.busy = [] →
    (∀ c, c = PortResetCause.hotReset ∨ c = .linkDisable ∨ c = .linkDown → s.portExists pt = true → s.fld (.port pt) F.PRT_HSTAT_LSTATE ≠ 4 →
      Completes (.portReset pt c) s fun t => PortWasReset s t pt ∧ t.fld (.port pt) F.PRT_HSTAT_PERST = s.fld (.port pt) F.PRT_HSTAT_PERST % 2 ∧
        (c = .linkDisable → pt.ix ∈ t.dev.ports.linkDis) ∧ (Space s → Logs t 107 (s.domainOf (.port pt)) 0 0 s.time) ∧ t.mem = s.mem) ∧
    ((∀ q ∈ s.portsOf pt.g, s.fld (.port q) F.PRT_HSTAT_LSTATE ≠ 4) → (∀ b ∈ s.bg, b.opcode ≠ 0x0303) → Completes (.portReset pt .perst) s fun t =>
      (∀ q ∈ s.portsOf pt.g, PortWasReset s t q ∧ t.fld (.port q) F.PRT_HSTAT_PERST = 1) ∧ pt.g.val ∈ t.dev.pwr.perstLow ∧ t.mem = s.mem)) ∧
  (∀ (s : State) (pt : PortId) (c : PortResetCause), s.mode pt.g ≠ .h →
    (c ≠ .perst → Completes (.portReset pt c) s fun t => t = begun s) ∧
    (c = .perst → Completes (.portReset pt c) s fun t => pt.g.val ∈ t.dev.pwr.perstLow ∧
      t = { begun s with dev := { (begun s).dev with pwr := { s.dev.pwr with perstLow := t.dev.pwr.perstLow } } })) ∧
  (∀ (s : State) (pt : PortId), s.fld (.port pt) F.PRT_HSTAT_LSTATE = 4 →
    (∀ h, s.hostOf s.swid pt = some h → bitOf (s.fld .root F.DEV_COH_LOST_LOST) h.val = false) → (∀ i ∈ s.portInsts pt, s.instState i ≠ 3) →
    Completes (.portResetComplete pt) s fun t => t.fld (.port pt) F.PRT_HSTAT_LSTATE = (if t.hMayTrain pt = true then 1 else 0) ∧
      Tab.get? t.dev.ports.rrs pt.ix = some (s.time + 100000000) ∧ KeepRegs s t (places (.port pt) [F.PRT_HSTAT_LSTATE]) ∧
      t = { begun s with
        regs := t.regs
        dev := { (begun s).dev with ports := { s.dev.ports with rrs := t.dev.ports.rrs } } }) ∧
  (∀ (s : State) (pt : PortId), s.fld (.port pt) F.PRT_HSTAT_LSTATE ≠ 4 ∨ (∃ i ∈ s.portInsts pt, s.instState i = 3) →
    Completes (.portResetComplete pt) s fun t => t = begun s) ∧
  (∀ (s : State) (g : Fin 64), s.mode g = .h → Completes (.perstRelease (.perst g)) s fun t => g.val ∉ t.dev.pwr.perstLow ∧
    (∀ q ∈ s.portsOf g, s.flag (.port q) F.PRT_HSTAT_PERST = true → t.fld (.port q) F.PRT_HSTAT_PERST = 0 ∧
      Tab.get? t.dev.ports.rrs q.ix = some (s.time + 100000000) ∧
      (s.fld (.port q) F.PRT_HSTAT_LSTATE ≠ 0 → t.fld (.port q) F.PRT_HSTAT_LSTATE = s.fld (.port q) F.PRT_HSTAT_LSTATE) ∧
      (s.fld (.port q) F.PRT_HSTAT_LSTATE = 0 → t.fld (.port q) F.PRT_HSTAT_LSTATE = if t.hMayTrain q = true then 1 else 0)) ∧
    KeepRegs s t ((s.portsOf g).flatMap fun q => places (.port q) [F.PRT_HSTAT_PERST, F.PRT_HSTAT_LSTATE]) ∧
    t = { begun s with
      regs := t.regs
      dev := { (begun s).dev with
        ports := { s.dev.ports with rrs := t.dev.ports.rrs }
        pwr := { s.dev.pwr with perstLow := t.dev.pwr.perstLow } } }) ∧
  (∀ (s : State) (g : Fin 64), s.mode g ≠ .h → Completes (.perstRelease (.perst g)) s fun t => g.val ∉ t.dev.pwr.perstLow ∧
    t = { begun s with dev := { (begun s).dev with pwr := { s.dev.pwr with perstLow := t.dev.pwr.perstLow } } }) ∧
  (∀ (s : State) (pt : PortId), s.mode pt.g = .h → pt.ix ∈ s.dev.ports.linkDis → Completes (.perstRelease (.link pt)) s fun t =>
    pt.ix ∉ t.dev.ports.linkDis ∧ Tab.get? t.dev.ports.rrs pt.ix = some (s.time + 100000000) ∧
    (s.fld (.port pt) F.PRT_HSTAT_LSTATE = 0 → t.fld (.port pt) F.PRT_HSTAT_LSTATE = if t.hMayTrain pt = true then 1 else 0) ∧
    KeepRegs s t (places (.port pt) [F.PRT_HSTAT_LSTATE]) ∧
    t = { begun s with
      regs := t.regs
      dev := { (begun s).dev with ports := { s.dev.ports with
        rrs := t.dev.ports.rrs
        linkDis := t.dev.ports.linkDis } } }) ∧
  (∀ (s : State) (pt : PortId) (fn : Fin 65) (off : BitVec 12), s.hostUp pt = true → Completes (.configurationRequest pt fn off none) s fun t =>
    ∃ retry word, t = { s with
        fresh := s.fresh + 1
        out := [.cfgReply pt fn.val retry word] } ∧
      (Tab.getD s.dev.ports.rrs pt.ix 0 ≤ s.time → retry = false) ∧ (retry = true → word = 0) ∧
      (retry = false → off = 0 → word.toNat / 2 ^ 16 = (if fn = 0 then 0x5120 else 0x5121) ∧ word.toNat % 2 ^ 16 = s.identWord .root 13 % 2 ^ 16) ∧
      (retry = false → off = 8 → fn = 0 → word.toNat / 2 ^ 8 = 0x050210) ∧
      (retry = false → off = 0x10 → fn = 0 → word.toNat % 2 ^ 4 = 4)) ∧
  (∀ (s : State) (pt : PortId) (fn : Fin 65) (off : BitVec 12) (v : BitVec 32), s.hostUp pt = true → Completes (.configurationRequest pt fn off (some v)) s fun t =>
    ∃ retry, t = { s with
        fresh := s.fresh + 1
        out := [.cfgReply pt fn.val retry 0]
        dev := { s.dev with ports := { s.dev.ports with cfg := t.dev.ports.cfg } } } ∧
      (Tab.getD s.dev.ports.rrs pt.ix 0 ≤ s.time → retry = false) ∧
      (retry = false → off = 0x10 → fn = 0 → t.configWord pt 0 0x10 0 = v.toNat / 2 ^ 29 * 2 ^ 29 + 4) ∧
      (retry = false → off = 0x14 → fn = 0 → t.configWord pt 0 0x14 0 = v.toNat))

/-- R273, R290-R292, R424: a module is enumerated step by step, from its slot's power-good while no reset runs, with decoder 0 committed for the module's
capacity, to READY with its capacity and EV110, or to FAIL with the code and the fault of EV111. Its event records are relayed with EV112; a fatal
error or a link that goes down takes the port out of service, and its mailbox serves one MOD_MBOX at a time. The model's choices and readings that
this rests on: log entries 3, 16, 91, 92, 148. -/
def Obligations.Modules : Prop :=
  (∀ (s : State) (pt : PortId), s.dev.pwr.phase = .run → s.portExists pt = true → s.mode pt.g = .m → s.grpClocked pt.g = true → s.refOk pt.g = true → s.mEn pt = true →
    s.flag (.slot (s.mslot pt)) F.SLT_STAT_PG = true → s.fld (.port pt) F.PRT_MSTAT_STATE = 0 ∨ s.fld (.port pt) F.PRT_MSTAT_STATE = 4 →
    s.isContained pt = false → s.isFenced (.slot (s.mslot pt)) = false → s.dev.ws.safe = false → s.enumStep pt = 0 →
    Completes (.moduleEnumerationStart pt) s fun t => t.fld (.port pt) F.PRT_MSTAT_STATE = 1 ∧ t.fld (.port pt) F.PRT_MSTAT_FAIL_CODE = 0 ∧ t.enumStep pt = 1 ∧
      KeepRegs s t (places (.port pt) [F.PRT_MSTAT_STATE, F.PRT_MSTAT_FAIL_CODE]) ∧
      t = { begun s with
        regs := t.regs
        dev := { (begun s).dev with ports := { s.dev.ports with enumStep := t.dev.ports.enumStep } } }) ∧
  (∀ (s : State) (pt : PortId), s.mode pt.g ≠ .m ∨ s.mEn pt = false ∨ s.flag (.slot (s.mslot pt)) F.SLT_STAT_PG = false →
    Completes (.moduleEnumerationStart pt) s fun t => t = begun s) ∧
  (∀ (s : State) (pt : PortId) (l : LinkCxl) (rate : Fin 7) (width : Fin 9) (ok : Bool) (tx : List LaneTx) (rx : List LaneRx),
    (s.enumStep pt ≠ 1 → Completes (.moduleLinkTrained pt l rate width ok tx rx) s fun t => t = begun s) ∧
    (s.enumStep pt = 1 →
      (l = ⟨true, true⟩ → 3 ≤ min rate.val (s.fld (.port pt) F.PRT_MCFG_MAXRATE) → ok = true → (∀ ln ∈ s.lanesOf pt, Told s ln) → Completes (.moduleLinkTrained pt l rate width ok tx rx) s fun t =>
        t.fld (.port pt) F.PRT_MSTAT_STATE = 2 ∧ t.fld (.port pt) F.PRT_MSTAT_RATE = min rate.val (s.fld (.port pt) F.PRT_MCFG_MAXRATE) ∧
        t.fld (.port pt) F.PRT_MSTAT_WIDTH = (if s.split pt.g = true then min 4 width.val else width.val) ∧ t.enumStep pt = 3 ∧ t.xDown pt.x = false ∧
        t.out = [.moduleCfg pt .bmeOff] ∧ t.hist = s.hist ∧ t.mem = s.mem) ∧
      (FirstOf s (s.domainOf (.port pt)) 4 → l = ⟨true, true⟩ → 3 ≤ min rate.val (s.fld (.port pt) F.PRT_MCFG_MAXRATE) → ok = false →
        Completes (.moduleLinkTrained pt l rate width ok tx rx) s fun t => EnumFails s t pt 1) ∧
      (FirstOf s (s.domainOf (.port pt)) 4 → l.cxl = false ∨ l.flit = false ∨ min rate.val (s.fld (.port pt) F.PRT_MCFG_MAXRATE) < 3 →
        Completes (.moduleLinkTrained pt l rate width ok tx rx) s fun t => EnumFails s t pt 2 ∧
          (Space s → Logs t 108 (s.domainOf (.port pt)) 0 0 s.time)))) ∧
  (∀ (s : State) (pt : PortId),
    (s.enumStep pt = 3 → MboxRoom s pt 2 → Completes (.memoryActive pt) s fun t => ∃ r, r.enumStep pt = 4 ∧ MboxAsks s r pt 2 ∧ r = { begun s with
      out := [.moduleCmd pt 0x4000 [], .moduleCmd pt 0x4100 []]
      dev := { (begun s).dev with
        ort := r.dev.ort
        ports := { s.dev.ports with enumStep := r.dev.ports.enumStep } } } ∧ Notes (XPort.int 7).unit r t) ∧
    (s.enumStep pt = 3 → s.ingressFree (XPort.int 7) .iotx = false → Completes (.memoryActive pt) s fun t => t.enumStep pt = 4 ∧ t.dev.ort = s.dev.ort ∧
      Tab.getD t.dev.flood.waiting (qKey (XPort.int 7) .iotx) [] =
        Tab.getD s.dev.flood.waiting (qKey (XPort.int 7) .iotx) [] ++ [.mbox pt 0x4000 [], .mbox pt 0x4100 []] ∧ t.out = [] ∧ t.regs = s.regs ∧ t.mem = s.mem) ∧
    (s.enumStep pt ≠ 3 → Completes (.memoryActive pt) s fun t => t = begun s) ∧
    (∀ code, (s.enumStep pt = 1 ∧ code = 2) ∨ (s.enumStep pt = 3 ∧ code = 7) ∨ (s.enumStep pt = 4 ∧ code = 3) → FirstOf s (s.domainOf (.port pt)) 4 →
      Completes (.enumerationTimeout pt) s fun t => EnumFails s t pt code) ∧
    (s.enumStep pt ∉ [1, 3, 4] → Completes (.enumerationTimeout pt) s fun t => t = begun s)) ∧
  (∀ (s : State) (pt : PortId) (cap : BitVec 64) (commit : Bool) (data : List Nat),
    (s.enumStep pt = 4 →
      (2 ^ 28 ≤ cap.toNat → commit = true → Completes (.moduleMailboxResponse pt cap commit data) s fun t => ∃ f r, MboxFreed s f pt ∧
        r.fld (.port pt) F.PRT_MSTAT_STATE = 3 ∧ r.fld (.port pt) F.PRT_MSTAT_CAP_X = min (2 ^ 42) (cap.toNat / 2 ^ 28 * 2 ^ 28) / 2 ^ 21 ∧ r.enumStep pt = 0 ∧
        KeepRegs s r (places (.port pt) [F.PRT_MSTAT_STATE, F.PRT_MSTAT_CAP_X]) ∧
        r = { f with
          regs := r.regs
          out := [.moduleHdm pt (min (2 ^ 42) (cap.toNat / 2 ^ 28 * 2 ^ 28)), .moduleCfg pt .memOn, .moduleCfg pt .cdat]
          dev := { f.dev with ports := { s.dev.ports with enumStep := r.dev.ports.enumStep } } } ∧
        Notes (.port pt) r t ∧ (Room s → Logs t 110 (s.domainOf (.port pt)) 0 (min (2 ^ 42) (cap.toNat / 2 ^ 28 * 2 ^ 28) / 2 ^ 21) s.time)) ∧
      (FirstOf s (s.domainOf (.port pt)) 4 → cap.toNat < 2 ^ 28 → Completes (.moduleMailboxResponse pt cap commit data) s fun t => EnumFails s t pt 4) ∧
      (FirstOf s (s.domainOf (.port pt)) 4 → 2 ^ 28 ≤ cap.toNat → commit = false → Completes (.moduleMailboxResponse pt cap commit data) s fun t => EnumFails s t pt 5)) ∧
    (∀ b, s.enumStep pt ≠ 4 → Running s 0x0501 (some (.port pt)) b → Tab.getD s.dev.ports.mboxWait pt.ix [] = [] →
      Completes (.moduleMailboxResponse pt cap commit data) s fun t => Done t b.hdr data ∧ ∃ f, MboxFreed s f pt ∧
        Replied b.hdr { f with bg := s.bg.filter fun c => !(c.opcode == 0x0501 && c.unit == some (.port pt)) } t) ∧
    (∀ b h op l, s.enumStep pt ≠ 4 → s.bg.length ≤ bgMax → MboxRoom s pt 1 → Unheld s → Running s 0x0501 (some (.port pt)) b → Tab.getD s.dev.ports.mboxWait pt.ix [] = [(h, op, l)] →
      Completes (.moduleMailboxResponse pt cap commit data) s fun t => Done t b.hdr data ∧ .moduleCmd pt op l ∈ t.out ∧
        Running t 0x0501 (some (.port pt)) { hdr := h, opcode := 0x0501, unit := some (.port pt), args := [] } ∧
        Tab.getD t.dev.ports.mboxWait pt.ix [] = [] ∧ t.mem = s.mem)) ∧
  (∀ (s : State) (pt : PortId) (l : List (Nat × Nat)), s.mode pt.g = .m → s.fld (.port pt) F.PRT_MSTAT_STATE = 3 → MboxRoom s pt 1 →
    Completes (.eventPoll pt l) s fun t =>
      t.out = .moduleCmd pt 0x0100 [] :: (if l = [] then [] else [.moduleCmd pt 0x0101 (l.map fun r => r.2)]) ++ [.moduleCfg pt .aer] ∧
      (s.hist.length + l.length + 4 ≤ histMax → ∀ r ∈ l, Logs t 112 (s.domainOf (.port pt)) 0 (r.1 * 2 ^ 16 + r.2) s.time) ∧ t.mem = s.mem ∧
      t.dev.ort.entries = s.dev.ort.entries ∧ t.fld (.port pt) F.PRT_MSTAT_STATE = 3) ∧
  (∀ (s : State) (pt : PortId), s.mode pt.g = .m →
    (s.fld (.port pt) F.PRT_MSTAT_STATE ≠ 3 → (∀ l, Completes (.eventPoll pt l) s fun t => t = begun s) ∧ Completes (.moduleFatalError pt) s fun t => t = begun s) ∧
    (s.fld (.port pt) F.PRT_MSTAT_STATE = 3 → s.portExists pt = true → s.moduleGone pt = false → Completes (.moduleFatalError pt) s fun t =>
      t.fld (.port pt) F.PRT_MSTAT_STATE = 5 ∧ Opens t (s.domainOf (.port pt)) 4 (.port pt) ∧ (s.dev.ws.safe = false → t.isContained pt = true) ∧ t.mem = s.mem) ∧
    (s.portExists pt = true → s.fld (.port pt) F.PRT_MSTAT_STATE ≠ 0 → s.isContained pt = false → Completes (.moduleLinkDown pt) s fun t =>
      (∀ f ∈ [F.PRT_MSTAT_STATE, F.PRT_MSTAT_CAP_X, F.PRT_MSTAT_RATE, F.PRT_MSTAT_WIDTH, F.PRT_MSTAT_FAIL_CODE], t.fld (.port pt) f = 0) ∧ t.enumStep pt = 0 ∧
      (s.xDown pt.x = false → ∀ i e, Tab.get? t.dev.ort.entries i = some e → e.isOpen = true → e.egr = pt.x → e.lost = true) ∧
      (∀ b, Running s 0x0501 (some (.port pt)) b → Answered t b.hdr stUnavailable 0 1 []) ∧ t.mem = s.mem) ∧
    (s.fld (.port pt) F.PRT_MSTAT_STATE = 0 ∨ s.isContained pt = true → Completes (.moduleLinkDown pt) s fun t => t = begun s)) ∧
  (∀ (s : State) (h : Hdr) (pt : PortId) (op : BitVec 16) (data : List Nat), RunsNow s h 0x0501 → Names s h (.port pt) → s.mode pt.g = .m →
    (s.fld (.port pt) F.PRT_MSTAT_STATE = 3 → Tab.getD s.dev.ports.mboxWait pt.ix [] = [] → MboxRoom s pt 1 → Completes (.modMbox h op data) s fun t =>
      ∃ r, Tab.getD r.dev.ports.mboxWait pt.ix [] = [] ∧ MboxAsks s r pt 1 ∧ r = { begun s with
        out := [.moduleCmd pt op.toNat data]
        bg := s.bg ++ [{ hdr := h, opcode := 0x0501, unit := some (.port pt), args := [] }]
        dev := { (begun s).dev with
          ort := r.dev.ort
          ports := { s.dev.ports with mboxWait := r.dev.ports.mboxWait } } } ∧ Notes (XPort.int 7).unit r t) ∧
    (s.fld (.port pt) F.PRT_MSTAT_STATE ≠ 3 → Completes (.modMbox h op data) s fun t => Answered t h stUnavailable 0 1 [] ∧ Replied h (begun s) t))
/-! ### Fabric link (spec 11) -/

/-- R325-R334, R336-R351: a flit with a bad CRC or out of sequence is refused, with DISCARD and a NAK; one in sequence is taken in, its CTRL slot and
packets go on, cell by cell with the tag rebuilt from the fabric header, a stomped packet is discarded, and a framing error or an ACK outside the
window takes the link down; a NAK or an ACK that does not advance replays the stored flits, REPLAY_MAX times at most; returns go out on an idle flit;
the receive pool takes a legal setting alone; RESHAPE, PAUSE_REQ, PAUSE_RSP and the end of a retrain take a link through PAUSE, RETRAIN and RESUME
back to RUN, and a retrain that does not end takes it down. Arguments are the model's choice (log entry 16). The model's choices and readings that
this rests on: log entries 7, 16, 48, 49, 114, 138, 143. -/
def Obligations.FabricLinkLayer : Prop :=
  (∀ (s : State) (g : Fin 64) (w : BitVec 4096),
    (s.flPhase g = 0 ∨ (s.flPhase g = 3 ∧ flitGood w = true) → Completes (.flit g w) s fun t => t = begun s) ∧
    (s.flPhase g = 3 → flitGood w = false → (s.flink g).rxCur = none → Completes (.flit g w) s fun t =>
      t.fld (fabPort g) F.PRT_FL_ERR_CRCERR = (s.fld (fabPort g) F.PRT_FL_ERR_CRCERR + 1) % 2 ^ 32 ∧
      t.fld (fabPort g) F.PRT_FL_STAT_DISCARD = 1 ∧ (t.flink g).nak = true ∧ t.out = [] ∧
      KeepRegs s t (linkPlaces g [F.PRT_FL_ERR_CRCERR, F.PRT_FL_STAT_DISCARD, F.PRT_FL_RPL_NAK_TX]) ∧
      (Unlimited s 129 (fabPort g) → Space s → Logs t 129 (s.domainOf (fabPort g)) 0 0 s.time) ∧ LinkMoves (begun s) t) ∧
    (s.flPhase g ≠ 0 → s.flPhase g ≠ 3 → flitGood w = false → (s.flink g).rxCur = none → Completes (.flit g w) s fun t =>
      t.fld (fabPort g) F.PRT_FL_ERR_CRCERR = (s.fld (fabPort g) F.PRT_FL_ERR_CRCERR + 1) % 2 ^ 32 ∧
      t.fld (fabPort g) F.PRT_FL_STAT_DISCARD = 1 ∧ (t.flink g).nak = true ∧
      (s.flag (fabPort g) F.PRT_FL_STAT_DISCARD = false →
        t.fld (fabPort g) F.PRT_FL_RPL_NAK_TX = (s.fld (fabPort g) F.PRT_FL_RPL_NAK_TX + 1) % 2 ^ 16) ∧
      KeepRegs s t (linkPlaces g [F.PRT_FL_ERR_CRCERR, F.PRT_FL_STAT_DISCARD, F.PRT_FL_RPL_NAK_TX]) ∧
      SendsNull s t g [] ((s.fld (fabPort g) F.PRT_FL_STAT_EXP_SEQ + 4095) % 4096) true ∧
      (Unlimited s 129 (fabPort g) → Space s → Logs t 129 (s.domainOf (fabPort g)) 0 0 s.time) ∧ LinkMoves (begun s) t) ∧
    (s.flPhase g = 1 ∨ s.flPhase g = 2 → flitGood w = true → bitOf (flitHead w) 25 = false → ahead s g w ≠ 0 → (s.flink g).rxCur = none →
      Completes (.flit g w) s fun t =>
        t.fld (fabPort g) F.PRT_FL_ERR_SEQERR = (s.fld (fabPort g) F.PRT_FL_ERR_SEQERR + 1) % 2 ^ 32 ∧
        t.fld (fabPort g) F.PRT_FL_STAT_DISCARD = 1 ∧ (t.flink g).nak = ((s.flink g).nak || decide (ahead s g w < 2048)) ∧
        KeepRegs s t (linkPlaces g ([F.PRT_FL_ERR_SEQERR, F.PRT_FL_STAT_DISCARD] ++ if ahead s g w < 2048 then [F.PRT_FL_RPL_NAK_TX] else [])) ∧
        SendsNull s t g [] ((s.fld (fabPort g) F.PRT_FL_STAT_EXP_SEQ + 4095) % 4096) (t.flink g).nak ∧
        (Unlimited s 130 (fabPort g) → Space s → Logs t 130 (s.domainOf (fabPort g)) 0 0 s.time) ∧ LinkMoves (begun s) t) ∧
    (s.flPhase g = 1 ∨ s.flPhase g = 2 → flitGood w = true → bitOf (flitHead w) 25 = true → LinkIdle s g →
      ∀ rest, rest = (s.flink g).eddy.drop (freedBy s g (bits (flitHead w) 23 12)) →
      freedBy s g (bits (flitHead w) 23 12) ≤ (s.flink g).eddy.length →
      (bitOf (flitHead w) 24 = false ∨ rest = [] → Completes (.flit g w) s fun t => (t.flink g).eddy = rest ∧
        KeepRegs s t (linkPlaces g []) ∧ SendsNull s t g [] ((s.fld (fabPort g) F.PRT_FL_STAT_EXP_SEQ + 4095) % 4096) (s.flink g).nak ∧
        LinkMoves (begun s) t) ∧
      (∀ o l, bitOf (flitHead w) 24 = true → rest = o :: l → (s.flink g).replay = none →
        (o.retx < s.fld (fabPort g) F.PRT_FL_CFG_REPLAY_MAX → Completes (.flit g w) s fun t =>
          (t.flink g).eddy = rest.map (fun e => { e with retx := e.retx + 1 }) ∧
          (t.flink g).replay = some (bits (flitHead w) 23 12, s.time) ∧
          t.fld (fabPort g) F.PRT_FL_RPL_NAK_RX = (s.fld (fabPort g) F.PRT_FL_RPL_NAK_RX + 1) % 2 ^ 16 ∧
          t.fld (fabPort g) F.PRT_FL_RPL_FLITS = (s.fld (fabPort g) F.PRT_FL_RPL_FLITS + rest.length) % 2 ^ 32 ∧
          KeepRegs s t (linkPlaces g [F.PRT_FL_RPL_NAK_RX, F.PRT_FL_RPL_FLITS]) ∧
          SendsNull s t g (resent g rest ((s.fld (fabPort g) F.PRT_FL_STAT_EXP_SEQ + 4095) % 4096) (s.flink g).nak)
            ((s.fld (fabPort g) F.PRT_FL_STAT_EXP_SEQ + 4095) % 4096) (s.flink g).nak ∧
          (Unlimited s 131 (fabPort g) → Space s → Logs t 131 (s.domainOf (fabPort g)) 0 rest.length s.time) ∧ LinkMoves (begun s) t) ∧
        (s.fld (fabPort g) F.PRT_FL_CFG_REPLAY_MAX ≤ o.retx → MayFall s g → Completes (.flit g w) s fun t => LinkLost s t g 132))) ∧
    (Sequenced s g w →
      (31 ≤ (s.flink g).rxCt → (∀ k < 31, flitSlot w k = 0) → Completes (.flit g w) s fun t => TakenIn s t g w ∧
        SendsNull s t g [] (bits (flitHead w) 11 0) false ∧ LinkMoves (begun s) t ∧
        KeepRegs s t (linkPlaces g [F.PRT_FL_STAT_EXP_SEQ, F.PRT_FL_STAT_DISCARD, F.PRT_FL_CRED_CTRL_CR, F.PRT_FL_CRED_SH_CR])) ∧
      (∀ ct, (s.flink g).rxCt = ct → ct < 31 → (∀ k < 31, k ≠ ct → flitSlot w k = 0) →
        ((s.flink g).retCtrl + (s.flink g).ctrlHeld.length < 16 → Completes (.flit g w) s fun t => TakenIn s t g w ∧
          (0x20 ≤ (flitSlot w ct).toNat % 256 → (flitSlot w ct).toNat % 256 ≤ 0x24 →
            (t.flink g).retCtrl = (s.flink g).retCtrl ∧ (t.flink g).ctrlHeld = (s.flink g).ctrlHeld ++ [flitSlot w ct] ∧ SendsNull s t g [.ctrlIn g (flitSlot w ct)] (bits (flitHead w) 11 0) false) ∧
          ((flitSlot w ct).toNat % 256 < 0x20 ∨ 0x24 < (flitSlot w ct).toNat % 256 →
            (t.flink g).retCtrl = (s.flink g).retCtrl + 1 ∧ (t.flink g).ctrlHeld = (s.flink g).ctrlHeld ∧ SendsNull s t g [] (bits (flitHead w) 11 0) false ∧
            (Unlimited s 133 (fabPort g) → Space s → Logs t 133 (s.domainOf (fabPort g)) 0 ((flitSlot w ct).toNat % 256) s.time)) ∧
          LinkMoves (begun s) t) ∧
        (16 ≤ (s.flink g).retCtrl + (s.flink g).ctrlHeld.length → MayFall s g → Completes (.flit g w) s fun t => LinkLost s t g 134)) ∧
      (31 ≤ (s.flink g).rxCt → GoodHead s g (flitSlot w 0) → ∀ n, n = bits (flitSlot w 0).toNat 28 20 → n ≤ 8 →
        (∀ k, n < k → k < 31 → flitSlot w k = 0) →
        (bitOf (flitHead w) 45 = false → Completes (.flit g w) s fun t => TakenIn s t g w ∧ (t.flink g).rxCur = none ∧
          (t.flink g).rxPool = (s.flink g).rxPool ++ [(bits (flitSlot w 0).toNat 3 1, bitOf (flitSlot w 0).toNat 5)] ∧
          SendsNull s t g [.rxCells g (flitSlot w 0) 0 [{ tag := rxTag g (flitSlot w 0) 0, slots := (List.range n).map fun k => flitSlot w (k + 1) }] true] (bits (flitHead w) 11 0) false ∧ LinkMoves (begun s) t) ∧
        (∀ c : Cls, bitOf (flitHead w) 45 = true → c.num = bits (flitSlot w 0).toNat 3 1 → NoneBegun s (groupX g) c → Completes (.flit g w) s fun t =>
          t.fld (fabPort g) F.PRT_FL_STOMP_RX = (s.fld (fabPort g) F.PRT_FL_STOMP_RX + 1) % 2 ^ 16 ∧ (t.flink g).rxCur = none ∧
          (∀ v a n b, .rxCells g v a n b ∉ t.out) ∧
          (Unlimited s 138 (fabPort g) → Space s → Logs t 138 (s.domainOf (fabPort g)) 0 0 s.time) ∧ t.mem = s.mem)) ∧
      (31 ≤ (s.flink g).rxCt → flitSlot w 0 ≠ 0 → ¬GoodHead s g (flitSlot w 0) → MayFall s g →
        Completes (.flit g w) s fun t => LinkLost s t g 134)) ∧
    (s.flPhase g = 1 ∨ s.flPhase g = 2 → flitGood w = true → bitOf (flitHead w) 25 = true ∨ ahead s g w = 0 →
      (s.flink g).eddy.length < freedBy s g (bits (flitHead w) 23 12) → MayFall s g → Completes (.flit g w) s fun t => LinkLost s t g 134) ∧
    (∀ r, s.flPhase g = 4 → flitGood w = true → bitOf (flitHead w) 25 = true → (s.flink g).retrain = some r → LinkIdle s g → (s.flink g).eddy = [] →
      freedBy s g (bits (flitHead w) 23 12) = 0 → (r.req = none → FirstOf s (s.domainOf (fabPort g)) 5) →
      Completes (.flit g w) s fun t => t.flPhase g = 1 ∧ (t.flink g).retrain = none ∧
        t.fld (fabPort g) F.PRT_FL_RETRAIN_COUNT = (s.fld (fabPort g) F.PRT_FL_RETRAIN_COUNT + 1) % 2 ^ 16 ∧
        t.fld (fabPort g) F.PRT_FL_RETRAIN_LAST = min 65535 ((s.time - r.since) / 10) ∧
        KeepRegs s t (linkPlaces g [F.PRT_FL_STAT_PHASE, F.PRT_FL_RETRAIN_COUNT, F.PRT_FL_RETRAIN_LAST]) ∧
        SendsNull s t g [] ((s.fld (fabPort g) F.PRT_FL_STAT_EXP_SEQ + 4095) % 4096) (s.flink g).nak ∧
        (Space s → Logs t 135 (s.domainOf (fabPort g)) 0 0 s.time) ∧
        (r.req = none → Opens t (s.domainOf (fabPort g)) 5 (fabPort g) ∧
          (Space s → Logs t 136 (s.domainOf (fabPort g)) 1 (s.fld (fabPort g) F.PRT_FL_STAT_WIDTH) s.time)) ∧ t.mem = s.mem)) ∧
  (∀ (s : State) (g : Fin 64),
    (s.flSends g = true → (s.flink g).eddy.length < 256 → LinkIdle s g → (s.flink g).ret ≠ [] ∨ 0 < (s.flink g).retCtrl →
      Completes (.creditReturnTimer g) s fun t => ∃ f : TxFlit, f.null = false ∧ f.seq = s.fld (fabPort g) F.PRT_FL_STAT_NXT_SEQ ∧
        f.crPool = (retPick (s.flink g).ret).1 ∧ f.crCnt = min 511 (retPick (s.flink g).ret).2 ∧ f.crCtrl = min 3 (s.flink g).retCtrl ∧ f.ctNext = 31 ∧
        f.ack = (s.fld (fabPort g) F.PRT_FL_STAT_EXP_SEQ + 4095) % 4096 ∧ f.slots = idleSlots ∧ t.out = [sentFlit g f.header idleSlots] ∧
        (t.flink g).eddy = (s.flink g).eddy ++ [{ flit := f, retx := 0 }] ∧ (t.flink g).retCtrl = (s.flink g).retCtrl - 3 ∧
        Tab.get? t.dev.link.tx g.val = (Tab.get? s.dev.link.tx g.val).map
          (txFlit (s.fld (fabPort g) F.PRT_FL_STAT_WIDTH) (flitNum f.header idleSlots)) ∧
        t.fld (fabPort g) F.PRT_FL_STAT_NXT_SEQ = (s.fld (fabPort g) F.PRT_FL_STAT_NXT_SEQ + 1) % 4096 ∧
        KeepRegs s t (linkPlaces g [F.PRT_FL_STAT_NXT_SEQ, F.PRT_FL_PSTAT_EDDY_PEAK]) ∧ LinkMoves (begun s) t) ∧
    (s.flSends g = false ∨ 256 ≤ (s.flink g).eddy.length ∨ 0 < (s.flink g).left ∨ ((s.flink g).ret = [] ∧ (s.flink g).retCtrl = 0) →
      Completes (.creditReturnTimer g) s fun t => t = begun s)) ∧
  (∀ (s : State) (g : Fin 64),
    (s.flSends g = false ∨ (s.flink g).eddy = [] → Completes (.ackTimeout g) s fun t => t = begun s) ∧
    (∀ o l, s.flSends g = true → (s.flink g).eddy = o :: l →
      (o.retx < s.fld (fabPort g) F.PRT_FL_CFG_REPLAY_MAX → Completes (.ackTimeout g) s fun t =>
        t.out = resent g (o :: l) ((s.fld (fabPort g) F.PRT_FL_STAT_EXP_SEQ + 4095) % 4096) (s.flink g).nak ∧
        (t.flink g).eddy = (o :: l).map (fun e => { e with retx := e.retx + 1 }) ∧ (t.flink g).ackAt = s.time ∧
        t.fld (fabPort g) F.PRT_FL_RPL_FLITS = (s.fld (fabPort g) F.PRT_FL_RPL_FLITS + (l.length + 1)) % 2 ^ 32 ∧
        KeepRegs s t (linkPlaces g [F.PRT_FL_RPL_FLITS]) ∧
        (Unlimited s 131 (fabPort g) → Space s → Logs t 131 (s.domainOf (fabPort g)) 0 (l.length + 1) s.time) ∧ LinkMoves (begun s) t) ∧
      (s.fld (fabPort g) F.PRT_FL_CFG_REPLAY_MAX ≤ o.retx → MayFall s g → Completes (.ackTimeout g) s fun t => LinkLost s t g 132))) ∧
  (∀ (s : State) (m : Master) (g : Fin 64) (v : BitVec 64),
    (Writable s (fabPort g) .PRT_FL_RXCFG 0 → ∀ l, l = (List.range 7).map (fun k => v.toNat / 2 ^ (8 * k) % 2 ^ 8) →
      (l.sum ≤ 735 ∧ 33 ≤ l.getD 4 0 ∧ (∀ c ∈ [0, 1, 2, 3, 5], l.getD c 0 ≠ 0) ∧ l.getD 6 0 = 0 ∧
          s.fld (fabPort g) F.PRT_FL_RXLIM_RBMAX + l.sum ≤ 768 → Completes (.rxPoolConfigWrite m g false v) s fun t =>
        t.rxReserves g = l ∧
        KeepRegs s t (places (fabPort g) [F.PRT_FL_RXCFG_RSV0, F.PRT_FL_RXCFG_RSV1, F.PRT_FL_RXCFG_RSV2, F.PRT_FL_RXCFG_RSV3,
          F.PRT_FL_RXCFG_RSV4, F.PRT_FL_RXCFG_RSV5, F.PRT_FL_RXCFG_RSV6]) ∧ OnlyRegs (writing m s) t) ∧
      (735 < l.sum ∨ l.getD 4 0 < 33 ∨ (∃ c ∈ [0, 1, 2, 3, 5], l.getD c 0 = 0) ∨ l.getD 6 0 ≠ 0 ∨
          768 < s.fld (fabPort g) F.PRT_FL_RXLIM_RBMAX + l.sum → Completes (.rxPoolConfigWrite m g false v) s fun t =>
        Notes (fabPort g) (writing m s) t ∧ (Room s → Logs t 139 (s.domainOf (fabPort g)) 0 0 s.time))) ∧
    (Writable s (fabPort g) .PRT_FL_RXLIM 0 → (s.rxReserves g).sum ≤ 735 → 33 ≤ (s.rxReserves g).getD 4 0 →
      (∀ c ∈ [0, 1, 2, 3, 5], (s.rxReserves g).getD c 0 ≠ 0) → (s.rxReserves g).getD 6 0 = 0 →
      (v.toNat / 2 ^ 16 % 2 ^ 10 + (s.rxReserves g).sum ≤ 768 → Completes (.rxPoolConfigWrite m g true v) s fun t =>
        t.fld (fabPort g) F.PRT_FL_RXLIM_RBMAX = v.toNat / 2 ^ 16 % 2 ^ 10 ∧
        KeepRegs s t (places (fabPort g) [F.PRT_FL_RXLIM_RBMAX]) ∧ OnlyRegs (writing m s) t) ∧
      (768 < v.toNat / 2 ^ 16 % 2 ^ 10 + (s.rxReserves g).sum → Completes (.rxPoolConfigWrite m g true v) s fun t =>
        Notes (fabPort g) (writing m s) t ∧ (Room s → Logs t 139 (s.domainOf (fabPort g)) 0 0 s.time)))) ∧
  (∀ (s : State) (m : Master) (g : Fin 64) (v : BitVec 32), Writable s (fabPort g) .PRT_FL_RESHAPE 0 →
    (bitOf v.toNat 31 = false → Completes (.reshape m g v) s fun t => t = writing m s) ∧
    (bitOf v.toNat 31 = true → s.fabState g ≠ 4 ∨ s.flPhase g ≠ 1 ∨ (s.flink g).grant ≠ none ∨ ¬LaneBlock (v.toNat % 2 ^ 4) (v.toNat / 2 ^ 4 % 2 ^ 4) →
      Completes (.reshape m g v) s fun t =>
      Notes (fabPort g) (writing m s) t ∧ (Room s → Logs t 139 (s.domainOf (fabPort g)) 0 0 s.time)) ∧
    (bitOf v.toNat 31 = true → s.fabState g = 4 → s.flPhase g = 1 → LinkReady s g 1 → LaneBlock (v.toNat % 2 ^ 4) (v.toNat / 2 ^ 4 % 2 ^ 4) →
      Completes (.reshape m g v) s fun t => t.flPhase g = 2 ∧
      (t.flink g).ask = some ⟨(s.flink g).nextToken % 256, v.toNat % 2 ^ 4, v.toNat / 2 ^ 4 % 2 ^ 4, v.toNat / 2 ^ 8 % 2 ^ 4⟩ ∧
      (∃ a b, t.out = [sentFlit g a idleSlots, sentFlit g b (ctrlSlots (0x23 + v.toNat % 2 ^ 4 * 2 ^ 16 + v.toNat / 2 ^ 4 % 2 ^ 4 * 2 ^ 24 +
        v.toNat / 2 ^ 8 % 2 ^ 4 * 2 ^ 32 + (s.flink g).nextToken % 256 * 2 ^ 40))]) ∧
      KeepRegs s t (linkPlaces g [F.PRT_FL_STAT_PHASE, F.PRT_FL_STAT_NXT_SEQ, F.PRT_FL_CRED_CTRL_CR, F.PRT_FL_PSTAT_EDDY_PEAK]) ∧
      LinkMoves (writing m s) t)) ∧
  (∀ (s : State) (g : Fin 64) (width base rate token : BitVec 8), NoneHeld s g 0x23 →
    (s.fabState g ≠ 4 ∨ s.flSends g = false → Completes (.pauseReq g width base rate token) s fun t => t = begun s) ∧
    (s.fabState g = 4 → s.flSends g = true → LinkReady s g 1 → ∀ res,
      (s.flPhase g = 2 ∧ s.swid.val < s.fld (fabPort g) F.PRT_FAB_STAT_PEER_SW ∧ res = 1) ∨
        (¬(s.flPhase g = 2 ∧ s.swid.val < s.fld (fabPort g) F.PRT_FAB_STAT_PEER_SW) ∧ res =
          if LaneBlock width.toNat base.toNat ∧ rate.toNat ≤ 3 then 0 else 2) →
      Completes (.pauseReq g width base rate token) s fun t =>
        (∃ a b, t.out = [sentFlit g a idleSlots, sentFlit g b (ctrlSlots (0x24 + res * 2 ^ 16 + token.toNat * 2 ^ 24))]) ∧
        (res = 0 → t.flPhase g = 3 ∧ (t.flink g).retrain = some ⟨s.time, some ⟨token.toNat, width.toNat, base.toNat, rate.toNat⟩, decide (rate.toNat = 0)⟩ ∧
          (rate.toNat ≠ 0 → t.fld (.group g) F.GRP_FC_STAT_LOCK = 0)) ∧
        (res ≠ 0 → t.flPhase g = s.flPhase g ∧ (t.flink g).retrain = (s.flink g).retrain) ∧
        KeepRegs s t (fkey (.group g) F.GRP_FC_STAT_LOCK 0 ::
          linkPlaces g [F.PRT_FL_STAT_PHASE, F.PRT_FL_STAT_NXT_SEQ, F.PRT_FL_CRED_CTRL_CR, F.PRT_FL_PSTAT_EDDY_PEAK]) ∧
        LinkMoves (begun s) t)) ∧
  (∀ (s : State) (g : Fin 64) (result token : BitVec 8), NoneHeld s g 0x24 →
    ((∀ r, (s.flink g).ask = some r → r.token ≠ token.toNat) → Completes (.pauseRsp g result token) s fun t => t = begun s) ∧
    (∀ r, (s.flink g).ask = some r → r.token = token.toNat →
      (result.toNat = 0 → Completes (.pauseRsp g result token) s fun t => t.flPhase g = 3 ∧ t.fld (fabPort g) F.PRT_FL_PSTAT_RSP = 0 ∧
        (t.flink g).ask = none ∧ (t.flink g).retrain = some { since := s.time, req := some r, swept := decide (r.rate = 0) } ∧
        KeepRegs s t (fkey (.group g) F.GRP_FC_STAT_LOCK 0 :: places (fabPort g) [F.PRT_FL_STAT_PHASE, F.PRT_FL_PSTAT_RSP]) ∧ LinkMoves (begun s) t) ∧
      (result.toNat ≠ 0 → Completes (.pauseRsp g result token) s fun t => (s.flPhase g = 2 → t.flPhase g = 1) ∧
        (s.flPhase g ≠ 2 → t.flPhase g = s.flPhase g) ∧ t.fld (fabPort g) F.PRT_FL_PSTAT_RSP = result.toNat % 4 ∧ (t.flink g).ask = none ∧
        (t.flink g).retrain = (s.flink g).retrain ∧
        KeepRegs s t (notedPlaces (fabPort g) ++ places (fabPort g) [F.PRT_FL_STAT_PHASE, F.PRT_FL_PSTAT_RSP]) ∧
        (Room s → Logs t 139 (s.domainOf (fabPort g)) 0 result.toNat s.time) ∧ LinkMoves (begun s) t))) ∧
  (∀ (s : State) (g : Fin 64) (c : Instr) (ty : Nat) (a b : List (BitVec 128)) (m : BitVec 128), CtrlCommand g c ty → (s.flink g).ctrlHeld = a ++ m :: b →
    m.toNat % 256 = ty → (∀ x ∈ a ++ b, x.toNat % 256 ≠ ty) → ∃ r, NoneHeld r g ty ∧ (r.flink g).ctrlHeld = a ++ b ∧
      (r.flink g).retCtrl = (s.flink g).retCtrl + 1 ∧ r = { s with dev := { s.dev with link := { s.dev.link with fl := r.dev.link.fl } } } ∧
      exec c s = exec c r) ∧
  (∀ (s : State) (g : Fin 64) (good : BitVec 8),
    (s.flPhase g ≠ 3 → Completes (.retrainDone g good) s fun t => t = begun s) ∧
    (∀ r q, s.flPhase g = 3 → (s.flink g).retrain = some r → r.req = some q →
      r.swept = false ∨ (∃ i < q.width, bitOf (s.retrained g good.toNat) (q.base + i) = false) → Completes (.retrainDone g good) s fun t => t = begun s) ∧
    (∀ r w, s.flPhase g = 3 → (s.flink g).retrain = some r →
      (∃ q, r.req = some q ∧ w = q.width ∧ r.swept = true ∧ ∀ i < q.width, bitOf (s.retrained g good.toNat) (q.base + i) = true) ∨
        (r.req = none ∧ ∃ b, laneBlock (s.retrained g good.toNat &&& s.blockLanes g) [4, 2, 1] = some (w, b)) →
      Completes (.retrainDone g good) s fun t => t.flPhase g = 4 ∧ t.fld (fabPort g) F.PRT_FL_STAT_WIDTH = w % 16 ∧
        (∀ q, r.req = some q → q.rate ≠ 0 → t.fld (.group g) F.GRP_FC_STAT_RATE_CUR = q.rate % 4) ∧
        (∀ ln ∈ fabLanes g, t.flag (.lane ln) F.LN_STAT_ALIGN =
          (bitOf (s.retrained g good.toNat) (s.fld (.lane ln) F.LN_STAT_LLANE) || s.flag (.lane ln) F.LN_STAT_ALIGN)) ∧
        SendsNull s t g [] ((s.fld (fabPort g) F.PRT_FL_STAT_EXP_SEQ + 4095) % 4096) (s.flink g).nak ∧
        KeepRegs s t (linkPlaces g [F.PRT_FL_STAT_PHASE, F.PRT_FL_STAT_WIDTH] ++ fkey (.group g) F.GRP_FC_STAT_RATE_CUR 0 ::
          (fabLanes g).map fun ln => fkey (.lane ln) F.LN_STAT_ALIGN 0) ∧ LinkMoves (begun s) t) ∧
    (∀ r, s.flPhase g = 3 → (s.flink g).retrain = some r → r.req = none →
      laneBlock (s.retrained g good.toNat &&& s.blockLanes g) [4, 2, 1] = none → MayFall s g →
      Completes (.retrainDone g good) s fun t => t.fabState g = 0 ∧ t.flPhase g = 0 ∧ Tab.get? t.dev.link.fl g.val = none ∧ t.mem = s.mem)) ∧
  (∀ (s : State) (g : Fin 64),
    (s.flPhase g = 3 ∨ s.flPhase g = 4 → MayFall s g → Completes (.retrainTimeout g) s fun t => LinkLost s t g 137) ∧
    (s.flPhase g ≠ 3 → s.flPhase g ≠ 4 → Completes (.retrainTimeout g) s fun t => t = begun s))
/-! ### Lanes (spec 12) -/

/-- R350, R354, R358-R361, R364-R368, R370-R377: a lane sends its marker, its scrambled data and a stuff symbol after a run of 24; a rejected marker is
counted and the scrambler predicts on; an accepted one carries the lane number, polarity, seed, preset request and test flag; training goes through
its steps in order, chooses presets by the widest window and a width among the good lanes, or fails with EV140; a lane or clock lost takes alignment
away; a link test takes the link down and starts training anew; equalization and calibration writes apply values brought into their ranges, the main
cursor from what remains of FS; a margin measurement runs, is blocked, or ends with EV144. What a symbol is on the line is the model's choice of
operands (log entry 16 and those of spec 12). The model's choices and readings that this rests on: log entries 3, 7, 16, 114, 138, 139, 150. -/
def Obligations.LanesAndTraining : Prop :=
  (∀ (lane per v : Nat) (x : TxLane), x.run ≤ 24 → ∀ s1, s1 = scrStep x.scr → ∀ s2, s2 = scrStep s1 →
    ∀ d, d = grayLevel ((v % 4) ^^^ (s1 % 2 + s2 % 2 * 2)) →
      (x.left = 0 → (txData lane per x v).line = d :: (markSymbols (txMark lane x)).reverse ∧ (txData lane per x v).left = 16319) ∧
      (x.left ≠ 0 → x.run < 24 → (txData lane per x v).line = d :: x.line) ∧
      (1 < x.left → x.run = 24 → (txData lane per x v).line = d :: farLevel x.level :: x.line ∧ (txData lane per x v).left = x.left - 2) ∧
      (txData lane per x v).run ≤ 24 ∧ (txData lane per x v).level = d.val ∧ (txData lane per x v).scr = s2) ∧
  (∀ (s : State) (ln : LaneId),
    (s.mode ln.port.g ≠ .f ∨ s.unitExists (.lane ln) = false ∨ s.flag (.lane ln) F.LN_STAT_ALIGN = false →
      Completes (.laneAlignmentLoss ln) s fun t => t = begun s) ∧
    (s.mode ln.port.g = .f → s.unitExists (.lane ln) = true → s.flag (.lane ln) F.LN_STAT_ALIGN = true →
      (s.fabState ln.port.g ≠ 4 ∨ s.flag (fabPort ln.port.g) F.PRT_FL_CFG_AUTO_DEG = true → Completes (.laneAlignmentLoss ln) s fun t =>
        t.fld (.lane ln) F.LN_STAT_ALIGN = 0 ∧ t.lane ln = { s.lane ln with good := 0, broken := true } ∧
        (s.fabState ln.port.g = 4 ∧ (s.flSends ln.port.g = true ∨ s.flPhase ln.port.g = 4) → t.flPhase ln.port.g = 3 ∧
          (t.flink ln.port.g).retrain = some ⟨s.time, none, true⟩) ∧
        (s.fabState ln.port.g ≠ 4 ∨ (s.flSends ln.port.g = false ∧ s.flPhase ln.port.g ≠ 4) → t.flPhase ln.port.g = s.flPhase ln.port.g ∧ t.dev.link.fl = s.dev.link.fl) ∧
        KeepRegs s t (notedPlaces (.lane ln) ++ [fkey (.lane ln) F.LN_STAT_ALIGN 0, fkey (fabPort ln.port.g) F.PRT_FL_STAT_PHASE 0]) ∧
        (Unlimited s 141 (.lane ln) → Room s → Logs t 141 (s.domainOf (.lane ln)) 0 0 s.time) ∧ LaneMoves (begun s) t) ∧
      (s.fabState ln.port.g = 4 → s.flag (fabPort ln.port.g) F.PRT_FL_CFG_AUTO_DEG = false → MayFall s ln.port.g →
        Completes (.laneAlignmentLoss ln) s fun t => t.fld (.lane ln) F.LN_STAT_ALIGN = 0 ∧ t.fabState ln.port.g = 0 ∧ t.flPhase ln.port.g = 0 ∧
          Tab.get? t.dev.link.fl ln.port.g.val = none ∧ t.mem = s.mem))) ∧
  (∀ (s : State) (ln : LaneId) (w : BitVec 128) (frame : List (Fin 4)) (v : Vrefs) (taps : BitVec 64) (move : Fin 3),
    (s.mode ln.port.g ≠ .f ∨ s.unitExists (.lane ln) = false ∨ s.grpClocked ln.port.g = false →
      Completes (.alignmentMarker ln w frame v taps move) s fun t => t = begun s) ∧
    (s.mode ln.port.g = .f → s.unitExists (.lane ln) = true → s.grpClocked ln.port.g = true →
      ((s.lane ln).ofsDue = true → Told s ln → Completes (.alignmentMarker ln w frame v taps move) s fun t =>
        (t.lane ln).ofs = s.fld (.lane ln) F.LN_CAL_USR_OFS ∧ (t.lane ln).ofsDue = false ∧
        t.fld (.lane ln) F.LN_RXEQ_CTLE = clampNat (offsetSum s ln F.LN_CAL_FAC_CTLE (s.fld (.lane ln) F.LN_CAL_USR_OFS) (s.lane ln).ctle) 15) ∧
      ((s.lane ln).ofsDue = true → (s.lane ln).satTold = false → 15 < offsetSum s ln F.LN_CAL_FAC_CTLE (s.fld (.lane ln) F.LN_CAL_USR_OFS) (s.lane ln).ctle →
        Completes (.alignmentMarker ln w frame v taps move) s fun t => t.fld (.lane ln) F.LN_STAT_SAT = 1 ∧ (t.lane ln).satTold = true ∧
          (Room s → Logs t 143 (s.domainOf (.lane ln)) 0 0 s.time)) ∧
      (Told s ln → (s.lane ln).ofsDue = false → ∀ x l, x = s.frameRead ln frame → l = trackedLane s ln v move → ∀ wrong,
        wrong = (if (s.lane ln).scr ≠ 0 ∧ (s.lane ln).test = true then
          min (2 ^ 32 - 1) (s.fld (.lane ln) F.LN_ERR_LTEST + zeroErrors (s.lane ln).scr x.data.reverse) else s.fld (.lane ln) F.LN_ERR_LTEST) → ∀ noted,
        noted = trackPlaces ln ++ (if x.bad = 0 then [] else notedPlaces (.lane ln) ++ [fkey (.lane ln) F.LN_ERR_STUFF 0]) →
        (markAccept w = none → ∀ m, m = missedLane l w x.data.length (s.portion ln.port.g) →
          (l.missed = 0 ∨ s.flag (.lane ln) F.LN_STAT_ALIGN = false → Completes (.alignmentMarker ln w frame v taps move) s fun t =>
            t.fld (.lane ln) F.LN_ERR_MRK = (s.fld (.lane ln) F.LN_ERR_MRK + 1) % 2 ^ 16 ∧ t.lane ln = m ∧ t.fld (.lane ln) F.LN_ERR_LTEST = wrong ∧
            t.flag (.lane ln) F.LN_STAT_INV = (markInv w).getD (s.flag (.lane ln) F.LN_STAT_INV) ∧ FrameCounts s t ln x taps l.ph ∧
            KeepRegs s t (places (.lane ln) [F.LN_ERR_MRK, F.LN_ERR_LTEST, F.LN_STAT_INV] ++ noted) ∧ (∀ k, k ≠ ln → t.lane k = s.lane k) ∧ LaneMoves (begun s) t) ∧
          (1 ≤ l.missed → s.flag (.lane ln) F.LN_STAT_ALIGN = true → s.fabState ln.port.g ≠ 4 ∨ s.flag (fabPort ln.port.g) F.PRT_FL_CFG_AUTO_DEG = true →
            Completes (.alignmentMarker ln w frame v taps move) s fun t => t.fld (.lane ln) F.LN_STAT_ALIGN = 0 ∧ t.lane ln = m ∧
              (s.fabState ln.port.g = 4 → s.flSends ln.port.g = true ∨ s.flPhase ln.port.g = 4 → t.flPhase ln.port.g = 3 ∧
                (t.flink ln.port.g).retrain = some ⟨s.time, none, true⟩) ∧
              (Unlimited s 141 (.lane ln) → Room s → Logs t 141 (s.domainOf (.lane ln)) 0 0 s.time) ∧ LaneMoves (begun s) t)) ∧
        (∀ m inv, markAccept w = some (m, inv) →
          (bitOf m 48 = false → Completes (.alignmentMarker ln w frame v taps move) s fun t =>
            t.fld (.lane ln) F.LN_STAT_LLANE = m / 2 ^ 31 % 8 ∧ t.flag (.lane ln) F.LN_STAT_INV = inv ∧
            t.fld (.lane ln) F.LN_ERR_MRK = (if l.scr ≠ 0 ∧ m % 2 ^ 31 ≠ scrRun x.data.length l.scr
              then (s.fld (.lane ln) F.LN_ERR_MRK + 1) % 2 ^ 16 else s.fld (.lane ln) F.LN_ERR_MRK) ∧
            t.fld (.lane ln) F.LN_ERR_LTEST = (if bitOf m 49 = true ∧ l.test = false then 0 else wrong) ∧
            t.lane ln = takenLane l w m ∧
            FrameCounts s t ln x taps l.ph ∧
            KeepRegs s t (places (.lane ln) [F.LN_STAT_LLANE, F.LN_STAT_INV, F.LN_ERR_MRK, F.LN_ERR_LTEST] ++ noted) ∧
            (∀ k, k ≠ ln → t.lane k = s.lane k) ∧ LaneMoves (begun s) t) ∧
          (∀ k ∈ fabLanes ln.port.g, bitOf m 48 = true → k.l.val = m / 2 ^ 31 % 8 → s.fabState ln.port.g = 1 → Told s k →
            s.flag (.lane k) F.LN_TXEQ_AUTO = true → s.flag (.lane k) F.LN_TXEQ_MAN = false →
            Completes (.alignmentMarker ln w frame v taps move) s fun t =>
              t.fld (.lane ln) F.LN_STAT_LLANE = m / 2 ^ 31 % 8 ∧ (t.lane k).pre = (fabPreset (m / 2 ^ 45 % 8)).1 ∧
              (t.lane k).post = (fabPreset (m / 2 ^ 45 % 8)).2 ∧
              t.fld (.lane k) F.LN_STAT_A_PRE = clampNat (s.calSum k F.LN_CAL_FAC_PRE (fabPreset (m / 2 ^ 45 % 8)).1) 16 ∧
              t.fld (.lane k) F.LN_STAT_A_POST = clampNat (s.calSum k F.LN_CAL_FAC_POST (fabPreset (m / 2 ^ 45 % 8)).2) 24 ∧
              t.fld (.lane k) F.LN_STAT_A_MAIN = 64 - t.fld (.lane k) F.LN_STAT_A_PRE - t.fld (.lane k) F.LN_STAT_A_POST ∧ LaneMoves (begun s) t))))) ∧
  (∀ (s : State) (g : Fin 64) (c : Instr), c = .trainStart g ∨ c = .trainRetry g →
    (s.mayTrain g = false → Completes c s fun t => t = begun s) ∧
    (s.mayTrain g = true → Completes c s fun t => t.fabState g = 1 ∧ t.fld (.group g) F.GRP_FC_STAT_TSTEP = 1 ∧
      t.fld (.group g) F.GRP_FC_STAT_RATE_CUR = s.fld (.group g) F.GRP_FC_CFG_RATE % 4 ∧ Tab.get? t.dev.link.train g.val = some s.time ∧
      (∀ ln ∈ fabLanes g, t.lane ln = { s.lane ln with scr := 0, foff := 0, skip := 0, good := 0, missed := 0, windows := [] } ∧
        t.flag (.lane ln) F.LN_STAT_ALIGN = false) ∧ Tab.get? t.dev.link.tx g.val = some (txBegin g false s.time).zeros ∧
      KeepRegs s t (fkey (fabPort g) F.PRT_FAB_STAT_STATE 0 :: places (.group g) [F.GRP_FC_STAT_TSTEP, F.GRP_FC_STAT_RATE_CUR] ++
        (fabLanes g).map fun ln => fkey (.lane ln) F.LN_STAT_ALIGN 0) ∧
      t.dev.link.fl = s.dev.link.fl ∧ LaneMoves (begun s) t ∧ t.hist = s.hist)) ∧
  (∀ (s : State) (g : Fin 64),
    (∀ code : Fin 4, (s.rateMoving g false = true → Completes (.fciLock g code) s fun t => t.fld (.group g) F.GRP_FC_STAT_FCI_OK = 1 ∧
        t.fld (.group g) F.GRP_FC_STAT_LOCK = 1 ∧ KeepRegs s t (places (.group g) [F.GRP_FC_STAT_FCI_OK, F.GRP_FC_STAT_LOCK]) ∧ OnlyRegs (begun s) t) ∧
      (s.rateMoving g false = false → s.fabState g ≠ 1 ∨ s.tstep g ≠ 1 → Completes (.fciLock g code) s fun t => t = begun s) ∧
      (s.rateMoving g false = false → s.fabState g = 1 → s.tstep g = 1 → Completes (.fciLock g code) s fun t => t.tstep g = 2 ∧ t.fld (.group g) F.GRP_FC_STAT_FCI_OK = 1 ∧
        t.fld (.group g) F.GRP_FC_STAT_LOCK = 1 ∧ t.fld (.group g) F.GRP_FC_STAT_RATE_CUR = max (s.fld (.group g) F.GRP_FC_STAT_RATE_CUR) code.val ∧
        KeepRegs s t (places (.group g) [F.GRP_FC_STAT_TSTEP, F.GRP_FC_STAT_FCI_OK, F.GRP_FC_STAT_LOCK, F.GRP_FC_STAT_RATE_CUR]) ∧
        OnlyRegs (begun s) t)) ∧
    (∀ codes : List (Fin 64), (s.rateMoving g true = true → (∀ ln ∈ fabLanes g, Told s ln) → Completes (.phaseSweepDone g codes) s fun t =>
        (∀ ln ∈ fabLanes g, t.lane ln = { s.lane ln with good := 0, ph := (codes.getD ln.l.val 0).val } ∧
          t.fld (.lane ln) F.LN_RXEQ_PH = clampNat (s.calSum ln F.LN_CAL_FAC_PH (codes.getD ln.l.val 0).val) 63) ∧
        (t.flink g).retrain = (s.flink g).retrain.map (fun r => { r with swept := true }) ∧ KeepRegs s t (calPlaces g) ∧ LaneMoves (begun s) t) ∧
      (s.rateMoving g true = false → s.fabState g ≠ 1 ∨ s.tstep g ≠ 2 → Completes (.phaseSweepDone g codes) s fun t => t = begun s) ∧
      (s.rateMoving g true = false → s.fabState g = 1 → s.tstep g = 2 → (∀ ln ∈ fabLanes g, Told s ln) → Completes (.phaseSweepDone g codes) s fun t => t.tstep g = 3 ∧
        (∀ ln ∈ fabLanes g, t.lane ln = { s.lane ln with ctle := 8, ph := (codes.getD ln.l.val 0).val } ∧
          t.fld (.lane ln) F.LN_RXEQ_CTLE = clampNat (s.calSum ln F.LN_CAL_FAC_CTLE 8) 15 ∧
          t.fld (.lane ln) F.LN_RXEQ_PH = clampNat (s.calSum ln F.LN_CAL_FAC_PH (codes.getD ln.l.val 0).val) 63) ∧
        KeepRegs s t (fkey (.group g) F.GRP_FC_STAT_TSTEP 0 :: calPlaces g) ∧ LanesOnly (begun s) t (fabLanes g))) ∧
    (s.fabState g ≠ 1 ∨ s.tstep g ≠ 3 ∨ (∀ ln ∈ fabLanes g, (s.lane ln).good < 2) → Completes (.laneDeskewDone g) s fun t => t = begun s) ∧
    (s.fabState g = 1 → s.tstep g = 3 → (∃ ln ∈ fabLanes g, 2 ≤ (s.lane ln).good) → Completes (.laneDeskewDone g) s fun t => t.tstep g = 4 ∧
      (∀ ln ∈ fabLanes g, t.flag (.lane ln) F.LN_STAT_ALIGN = (decide (2 ≤ (s.lane ln).good) || s.flag (.lane ln) F.LN_STAT_ALIGN)) ∧
      (∀ ln ∈ fabLanes g, 2 ≤ (s.lane ln).good → (t.lane ln).broken = false ∧ ((s.lane ln).foff + (t.lane ln).skip) % s.portion g = 0) ∧
      t.out = ((fabLanes g).filter fun ln => s.flag (.lane ln) F.LN_TXEQ_AUTO).map (fun ln => .presetReq ln 0) ∧
      (∀ y z, Tab.get? t.dev.link.tx g.val = some y → ∀ ln ∈ fabLanes g, s.flag (.lane ln) F.LN_TXEQ_AUTO = true →
        y.lanes[s.fld (.lane ln) F.LN_STAT_LLANE]? = some z → z.preq = some 0) ∧
      KeepRegs s t (fkey (.group g) F.GRP_FC_STAT_TSTEP 0 :: (fabLanes g).map fun ln => fkey (.lane ln) F.LN_STAT_ALIGN 0) ∧
      t.dev.link.fl = s.dev.link.fl ∧ LaneMoves { begun s with out := t.out } t ∧ t.hist = s.hist)) ∧
  (∀ (s : State) (ln : LaneId) (h : PresetHold), ∀ g, g = ln.port.g → ∀ ws, ws = (s.lane ln).windows ++ [h.window.val] →
    (s.fabState g ≠ 1 ∨ s.tstep g ≠ 4 ∨ ln.port.p ≠ 0 ∨ s.flag (.lane ln) F.LN_TXEQ_AUTO = false ∨ 8 < ws.length →
      Completes (.presetHoldExpiry ln h) s fun t => t = begun s) ∧
    (s.fabState g = 1 → s.tstep g = 4 → ln.port.p = 0 → s.flag (.lane ln) F.LN_TXEQ_AUTO = true → ws.length ≤ 8 → Told s ln →
      Completes (.presetHoldExpiry ln h) s fun t => t.lane ln = { s.lane ln with windows := ws, ctle := h.ctle.val } ∧
        t.fld (.lane ln) F.LN_RXEQ_CTLE = clampNat (s.calSum ln F.LN_CAL_FAC_CTLE h.ctle.val) 15 ∧
        (ws.length < 8 → t.out = [.presetReq ln ws.length]) ∧
        (∀ b < 8, ws.length = 8 → (∀ j < 8, ws.getD j 0 ≤ ws.getD b 0 ∧ (j < b → ws.getD j 0 < ws.getD b 0)) → t.out = [.presetReq ln b]) ∧
        (∀ y z n, t.out = [.presetReq ln n] → Tab.get? t.dev.link.tx g.val = some y → y.lanes[s.fld (.lane ln) F.LN_STAT_LLANE]? = some z → z.preq = some n) ∧
        ((∀ k ∈ fabLanes g, s.flag (.lane k) F.LN_TXEQ_AUTO = true → 8 ≤ (if k = ln then ws.length else (s.lane k).windows.length)) → t.tstep g = 5) ∧
        ((∃ k ∈ fabLanes g, s.flag (.lane k) F.LN_TXEQ_AUTO = true ∧ (if k = ln then ws.length else (s.lane k).windows.length) < 8) → t.tstep g = 4) ∧
        KeepRegs s t (fkey (.group g) F.GRP_FC_STAT_TSTEP 0 :: places (.lane ln) calFields) ∧ (∀ k, k ≠ ln → t.lane k = s.lane k) ∧
        t.dev.link.fl = s.dev.link.fl ∧ LaneMoves { begun s with out := t.out } t ∧ t.hist = s.hist)) ∧
  (∀ (s : State) (g : Fin 64) (fits : List LaneFit),
    (s.trainEnds g = false → Completes (.trainDone g fits) s fun t => t = begun s) ∧
    (s.trainEnds g = true → ∀ mask < 256,
      (∀ i < 8, bitOf mask i = true ↔ ∃ ln ∈ fabLanes g, FitLane s fits ln ∧ s.fld (.lane ln) F.LN_STAT_LLANE = i) →
      ∀ widths, widths = (if s.flag (fabPort g) F.PRT_FL_CFG_AUTO_DEG then [8, 4, 2, 1] else [8]) →
      (∀ w b, laneBlock mask widths = some (w, b) → NoneWaits s → Unheld s → (∀ ln ∈ fabLanes g, Told s ln) → Completes (.trainDone g fits) s fun t => t.fabState g = 2 ∧ t.flPhase g = 1 ∧
        t.fld (fabPort g) F.PRT_FL_STAT_WIDTH = w ∧ t.fld (fabPort g) F.PRT_FL_STAT_EXP_SEQ = 0 ∧ t.fld (fabPort g) F.PRT_FL_STAT_NXT_SEQ = 0 ∧
        t.fld (fabPort g) F.PRT_FL_CRED_CTRL_CR = 16 ∧ t.fld (fabPort g) F.PRT_FL_CRED_SH_CR = 0 ∧ t.fld (fabPort g) F.PRT_FL_STAT_DISCARD = 0 ∧
        t.flink g = { FLink.empty with cred := [(4, 33)] } ∧ t.tstep g = 0 ∧ t.fld (.group g) F.GRP_FC_STAT_FAILS = 0 ∧
        t.fld (.group g) F.GRP_FC_STAT_GOOD = mask ∧ Tab.get? t.dev.link.train g.val = none ∧ t.xDown (groupX g) = false ∧
        (∀ ln ∈ fabLanes g, (t.lane ln).scr = 1 + s.fld (.lane ln) F.LN_STAT_LLANE * 0x01111111 ∧
          ∀ f, fits[ln.l.val]? = some f → (t.lane ln).ctle = f.rx.ctle.val ∧
            t.fld (.lane ln) F.LN_RXEQ_CTLE = clampNat (s.calSum ln F.LN_CAL_FAC_CTLE f.rx.ctle.val) 15 ∧
            (s.flag (.lane ln) F.LN_RXEQ_FREEZE = false → (t.lane ln).vl = f.rx.vl.val ∧ (t.lane ln).vm = f.rx.vm.val ∧ (t.lane ln).vh = f.rx.vh.val ∧
              t.fld (.lane ln) F.LN_RXEQ_VREF_M = clampNat (s.calSum ln F.LN_CAL_FAC_VM f.rx.vm.val) 63 ∧
              t.fld (.lane ln) F.LN_RXDFE_TAPS = f.rx.taps.toNat)) ∧
        (∃ y, Tab.get? t.dev.link.tx g.val = some y ∧ y.base = b ∧
          ∀ n z, y.lanes[n]? = some z → z.scr = 1 + n * 0x01111111 ∧ z.foff = 0 ∧ z.preq = none) ∧
        KeepRegs s t (calPlaces g ++ (fabLanes g).map (fun ln => fkey (.lane ln) F.LN_RXDFE_TAPS 0) ++
          places (.group g) [F.GRP_FC_STAT_TSTEP, F.GRP_FC_STAT_FAILS, F.GRP_FC_STAT_GOOD] ++
          places (fabPort g) [F.PRT_FL_STAT_PHASE, F.PRT_FL_STAT_WIDTH, F.PRT_FL_STAT_EXP_SEQ, F.PRT_FL_STAT_NXT_SEQ, F.PRT_FL_STAT_DISCARD,
            F.PRT_FL_CRED_CTRL_CR, F.PRT_FL_CRED_SH_CR, F.PRT_FAB_STAT_STATE]) ∧
        t = { begun s with
          regs := t.regs
          out := t.out
          dev := { (begun s).dev with
            flood := { s.dev.flood with downX := t.dev.flood.downX }
            fab := { s.dev.fab with auth := t.dev.fab.auth }
            hw := { s.dev.hw with spdm := Tab.erase s.dev.hw.spdm (129 + g.val) }
            link := t.dev.link } } ∧
        (s.flag .root F.HW_STAT_READY = true → ((List.finRange 64).filter s.authNow).length < 8 → (g.val, true) ∈ t.dev.fab.auth ∧ t.out = [.spdm (129 + g.val) 0x84 []])) ∧
      (laneBlock mask widths = none → MayFall s g → FirstOf s (.group g) 5 → Completes (.trainDone g fits) s fun t => TrainFailed s t g)) ∧
    (s.fabState g ≠ 1 → Completes (.trainTimeout g) s fun t => t = begun s) ∧
    (s.fabState g = 1 → MayFall s g → FirstOf s (.group g) 5 → Completes (.trainTimeout g) s fun t => TrainFailed s t g)) ∧
  (∀ (s : State) (g : Fin 64),
    (s.mode g ≠ .f ∨ s.flag (.group g) F.GRP_FC_STAT_FCI_OK = false → Completes (.fciLoss g) s fun t => t = begun s) ∧
    (s.mode g = .f → s.flag (.group g) F.GRP_FC_STAT_FCI_OK = true → FirstOf s (.group g) 5 → s.fabState g < 2 ∨ MayFall s g →
      Completes (.fciLoss g) s fun t => t.fld (.group g) F.GRP_FC_STAT_FCI_OK = 0 ∧ t.fld (.group g) F.GRP_FC_STAT_LOCK = 0 ∧
        (∀ ln ∈ fabLanes g, t.flag (.lane ln) F.LN_STAT_ALIGN = false ∧
          (s.flag (.lane ln) F.LN_STAT_ALIGN = true → (t.lane ln).good = 0)) ∧
        t.fabState g = (if s.fabState g < 2 then s.fabState g else 0) ∧ Opens t (.group g) 5 (.group g) ∧ t.mem = s.mem ∧
        (s.hist.length + 20 ≤ histMax → s.fabState g < 2 → Logs t 142 (.group g) 1 0 s.time) ∧
        (s.fabState g < 2 → KeepRegs s t (notedPlaces (.group g) ++ places (.group g) [F.GRP_FC_STAT_FCI_OK, F.GRP_FC_STAT_LOCK] ++
          (fabLanes g).flatMap fun ln => fkey (.lane ln) F.LN_STAT_ALIGN 0 :: notedPlaces (.lane ln))))) ∧
  (∀ (s : State) (m : Master) (g : Fin 64) (v : BitVec 32), Writable s (.group g) .GRP_LTEST 0 →
    (bitOf v.toNat 31 = false ∨ s.flag (.group g) F.GRP_LTEST_BUSY = true ∨ s.mode g ≠ .f → Completes (.linkTest m g v) s fun t =>
      t.fld (.group g) F.GRP_LTEST_DUR_MS = max 1 (v.toNat % 2 ^ 16) ∧ KeepRegs s t (places (.group g) [F.GRP_LTEST_DUR_MS]) ∧
      OnlyRegs (crossed (writing m s) (.group g) .GRP_LTEST) t) ∧
    (bitOf v.toNat 31 = true → s.flag (.group g) F.GRP_LTEST_BUSY = false → s.mode g = .f → Unused s →
      (s.fabState g = 0 → Completes (.linkTest m g v) s fun t => t.fld (.group g) F.GRP_LTEST_DUR_MS = max 1 (v.toNat % 2 ^ 16) ∧
        t.fld (.group g) F.GRP_LTEST_BUSY = 1 ∧ g.val ∈ t.dev.link.testing ∧
        KeepRegs s t (places (.group g) [F.GRP_LTEST_DUR_MS, F.GRP_LTEST_BUSY]) ∧
        OnlyRegs { crossed (writing m s) (.group g) .GRP_LTEST with
          dev := { (crossed (writing m s) (.group g) .GRP_LTEST).dev with link := { s.dev.link with testing := t.dev.link.testing, tx := t.dev.link.tx } } } t ∧
        Tab.get? t.dev.link.tx g.val = some (txBegin g true s.time).zeros) ∧
      (MayFall s g → Completes (.linkTest m g v) s fun t => t.fld (.group g) F.GRP_LTEST_DUR_MS = max 1 (v.toNat % 2 ^ 16) ∧
        t.fld (.group g) F.GRP_LTEST_BUSY = 1 ∧ g.val ∈ t.dev.link.testing ∧ t.fabState g = 0 ∧ t.flPhase g = 0 ∧
        Tab.get? t.dev.link.fl g.val = none ∧ t.mem = s.mem))) ∧
  (∀ (s : State) (g : Fin 64),
    (s.flag (.group g) F.GRP_LTEST_BUSY = false → Completes (.linkTestEnd g) s fun t => t = begun s) ∧
    (s.flag (.group g) F.GRP_LTEST_BUSY = true → Completes (.linkTestEnd g) s fun t => t.fld (.group g) F.GRP_LTEST_BUSY = 0 ∧
      (s.mode g = .f → s.grpClocked g = true → s.fabState g = 0 → s.flag (.group g) F.GRP_STAT_CHG = false → s.isContained ⟨g, 0⟩ = false →
        s.isFenced (.group g) = false → s.dev.ws.safe = false → t.fabState g = 1 ∧ t.tstep g = 1 ∧
          t.fld (.group g) F.GRP_FC_STAT_RATE_CUR = s.fld (.group g) F.GRP_FC_CFG_RATE % 4) ∧
      (s.fabState g ≠ 0 → t.fabState g = s.fabState g ∧ t.tstep g = s.tstep g) ∧
      (Room s → Logs t 145 (.group g) 0 0 s.time) ∧
      KeepRegs s t (notedPlaces (.group g) ++ fkey (fabPort g) F.PRT_FAB_STAT_STATE 0 ::
        places (.group g) [F.GRP_LTEST_BUSY, F.GRP_FC_STAT_TSTEP, F.GRP_FC_STAT_RATE_CUR] ++ (fabLanes g).map fun ln => fkey (.lane ln) F.LN_STAT_ALIGN 0) ∧ LaneMoves (begun s) t)) ∧
  (∀ (s : State) (m : Master) (ln : LaneId) (v : BitVec 32), Writable s (.lane ln) .LN_MRG_CTL 0 → ∀ r, r = crossed (writing m s) (.lane ln) .LN_MRG_CTL →
    (v.toNat / 2 ^ 29 % 4 = 3 → Completes (.marginMeasurement m ln v) s fun t =>
      Notes (.lane ln) (refusedInFlight (writing m s) (.lane ln) .LN_MRG_CTL v.toNat) t) ∧
    (v.toNat / 2 ^ 29 % 4 ≠ 3 → Completes (.marginMeasurement m ln v) s fun t => OnlyRegs r t ∧
      (∀ f ∈ [F.LN_MRG_CTL_EYE, F.LN_MRG_CTL_LOG2N, F.LN_MRG_CTL_V_OFS, F.LN_MRG_CTL_PH_OFS],
        t.fld (.lane ln) f = f.bring (f.part v.toNat) % 2 ^ f.w) ∧
      KeepRegs s t (places (.lane ln) [F.LN_MRG_CTL_EYE, F.LN_MRG_CTL_LOG2N, F.LN_MRG_CTL_V_OFS, F.LN_MRG_CTL_PH_OFS, F.LN_MRG_RES_BUSY,
        F.LN_MRG_RES_DONE, F.LN_MRG_RES_BLOCKED, F.LN_MRG_RES_ERRS]) ∧
      (bitOf v.toNat 31 = true → s.flag (.lane ln) F.LN_MRG_RES_BUSY = false →
        (s.mode ln.port.g ≠ .f → (s.lane ln).margining = true → t.fld (.lane ln) F.LN_MRG_RES_BLOCKED = 1 ∧
          t.flag (.lane ln) F.LN_MRG_RES_BUSY = false) ∧
        (s.mode ln.port.g = .f ∨ (s.lane ln).margining = false → t.fld (.lane ln) F.LN_MRG_RES_BUSY = 1 ∧ t.fld (.lane ln) F.LN_MRG_RES_DONE = 0 ∧
          t.fld (.lane ln) F.LN_MRG_RES_BLOCKED = 0 ∧ t.fld (.lane ln) F.LN_MRG_RES_ERRS = 0)) ∧
      (bitOf v.toNat 31 = false ∨ s.flag (.lane ln) F.LN_MRG_RES_BUSY = true →
        ∀ f ∈ [F.LN_MRG_RES_BUSY, F.LN_MRG_RES_DONE, F.LN_MRG_RES_BLOCKED, F.LN_MRG_RES_ERRS], t.fld (.lane ln) f = s.fld (.lane ln) f))) ∧
  (∀ (s : State) (ln : LaneId) (errs : BitVec 48),
    (s.flag (.lane ln) F.LN_MRG_RES_BUSY = false → Completes (.marginMeasurementDone ln errs) s fun t => t = begun s) ∧
    (s.flag (.lane ln) F.LN_MRG_RES_BUSY = true → Completes (.marginMeasurementDone ln errs) s fun t =>
      t.fld (.lane ln) F.LN_MRG_RES_ERRS = errs.toNat ∧ t.fld (.lane ln) F.LN_MRG_RES_BUSY = 0 ∧ t.fld (.lane ln) F.LN_MRG_RES_DONE = 1 ∧
      KeepRegs s t (notedPlaces (.lane ln) ++ places (.lane ln) [F.LN_MRG_RES_ERRS, F.LN_MRG_RES_BUSY, F.LN_MRG_RES_DONE]) ∧
      (Room s → Logs t 144 (s.domainOf (.lane ln)) 0 0 s.time) ∧ LaneMoves (begun s) t)) ∧
  (∀ (fs pre post : Nat) (l : Fin 4), firOut fs pre post l l l = ((fs : Int) - 2 * pre - 2 * post) * (2 * (l.val : Int) - 3)) ∧
  (∀ (s : State) (m : Master) (ln : LaneId) (v : BitVec 32), Writable s (.lane ln) .LN_TXEQ 0 → Told s ln → ∀ fs top,
    (s.mode ln.port.g = .f ∧ fs = 64 ∧ top = 7) ∨ (s.mode ln.port.g ≠ .f ∧ fs = 63 ∧ top = 10) → ∀ pre post,
      (s.mode ln.port.g ≠ .f ∧ (s.lane ln).eqDone = true ∧ pre = (s.lane ln).pre ∧ post = (s.lane ln).post) ∨
        (s.mode ln.port.g ≠ .f ∧ (s.lane ln).eqDone = false ∧
          (pre, post) = Config.linkPreset (s.linkRate ln.port) (min 10 (v.toNat / 2 ^ 24 % 2 ^ 4))) ∨
        (s.mode ln.port.g = .f ∧ bitOf v.toNat 30 = true ∧ pre = min 16 (v.toNat % 2 ^ 5) ∧ post = min 24 (v.toNat / 2 ^ 8 % 2 ^ 5)) ∨
        (s.mode ln.port.g = .f ∧ bitOf v.toNat 30 = false ∧ bitOf v.toNat 31 = true ∧ pre = (s.lane ln).pre ∧ post = (s.lane ln).post) ∨
        (s.mode ln.port.g = .f ∧ bitOf v.toNat 30 = false ∧ bitOf v.toNat 31 = false ∧
          (pre, post) = fabPreset (min 7 (v.toNat / 2 ^ 24 % 2 ^ 4))) →
      Completes (.txEqWrite m ln v) s fun t => OnlyRegs (crossed (writing m s) (.lane ln) .LN_TXEQ) t ∧
        t.flag (.lane ln) F.LN_TXEQ_AUTO = bitOf v.toNat 31 ∧ t.flag (.lane ln) F.LN_TXEQ_MAN = bitOf v.toNat 30 ∧
        t.fld (.lane ln) F.LN_TXEQ_PRESET = min top (v.toNat / 2 ^ 24 % 2 ^ 4) ∧ t.fld (.lane ln) F.LN_TXEQ_SWING = v.toNat / 2 ^ 20 % 2 ^ 4 ∧
        t.fld (.lane ln) F.LN_TXEQ_POST = min 24 (v.toNat / 2 ^ 8 % 2 ^ 5) ∧ t.fld (.lane ln) F.LN_TXEQ_PRE = min 16 (v.toNat % 2 ^ 5) ∧
        t.fld (.lane ln) F.LN_STAT_A_PRE = clampNat (s.calSum ln F.LN_CAL_FAC_PRE pre) 16 ∧
        t.fld (.lane ln) F.LN_STAT_A_POST = clampNat (s.calSum ln F.LN_CAL_FAC_POST post) 24 ∧
        t.fld (.lane ln) F.LN_STAT_A_SWING = clampNat (s.calSum ln F.LN_CAL_FAC_SWING (v.toNat / 2 ^ 20 % 2 ^ 4)) 15 ∧
        t.fld (.lane ln) F.LN_STAT_A_MAIN = fs - t.fld (.lane ln) F.LN_STAT_A_PRE - t.fld (.lane ln) F.LN_STAT_A_POST ∧
        KeepRegs s t (places (.lane ln) ([F.LN_TXEQ_AUTO, F.LN_TXEQ_MAN, F.LN_TXEQ_PRESET, F.LN_TXEQ_SWING, F.LN_TXEQ_POST, F.LN_TXEQ_PRE] ++
          calFields))) ∧
  (∀ (s : State) (m : Master) (ln : LaneId) (v : BitVec 64), Writable s (.lane ln) .LN_CAL_USR 0 → s.mode ln.port.g = .f →
    Completes (.userCalibrationWrite m ln v) s fun t => t.fld (.lane ln) F.LN_CAL_USR_OFS = v.toNat % 2 ^ 40 ∧
      t.lane ln = { s.lane ln with ofsDue := true, satTold := false } ∧ KeepRegs s t (places (.lane ln) [F.LN_CAL_USR_OFS]) ∧
      LanesOnly (crossed (writing m s) (.lane ln) .LN_CAL_USR) t [ln]) ∧
  (∀ (s : State) (m : Master) (ln : LaneId) (v : BitVec 64), Writable s (.lane ln) .LN_CAL_USR 0 → s.mode ln.port.g ≠ .f →
    ∀ l : List (Fld × Fld × Nat × Nat), l = [(F.LN_STAT_A_PRE, F.LN_CAL_FAC_PRE, (s.txBase ln).1, 16),
      (F.LN_STAT_A_POST, F.LN_CAL_FAC_POST, (s.txBase ln).2, 24), (F.LN_STAT_A_SWING, F.LN_CAL_FAC_SWING, s.fld (.lane ln) F.LN_TXEQ_SWING, 15),
      (F.LN_RXEQ_CTLE, F.LN_CAL_FAC_CTLE, (s.lane ln).ctle, 15), (F.LN_RXEQ_VREF_L, F.LN_CAL_FAC_VL, (s.lane ln).vl, 63),
      (F.LN_RXEQ_VREF_M, F.LN_CAL_FAC_VM, (s.lane ln).vm, 63), (F.LN_RXEQ_VREF_H, F.LN_CAL_FAC_VH, (s.lane ln).vh, 63),
      (F.LN_RXEQ_PH, F.LN_CAL_FAC_PH, (s.lane ln).ph, 63)] →
    (∀ e ∈ l, 0 ≤ offsetSum s ln e.2.1 v.toNat e.2.2.1 ∧ offsetSum s ln e.2.1 v.toNat e.2.2.1 ≤ e.2.2.2) →
      (Completes (.userCalibrationWrite m ln v) s fun t => LanesOnly (crossed (writing m s) (.lane ln) .LN_CAL_USR) t [ln] ∧
        t.lane ln = { s.lane ln with ofs := v.toNat % 2 ^ 40, ofsDue := false, satTold := false } ∧
        t.fld (.lane ln) F.LN_CAL_USR_OFS = v.toNat % 2 ^ 40 ∧
        (∀ e ∈ l, (t.fld (.lane ln) e.1 : Int) = offsetSum s ln e.2.1 v.toNat e.2.2.1) ∧
        t.fld (.lane ln) F.LN_STAT_A_MAIN = s.fullScale ln.port.g - t.fld (.lane ln) F.LN_STAT_A_PRE - t.fld (.lane ln) F.LN_STAT_A_POST ∧
        KeepRegs s t (places (.lane ln) (F.LN_CAL_USR_OFS :: calFields)))) ∧
  (∀ (s : State) (m : Master) (ln : LaneId) (v : BitVec 64), Writable s (.lane ln) .LN_CAL_USR 0 → s.mode ln.port.g ≠ .f →
    offsetSum s ln F.LN_CAL_FAC_PH v.toNat (s.lane ln).ph < 0 ∨ 63 < offsetSum s ln F.LN_CAL_FAC_PH v.toNat (s.lane ln).ph →
      Completes (.userCalibrationWrite m ln v) s fun t => t.fld (.lane ln) F.LN_STAT_SAT = 1 ∧
        (offsetSum s ln F.LN_CAL_FAC_PH v.toNat (s.lane ln).ph < 0 → t.fld (.lane ln) F.LN_RXEQ_PH = 0) ∧
        (63 < offsetSum s ln F.LN_CAL_FAC_PH v.toNat (s.lane ln).ph → t.fld (.lane ln) F.LN_RXEQ_PH = 63) ∧
        (Room s → Logs t 143 (s.domainOf (.lane ln)) 0 0 s.time) ∧
        KeepRegs s t (notedPlaces (.lane ln) ++ places (.lane ln) (F.LN_CAL_USR_OFS :: F.LN_STAT_SAT :: calFields)) ∧
        LaneMoves (crossed (writing m s) (.lane ln) .LN_CAL_USR) t) ∧
  (∀ (s : State) (ln : LaneId) (active : Bool),
    (s.mode ln.port.g = .f ∨ s.mode ln.port.g = .off → Completes (.laneMarginingCommand ln active) s fun t => t = begun s) ∧
    (s.mode ln.port.g = .h ∨ s.mode ln.port.g = .m →
      (active = true → s.flag (.lane ln) F.LN_MRG_RES_BUSY = true → Completes (.laneMarginingCommand ln active) s fun t =>
        t = { begun s with out := [.marginBusy ln] }) ∧
      (active = false ∨ s.flag (.lane ln) F.LN_MRG_RES_BUSY = false → Completes (.laneMarginingCommand ln active) s fun t =>
        t.lane ln = { s.lane ln with margining := active } ∧ t.regs = s.regs ∧ LanesOnly (begun s) t [ln])))
/-! ### The device as a whole -/

/-- A step is the effect of the command at the front of the queue on the device with the queue's rest; with no command waiting the timebase runs on by one step of 4 ns, and nothing else changes (the model's choice, log entry
2). -/
def Obligations.StepRunsTheFrontCommand : Prop :=
  (∀ (s : State) (c : Instr) (rest : List Instr), s.pending = c :: rest → step s = exec c { s with pending := rest }) ∧
  (∀ s : State, s.pending = [] → step s = .next { s with time := s.time + 4 }) ∧
  (∀ (s : State) (nbits w : Nat), decodeTableWord nbits w = none ∧ s.withFetchWord nbits w = s)

/-- After reset every register field of every unit reads as its register table's Reset column says (where that gives no value, as the log entries say), the timebase stands at 0, the history queue, Headwater's command queue and the queue of
waiting commands are empty, no link is up and no group has a mode, no fault is open, and what is kept is in canonical form. -/
def Obligations.ResetState : Prop :=
  State.reset.Inv ∧ (∀ (u : UnitId) (f : Fld) (n : Nat), State.reset.fldn u f n = resetOf f n) ∧ (∀ a, memRead State.reset.mem a = 0) ∧
    State.reset.time = 0 ∧ State.reset.hist = [] ∧ State.reset.cmdq = [] ∧ State.reset.bg = [] ∧ State.reset.pending = [] ∧
    (∀ g, State.reset.mode g = .off ∧ State.reset.fabState g = 0) ∧
    (∀ u, Tab.getD State.reset.dev.ws.faults (pathCode u) [] = [] ∧ State.reset.isFenced u = false) ∧ (∀ k, State.reset.slotPg k = false)

/-- R433, R465, R466: every step keeps the history queue within 32 entries, Headwater's command queue within 64 and its background commands within 32,
every register field within its width, and the register store and the Reservoir's bytes in their canonical form. The model's choices and readings that
this rests on: log entry 12. -/
def Obligations.StepKeepsInvariant : Prop := ∀ s t : State, s.Inv → step s = .next t → t.Inv

/-- Every command of the table answers a next state from every state, none stops the device, and none touches the commands that wait behind it; no safe
action that a command fires is left for a later one. The model's choices and readings that this rests on: log entries 4, 5. -/
def Obligations.EveryCommandGoesOn : Prop :=
  (∀ s : State, s.StepSafe) ∧
  (∀ (s : State) (c : Instr), ∃ t, exec c s = .next t ∧ t.pending = s.pending ∧ (s.dev.ws.fire = [] → t.dev.ws.fire = []))

/-- R394: the timebase never goes backward, and starts from 0 at cold reset alone, where PWROK rises while the device is held in reset; it runs through a warm reset, a Headwater restart and every change of the core clock. In this model only an
idle step lets it run (log entry 2). -/
def Obligations.TimebaseRunsForward : Prop :=
  ∀ s t : State, step s = .next t →
    t.time = (if s.pending = [] then s.time + 4 else s.time) ∨
      (t.time = 0 ∧ s.dev.pwr.phase = .held ∧ ∃ a b c d e rest, s.pending = .pwrokRise a b c d e :: rest)
/-! ### Rules stated whole -/

/-- R501: at reset counters 0-1 of every unit are chained on code 0x01 and counters 2-3 on code 0x02, counter 4 counts code 0x40 with EVNUM 511, and the others are not enabled. -/
def Obligations.CountersAtReset : Prop := ∀ u : UnitId,
  (∀ j < 8, State.reset.fldn u F.GAU_EVSEL_EN j = if j = 0 ∨ j = 2 ∨ j = 4 then 1 else 0) ∧
    State.reset.fldn u F.GAU_EVSEL_CODE 0 = 0x01 ∧ State.reset.fldn u F.GAU_EVSEL_CODE 2 = 0x02 ∧ State.reset.fldn u F.GAU_EVSEL_CODE 4 = 0x40 ∧
    State.reset.fldn u F.GAU_EVSEL_EVNUM 4 = 511 ∧ isVolume 0x01 = true ∧ isVolume 0x02 = true

/-- R456: a write of DEV_RST_CMD whose KEY is not 0x5752 is ignored, whatever its KIND, and logged as EV115; with that key it acts. -/
def Obligations.ResetCommandKey : Prop :=
  (∀ (s : State) (m : Master) (key : BitVec 16) (c : Instr), key ≠ 0x5752 → c = .devRstCmdWarm m key ∨ c = .devRstCmdRestart m key → Room s →
    Completes c s fun t => Logged s t 115 ∧ t.dev.pwr = s.dev.pwr ∧ t.dev.hw = s.dev.hw ∧ t.dev.ws.faults = s.dev.ws.faults ∧ t.cmdq = s.cmdq ∧
      t.bg = s.bg ∧ t.mem = s.mem ∧ KeepRegs s t (notedPlaces .root)) ∧
  (∀ (s : State) (m : Master), s.mayWarm = true → Completes (.devRstCmdWarm m 0x5752) s fun t => t.dev.pwr.phase = .drain ∧ t.dev.pwr.warm = true) ∧
  (∀ (s : State) (m : Master), s.dev.pwr.phase = .run → s.dev.pwr.restart = false →
    Completes (.devRstCmdRestart m 0x5752) s fun t => t.dev.pwr.restart = true)

/-- R440: outside factory test mode a write of DEV_WS_INJ is ignored and logged as EV174; no fault opens and no safe action fires. -/
def Obligations.InjectionOnlyInFactoryTest : Prop :=
  ∀ (s : State) (m : Master) (v : BitVec 64), s.flag .root F.HW_STAT_FTM = false → Room s →
    Completes (.faultInjection m v) s fun t => Logged s t 174 ∧ t.dev.ws.faults = s.dev.ws.faults ∧ t.dev.ws.safe = s.dev.ws.safe ∧
      t.dev.ws.fenced = s.dev.ws.fenced ∧ t.dev.ws.contained = s.dev.ws.contained ∧ Notes .root (writing m s) t
end

