-- ==== Sys2Proof/Laws/Prog.lean ====
section
/-!
SUPPORT. Laws/Prog.lean: what running a program does, form by form, and the one induction over programs: what every
primitive update that a program can make keeps, the program keeps.
-/
namespace Sys2Proof.Machine

@[simp] theorem Prog.run_skip (s : State) : Prog.skip.run s = s := rfl
@[simp] theorem Prog.run_eff (e : Eff) (s : State) : (Prog.eff e).run s = e.apply s := rfl
@[simp] theorem Prog.run_seq (p q : Prog) (s : State) : (Prog.seq p q).run s = q.run (p.run s) := rfl
@[simp] theorem Prog.run_look (f : State → Prog) (s : State) : (Prog.look f).run s = (f s).run s := rfl
@[simp] theorem Prog.run_all_nil (s : State) : (Prog.all []).run s = s := rfl
@[simp] theorem Prog.run_all_cons (p : Prog) (l : List Prog) (s : State) :
    (Prog.all (p :: l)).run s = (Prog.all l).run (p.run s) := rfl
@[simp] theorem Prog.run_send (o : Out) (s : State) : (Prog.send o).run s = { s with out := s.out ++ [o] } := rfl
@[simp] theorem Prog.run_dev (f : Dev → Dev) (s : State) : (Prog.dev f).run s = { s with dev := f s.dev } := rfl
@[simp] theorem Prog.run_free (f : Nat → Prog) (s : State) :
    (Prog.free f).run s = (f s.fresh).run { s with fresh := s.fresh + 1 } := rfl
@[simp] theorem Prog.run_when (b : Bool) (p : Prog) (s : State) : (Prog.when b p).run s = if b then p.run s else s := by
  unfold Prog.when; split <;> rfl
@[simp] theorem Prog.run_cond (b : Bool) (p q : Prog) (s : State) :
    (Prog.cond b p q).run s = if b then p.run s else q.run s := by
  unfold Prog.cond; split <;> rfl
@[simp] theorem Prog.run_ite (c : Prop) [Decidable c] (p q : Prog) (s : State) :
    (if c then p else q).run s = if c then p.run s else q.run s := by split <;> rfl
@[simp] theorem Prog.run_opt_none {α : Type} (f : α → Prog) (s : State) : (Prog.opt none f).run s = s := rfl
@[simp] theorem Prog.run_opt_some {α : Type} (a : α) (f : α → Prog) (s : State) :
    (Prog.opt (some a) f).run s = (f a).run s := rfl
@[simp] theorem Prog.run_each_nil {α : Type} (f : α → Prog) (s : State) : (Prog.each [] f).run s = s := rfl
@[simp] theorem Prog.run_each_cons {α : Type} (a : α) (l : List α) (f : α → Prog) (s : State) :
    (Prog.each (a :: l) f).run s = (Prog.each l f).run ((f a).run s) := rfl

theorem Prog.run_all_append (l m : List Prog) (s : State) :
    (Prog.all (l ++ m)).run s = (Prog.all m).run ((Prog.all l).run s) := by
  induction l generalizing s with
  | nil => rfl
  | cons p l ih => exact ih (p.run s)

/-- Every primitive update that a program can make, in whatever state it looks at, satisfies a test. -/
inductive Prog.Only (ok : Eff → Prop) : Prog → Prop where
  | skip : Prog.Only ok .skip
  | eff {e : Eff} (h : ok e) : Prog.Only ok (.eff e)
  | seq {p q : Prog} (hp : Prog.Only ok p) (hq : Prog.Only ok q) : Prog.Only ok (.seq p q)
  | look {f : State → Prog} (h : ∀ s, Prog.Only ok (f s)) : Prog.Only ok (.look f)

variable {ok : Eff → Prop}

theorem Prog.Only.all {l : List Prog} (h : ∀ p ∈ l, Prog.Only ok p) : Prog.Only ok (Prog.all l) := by
  induction l with
  | nil => exact .skip
  | cons p l ih => exact .seq (h p (by simp)) (ih fun q hq => h q (by simp [hq]))

theorem Prog.Only.when {b : Bool} {p : Prog} (h : b = true → Prog.Only ok p) : Prog.Only ok (Prog.when b p) := by
  unfold Prog.when; split
  · next hb => exact h hb
  · exact .skip

theorem Prog.Only.cond {b : Bool} {p q : Prog} (hp : Prog.Only ok p) (hq : Prog.Only ok q) :
    Prog.Only ok (Prog.cond b p q) := by
  unfold Prog.cond; split <;> assumption

theorem Prog.Only.each {α : Type} {l : List α} {f : α → Prog} (h : ∀ a ∈ l, Prog.Only ok (f a)) :
    Prog.Only ok (Prog.each l f) :=
  .all fun p hp => by obtain ⟨a, ha, rfl⟩ := List.mem_map.mp hp; exact h a ha

theorem Prog.Only.opt {α : Type} {o : Option α} {f : α → Prog} (h : ∀ a, Prog.Only ok (f a)) :
    Prog.Only ok (Prog.opt o f) := by
  cases o
  · exact .skip
  · exact h _

theorem Prog.Only.loop {n : Nat} {c : State → Bool} {p : Prog} (h : Prog.Only ok p) : Prog.Only ok (Prog.loop n c p) := by
  induction n with
  | zero => exact .skip
  | succ n ih =>
    refine .look fun s => ?_
    split
    · exact .seq h ih
    · exact .skip

theorem Prog.Only.free {f : Nat → Prog} (hf : ok .fresh) (h : ∀ n, Prog.Only ok (f n)) : Prog.Only ok (Prog.free f) :=
  .look fun s => .seq (.eff hf) (h s.fresh)

theorem Prog.Only.mono {ok' : Eff → Prop} {p : Prog} (hp : Prog.Only ok p) (h : ∀ e, ok e → ok' e) :
    Prog.Only ok' p := by
  induction hp with
  | skip => exact .skip
  | eff he => exact .eff (h _ he)
  | seq _ _ ihp ihq => exact .seq ihp ihq
  | look _ ih => exact .look ih

/-- What every allowed update keeps, a program of allowed updates keeps. -/
theorem Prog.Only.keeps {p : Prog} (hp : Prog.Only ok p) {P : State → Prop}
    (h : ∀ e s, ok e → P s → P (e.apply s)) (s : State) (hs : P s) : P (p.run s) := by
  induction hp generalizing s with
  | skip => exact hs
  | eff he => exact h _ _ he hs
  | seq _ _ ihp ihq => exact ihq _ (ihp _ hs)
  | look _ ih => exact ih s s hs

/-- What every allowed update leaves the same, a program of allowed updates leaves the same. -/
theorem Prog.Only.same {α : Type} {p : Prog} (hp : Prog.Only ok p) (g : State → α)
    (h : ∀ e s, ok e → g (e.apply s) = g s) (s : State) : g (p.run s) = g s :=
  hp.keeps (P := fun t => g t = g s) (fun e t he ht => (h e t he).trans ht) s rfl

/-- Every program makes only primitive updates. -/
theorem Prog.only_true (p : Prog) : Prog.Only (fun _ => True) p := by
  induction p with
  | skip => exact .skip
  | eff e => exact .eff trivial
  | seq p q hp hq => exact .seq hp hq
  | look f h => exact .look h

/-- What every primitive update keeps, every program keeps. -/
theorem Prog.run_keeps {P : State → Prop} (h : ∀ (e : Eff) (s : State), P s → P (e.apply s)) (p : Prog) (s : State) (hs : P s) :
    P (p.run s) :=
  p.only_true.keeps (fun e t _ => h e t) s hs

end Sys2Proof.Machine
end

