-- ==== Sys2Proof/Laws/Tab.lean ====
section
/-!
SUPPORT. Laws/Tab.lean: what a table's operations do: read after write, and that each keeps the keys rising.
-/
namespace Sys2Proof.Machine

@[simp] theorem Tab.get?_put_same {α : Type} (t : Tab α) (i : Nat) (v : α) : Tab.get? (Tab.put t i v) i = some v := by
  induction t with
  | nil => simp [Tab.put, Tab.get?]
  | cons e t ih =>
    obtain ⟨k, w⟩ := e
    simp only [Tab.put]
    split
    · simp [Tab.get?]
    · split
      · simp [Tab.get?]
      · next h1 h2 => simp [Tab.get?, h2, ih]

theorem Tab.get?_put_other {α : Type} (t : Tab α) (i j : Nat) (v : α) (h : j ≠ i) :
    Tab.get? (Tab.put t i v) j = Tab.get? t j := by
  induction t with
  | nil => simp [Tab.put, Tab.get?, h]
  | cons e t ih =>
    obtain ⟨k, w⟩ := e
    simp only [Tab.put]
    split
    · simp [Tab.get?, h]
    · split
      · next h1 h2 => subst h2; simp [Tab.get?, h]
      · simp [Tab.get?, ih]

@[simp] theorem Tab.get?_erase_same {α : Type} (t : Tab α) (i : Nat) : Tab.get? (Tab.erase t i) i = none := by
  induction t with
  | nil => rfl
  | cons e t ih =>
    obtain ⟨k, w⟩ := e
    by_cases h : k = i
    · simpa [Tab.erase, h] using ih
    · have h' : i ≠ k := fun e => h e.symm
      simpa [Tab.erase, h, h', Tab.get?] using ih

theorem Tab.get?_erase_other {α : Type} (t : Tab α) (i j : Nat) (h : j ≠ i) :
    Tab.get? (Tab.erase t i) j = Tab.get? t j := by
  induction t with
  | nil => rfl
  | cons e t ih =>
    obtain ⟨k, w⟩ := e
    by_cases hk : k = i
    · subst hk; simpa [Tab.erase, Tab.get?, h] using ih
    · by_cases hj : j = k
      · simp [Tab.erase, Tab.get?, hk, hj]
      · simpa [Tab.erase, Tab.get?, hk, hj] using ih

@[simp] theorem Tab.getD_setD_same {α : Type} [DecidableEq α] (t : Tab α) (d : α) (i : Nat) (v : α) :
    Tab.getD (Tab.setD t d i v) i d = v := by
  unfold Tab.setD
  split
  · next h => simp [Tab.getD, h]
  · simp [Tab.getD]

theorem Tab.getD_setD_other {α : Type} [DecidableEq α] (t : Tab α) (d e : α) (i j : Nat) (v : α) (h : j ≠ i) :
    Tab.getD (Tab.setD t d i v) j e = Tab.getD t j e := by
  unfold Tab.setD
  split
  · simp [Tab.getD, Tab.get?_erase_other _ _ _ h]
  · simp [Tab.getD, Tab.get?_put_other _ _ _ _ h]

theorem Tab.risingFrom_mono {α : Type} (t : Tab α) (a b : Nat) (h : a ≤ b) (ht : Tab.risingFrom b t = true) :
    Tab.risingFrom a t = true := by
  cases t with
  | nil => rfl
  | cons e t =>
    obtain ⟨k, w⟩ := e
    simp only [Tab.risingFrom, Bool.and_eq_true, decide_eq_true_eq] at ht ⊢
    exact ⟨by omega, ht.2⟩

theorem Tab.risingFrom_put {α : Type} (t : Tab α) (b i : Nat) (v : α) (hb : b ≤ i) (h : Tab.risingFrom b t = true) :
    Tab.risingFrom b (Tab.put t i v) = true := by
  induction t generalizing b with
  | nil => simp [Tab.put, Tab.risingFrom, hb]
  | cons e t ih =>
    obtain ⟨k, w⟩ := e
    simp only [Tab.risingFrom, Bool.and_eq_true, decide_eq_true_eq] at h
    simp only [Tab.put]
    split
    · next hlt => simp only [Tab.risingFrom, Bool.and_eq_true, decide_eq_true_eq]; exact ⟨hb, by omega, h.2⟩
    · split
      · next h1 h2 => subst h2; simp only [Tab.risingFrom, Bool.and_eq_true, decide_eq_true_eq]; exact ⟨hb, h.2⟩
      · simp only [Tab.risingFrom, Bool.and_eq_true, decide_eq_true_eq]; exact ⟨h.1, ih (k + 1) (by omega) h.2⟩

theorem Tab.risingFrom_filter {α : Type} (t : Tab α) (b : Nat) (p : Nat × α → Bool) (h : Tab.risingFrom b t = true) :
    Tab.risingFrom b (t.filter p) = true := by
  induction t generalizing b with
  | nil => rfl
  | cons e t ih =>
    obtain ⟨k, w⟩ := e
    simp only [Tab.risingFrom, Bool.and_eq_true, decide_eq_true_eq] at h
    simp only [List.filter_cons]
    split
    · simp only [Tab.risingFrom, Bool.and_eq_true, decide_eq_true_eq]; exact ⟨h.1, ih (k + 1) h.2⟩
    · exact Tab.risingFrom_mono _ _ _ (by omega) (ih (k + 1) h.2)

theorem Tab.risingFrom_map {α : Type} (t : Tab α) (b : Nat) (f : Nat × α → α) (h : Tab.risingFrom b t = true) :
    Tab.risingFrom b (t.map fun e => (e.1, f e)) = true := by
  induction t generalizing b with
  | nil => rfl
  | cons e t ih =>
    obtain ⟨k, w⟩ := e
    simp only [Tab.risingFrom, Bool.and_eq_true, decide_eq_true_eq] at h
    simp only [List.map_cons, Tab.risingFrom, Bool.and_eq_true, decide_eq_true_eq]
    exact ⟨h.1, ih (k + 1) h.2⟩

theorem Tab.wf_put {α : Type} (t : Tab α) (i : Nat) (v : α) (h : Tab.wf t = true) : Tab.wf (Tab.put t i v) = true :=
  Tab.risingFrom_put t 0 i v (Nat.zero_le _) h

theorem Tab.wf_erase {α : Type} (t : Tab α) (i : Nat) (h : Tab.wf t = true) : Tab.wf (Tab.erase t i) = true :=
  Tab.risingFrom_filter t 0 _ h

theorem Tab.wf_keep {α : Type} (t : Tab α) (p : Nat → α → Bool) (h : Tab.wf t = true) : Tab.wf (Tab.keep t p) = true :=
  Tab.risingFrom_filter t 0 _ h

theorem Tab.wf_setD {α : Type} [DecidableEq α] (t : Tab α) (d : α) (i : Nat) (v : α) (h : Tab.wf t = true) :
    Tab.wf (Tab.setD t d i v) = true := by
  unfold Tab.setD; split
  · exact Tab.wf_erase t i h
  · exact Tab.wf_put t i v h

end Sys2Proof.Machine
end

