-- ==== Sys2Proof/Laws/Regs.lean ====
section
/-!
SUPPORT. Laws/Regs.lean: the places of register fields: no two units share a place, and a field reads what was set last.
-/
namespace Sys2Proof.Machine

/-- The bytes of a unit's own block that no other unit's block covers (R542). -/
def unitSize : UnitId → Nat
  | .root => 0x01000000
  | .engine _ | .stack _ | .quadrant _ => 0x00100000
  | .pc _ _ | .inst _ => 0x00010000
  | .slot _ => 0x1000
  | .port _ => 0x00020000
  | .group _ => 0x00080000
  | .lane _ => 0x2000

theorem fin?_val {n : Nat} (i : Fin n) : fin? n i.val = some i := by simp [fin?]

/-- A field and an entry of it lie in a unit's block, and the field in a 64-bit register. -/
def Fld.fits (f : Fld) (u : UnitId) (n : Nat) : Bool :=
  decide (f.off + n * f.stride < unitSize u) && decide (f.lo < 64) && decide (1 ≤ f.w) && decide (f.w ≤ 64)

theorem keyWidth_placeKey (b : Nat) (f : Fld) (n : Nat) (h1 : 1 ≤ f.w) (h2 : f.w ≤ 64) :
    keyWidth (placeKey b f n) = f.w := by
  unfold keyWidth placeKey; omega

theorem keyWidth_fkey (u : UnitId) (f : Fld) (n : Nat) (h1 : 1 ≤ f.w) (h2 : f.w ≤ 64) : keyWidth (fkey u f n) = f.w :=
  keyWidth_placeKey _ f n h1 h2

/-- Two fields of one unit are at one place only where their places in the block agree. -/
theorem fkey_same_unit (u : UnitId) (f g : Fld) (n m : Nat) :
    fkey u f n = fkey u g m ↔ placeKey 0 f n = placeKey 0 g m := by
  unfold fkey placeKey; omega

theorem fin?_eq {n v : Nat} (i : Fin n) (h : v = i.val) : fin? n v = some i := by subst h; exact fin?_val i

/-- Every unit's own addresses are its own (R542). -/
theorem unitAt_of_base (u : UnitId) (o a : Nat) (h : o < unitSize u) (ha : a = unitBase u + o) :
    unitAt a = some (u, o) := by
  unfold unitAt
  cases u with
  | root =>
    simp only [unitSize, unitBase] at h ha
    rw [if_pos (by omega)]
    have : a = o := by omega
    rw [this]
  | engine e =>
    have he := e.isLt
    simp only [unitSize, unitBase] at h ha
    rw [if_neg (by omega), if_pos (by omega), fin?_eq e (by omega), Option.map_some]
    have : (a - 0x01000000) % 0x00100000 = o := by omega
    rw [this]
  | stack e =>
    have he := e.isLt
    simp only [unitSize, unitBase] at h ha
    rw [if_neg (by omega), if_neg (by omega), if_pos (by omega), fin?_eq e (by omega)]
    have h2 : (a - 0x02000000) % 0x00400000 = o := by omega
    dsimp only
    rw [h2, if_pos h]
  | pc s c =>
    have hs := s.isLt
    have hc := c.isLt
    simp only [unitSize, unitBase] at h ha
    rw [if_neg (by omega), if_neg (by omega), if_pos (by omega), fin?_eq s (by omega)]
    dsimp only
    rw [if_neg (by omega), fin?_eq c (by omega), Option.map_some]
    have : (a - 0x02000000) % 0x00400000 % 0x00010000 = o := by omega
    rw [this]
  | slot k =>
    have hk := k.isLt
    simp only [unitSize, unitBase] at h ha
    rw [if_neg (by omega), if_neg (by omega), if_neg (by omega), if_pos (by omega), fin?_eq k (by omega), Option.map_some]
    have : a % 0x1000 = o := by omega
    rw [this]
  | quadrant k =>
    have hk := k.isLt
    simp only [unitSize, unitBase] at h ha
    rw [if_neg (by omega), if_neg (by omega), if_neg (by omega), if_neg (by omega), if_pos (by omega), fin?_eq k (by omega),
      Option.map_some]
    have : a % 0x00100000 = o := by omega
    rw [this]
  | group g =>
    have hg := g.isLt
    simp only [unitSize, unitBase, portBase] at h ha
    rw [if_neg (by omega), if_neg (by omega), if_neg (by omega), if_neg (by omega), if_neg (by omega), if_pos (by omega),
      fin?_eq g (by omega)]
    dsimp only
    rw [if_neg (by omega), if_pos (by omega)]
    have : (a - 0x08000000) % 0x00200000 - 0x00080000 = o := by omega
    rw [this]
  | port pt =>
    obtain ⟨g, p⟩ := pt
    have hg := g.isLt
    have hp := p.isLt
    simp only [unitSize, unitBase, portBase] at h ha
    rw [if_neg (by omega), if_neg (by omega), if_neg (by omega), if_neg (by omega), if_neg (by omega), if_pos (by omega),
      fin?_eq g (by omega)]
    have h1 : (a - 0x08000000) % 0x00200000 % 0x00040000 = o := by omega
    have h2 : (a - 0x08000000) % 0x00200000 / 0x00040000 % 2 = p.val := by omega
    dsimp only
    have h3 : ¬(0x00020000 ≤ (a - 0x08000000) % 0x00200000 % 0x00040000 ∧ (a - 0x08000000) % 0x00200000 % 0x00040000 < 0x00030000) := by
      omega
    rw [if_pos (by omega), if_neg h3, h1]
    simp only [h2]
  | lane ln =>
    obtain ⟨⟨g, p⟩, l⟩ := ln
    have hg := g.isLt
    have hp := p.isLt
    have hl := l.isLt
    simp only [unitSize, unitBase, portBase] at h ha
    rw [if_neg (by omega), if_neg (by omega), if_neg (by omega), if_neg (by omega), if_neg (by omega), if_pos (by omega),
      fin?_eq g (by omega)]
    have h2 : (a - 0x08000000) % 0x00200000 / 0x00040000 % 2 = p.val := by omega
    have h3 : ((a - 0x08000000) % 0x00200000 % 0x00040000 - 0x00020000) / 0x00002000 % 8 = l.val := by omega
    have h4 : (a - 0x08000000) % 0x00200000 % 0x00040000 % 0x00002000 = o := by omega
    dsimp only
    rw [if_pos (by omega)]
    have h5 : 0x00020000 ≤ (a - 0x08000000) % 0x00200000 % 0x00040000 ∧ (a - 0x08000000) % 0x00200000 % 0x00040000 < 0x00030000 := by
      omega
    rw [if_pos h5, h4]
    simp only [h2, h3]
  | inst i =>
    have hi := i.isLt
    simp only [unitSize, unitBase] at h ha
    rw [if_neg (by omega), if_neg (by omega), if_neg (by omega), if_neg (by omega), if_neg (by omega), if_neg (by omega),
      if_pos (by omega), fin?_eq i (by omega), Option.map_some]
    have : a % 0x00010000 = o := by omega
    rw [this]

/-- Two fields are at one place only in one unit and at one place of its block. -/
theorem fkey_inj (u v : UnitId) (f g : Fld) (n m : Nat) (hf : f.fits u n = true) (hg : g.fits v m = true)
    (h : fkey u f n = fkey v g m) :
    u = v ∧ f.off + n * f.stride = g.off + m * g.stride ∧ f.lo = g.lo ∧ f.w = g.w := by
  simp only [Fld.fits, Bool.and_eq_true, decide_eq_true_eq] at hf hg
  obtain ⟨⟨⟨hf1, hf2⟩, hf3⟩, hf4⟩ := hf
  obtain ⟨⟨⟨hg1, hg2⟩, hg3⟩, hg4⟩ := hg
  simp only [fkey, placeKey] at h
  have ha : unitBase u + (f.off + n * f.stride) = unitBase v + (g.off + m * g.stride) := by omega
  have hu := unitAt_of_base u _ _ hf1 rfl
  rw [unitAt_of_base v _ _ hg1 ha] at hu
  simp only [Option.some.injEq, Prod.mk.injEq] at hu
  exact ⟨hu.1.symm, hu.2.symm, by omega, by omega⟩

/-- Fields of different units are at different places. -/
theorem fkey_ne_of_unit (u v : UnitId) (f g : Fld) (n m : Nat) (hf : f.fits u n = true) (hg : g.fits v m = true)
    (h : u ≠ v) : fkey u f n ≠ fkey v g m :=
  fun e => h (fkey_inj u v f g n m hf hg e).1

/-- Fields at different places of their blocks are at different places. -/
theorem fkey_ne_of_off (u v : UnitId) (f g : Fld) (n m : Nat) (hf : f.fits u n = true) (hg : g.fits v m = true)
    (h : f.off + n * f.stride ≠ g.off + m * g.stride) : fkey u f n ≠ fkey v g m :=
  fun e => h (fkey_inj u v f g n m hf hg e).2.1

/-! ### Reading what was set -/

theorem State.fldn_setn_same (s : State) (u : UnitId) (f : Fld) (n v : Nat) (h1 : 1 ≤ f.w) (h2 : f.w ≤ 64) :
    ((Prog.setn u f n v).run s).fldn u f n = v % 2 ^ f.w := by
  simp [Prog.setn, State.fldn, Tab.getD, Eff.apply, keyWidth_fkey u f n h1 h2]

theorem State.fldn_setn_other (s : State) (u w : UnitId) (f g : Fld) (n m v : Nat) (h : fkey w g m ≠ fkey u f n) :
    ((Prog.setn u f n v).run s).fldn w g m = s.fldn w g m := by
  simp [Prog.setn, State.fldn, Tab.getD, Eff.apply, Tab.get?_put_other _ _ _ _ h]

theorem State.fld_set_same (s : State) (u : UnitId) (f : Fld) (v : Nat) (h1 : 1 ≤ f.w) (h2 : f.w ≤ 64) :
    ((Prog.set u f v).run s).fld u f = v % 2 ^ f.w := s.fldn_setn_same u f 0 v h1 h2

theorem State.fld_set_other (s : State) (u w : UnitId) (f g : Fld) (v : Nat) (h : fkey w g 0 ≠ fkey u f 0) :
    ((Prog.set u f v).run s).fld w g = s.fld w g := s.fldn_setn_other u w f g 0 0 v h

/-- A field reads the same where the register store is the same at its place. -/
theorem State.fldn_congr (s t : State) (u : UnitId) (f : Fld) (n : Nat)
    (h : Tab.get? t.regs (fkey u f n) = Tab.get? s.regs (fkey u f n)) : t.fldn u f n = s.fldn u f n := by
  simp [State.fldn, Tab.getD, h]

end Sys2Proof.Machine
end

