-- ==== Sys2Proof/Laws/Events.lean ====
section
/-!
SUPPORT. Laws/Events.lean: everything that counting an occurrence and raising an event can do.
-/
namespace Sys2Proof.Machine

/-- The place of a Gauge counter or overflow field of a unit. -/
def isGaugeKey (u : UnitId) (k : Nat) : Prop := (∃ j, j ≤ 8 ∧ k = fkey u F.GAU_CNT_COUNT j) ∨ k = fkey u F.GAU_OVF_OVF 0

/-- The updates that counting at a unit makes: its own counters. -/
def Eff.counts (u : UnitId) : Eff → Prop
  | .reg k _ => isGaugeKey u k
  | _ => False

/-- The updates that raising an event at a unit makes: its counters and the root's, the place of the next history entry, the history,
Watershed, and the records for a host. -/
def Eff.raises (u : UnitId) : Eff → Prop
  | .reg k _ => isGaugeKey u k ∨ isGaugeKey .root k ∨ k = fkey .root F.DEV_WS_HEAD_NEXT_SEQ 0 ∨ k = fkey .root F.DEV_WS_HEAD_OVW 0
  | .hist _ => True
  | .dev f => ∀ d, f d = { d with ws := (f d).ws, ports := { d.ports with records := (f d).ports.records } }
  | _ => False

theorem Eff.counts_raises {u : UnitId} (e : Eff) (h : e.counts u) : e.raises u := by
  cases e <;> first | exact False.elim h | exact .inl h

theorem Eff.counts_root {u : UnitId} (e : Eff) (h : e.counts .root) : e.raises u := by
  cases e <;> first | exact False.elim h | exact .inr (.inl h)

theorem gaugeAdd_only (u : UnitId) (j code n : Nat) (hj : j < 8) : Prog.Only (Eff.counts u) (gaugeAdd u j code n) := by
  refine .look fun s => ?_
  split
  · refine .all fun p hp => ?_
    simp only [List.mem_cons, List.not_mem_nil, or_false] at hp
    obtain rfl | rfl | rfl := hp
    · exact .eff (.inl ⟨j, by omega, rfl⟩)
    · exact .eff (.inl ⟨j + 1, by omega, rfl⟩)
    · exact .when fun _ => .eff (.inr rfl)
  · refine .all fun p hp => ?_
    simp only [List.mem_cons, List.not_mem_nil, or_false] at hp
    obtain rfl | rfl := hp
    · exact .eff (.inl ⟨j, by omega, rfl⟩)
    · exact .when fun _ => .eff (.inr rfl)

theorem gaugeCount_only (u : UnitId) (code : Nat) (cls : Option Cls) (ev n : Nat) :
    Prog.Only (Eff.counts u) (gaugeCount u code cls ev n) :=
  .look fun _ => .when fun _ => .each fun j hj => .look fun _ => .when fun _ => gaugeAdd_only u j code n (by simpa using hj)

theorem histAppend_only (u : UnitId) (n : Nat) (e : HistEntry) : Prog.Only (Eff.raises u) (histAppend n e) := by
  induction n generalizing e with
  | zero => exact .skip
  | succ n ih =>
    refine .look fun s => .all fun p hp => ?_
    simp only [List.mem_cons, List.not_mem_nil, or_false] at hp
    obtain rfl | rfl | rfl := hp
    · exact .eff trivial
    · exact .eff (.inr (.inr (.inl rfl)))
    · refine .when fun _ => .all fun p hp => ?_
      simp only [List.mem_cons, List.not_mem_nil, or_false] at hp
      obtain rfl | rfl | rfl := hp
      · exact .look fun _ => .eff (.inr (.inr (.inr rfl)))
      · exact (gaugeCount_only .root _ _ _ _).mono fun e h => e.counts_root h
      · exact ih _

theorem ws_raises (u : UnitId) (f : Watershed → Watershed) : Prog.Only (Eff.raises u) (Prog.ws f) := .eff fun _ => rfl

theorem raiseCore_only (ev : Nat) (u : UnitId) (lk arg : Nat) : Prog.Only (Eff.raises u) (raiseCore ev u lk arg) := by
  refine .look fun s => .all fun p hp => ?_
  simp only [List.mem_cons, List.not_mem_nil, or_false] at hp
  obtain rfl | rfl | rfl | rfl := hp
  · refine .when fun _ => .all fun p hp => ?_
    simp only [List.mem_cons, List.not_mem_nil, or_false] at hp
    obtain rfl | rfl := hp
    · exact ws_raises u _
    · exact histAppend_only u _ _
  all_goals exact .when fun _ => ws_raises u _

theorem relayEvent_only (ev : Nat) (u : UnitId) (arg : Nat) : Prog.Only (Eff.raises u) (relayEvent ev u arg) := by
  unfold relayEvent
  split
  · exact .when fun _ => .eff fun _ => rfl
  · exact .skip

/-- Raising an event makes only the updates of `Eff.raises`. -/
theorem raiseLim_only (ev : Nat) (u : UnitId) (lk arg : Nat) : Prog.Only (Eff.raises u) (raiseLim ev u lk arg) := by
  refine .look fun s => .all fun p hp => ?_
  simp only [List.mem_cons, List.not_mem_nil, or_false] at hp
  obtain rfl | rfl | rfl | rfl := hp
  · exact (gaugeCount_only _ _ _ _ _).mono fun e h => e.counts_raises h
  · exact raiseCore_only _ _ _ _
  · exact relayEvent_only _ _ _
  · exact .look fun _ => .when fun _ => raiseCore_only _ _ _ _

theorem raise_only (ev : Nat) (u : UnitId) (arg : Nat) : Prog.Only (Eff.raises u) (raise ev u arg) := raiseLim_only ..

/-- Counting an occurrence makes only the updates of `Eff.raises`: the overflow of a counter raises EV196. -/
theorem gauge_only (u : UnitId) (code : Nat) (cls : Option Cls) (n : Nat) : Prog.Only (Eff.raises u) (gauge u code cls n) := by
  refine .look fun s => .all fun p hp => ?_
  simp only [List.mem_cons, List.not_mem_nil, or_false] at hp
  obtain rfl | rfl := hp
  · exact (gaugeCount_only _ _ _ _ _).mono fun e h => e.counts_raises h
  · exact .look fun _ => .when fun _ => raise_only _ _ _

/-- A field whose place in its unit's block is no Gauge counter's is at no Gauge counter's place. -/
theorem fkey_not_gauge (u v : UnitId) (f : Fld) (n : Nat) (hf : f.fits v n = true)
    (h : f.off + n * f.stride < 0x804 ∨ 0x850 < f.off + n * f.stride) : ¬isGaugeKey u (fkey v f n) := by
  have hs : 0x1000 ≤ unitSize u := by cases u <;> simp only [unitSize] <;> omega
  rintro (⟨j, hj, hk⟩ | hk)
  · refine fkey_ne_of_off v u f F.GAU_CNT_COUNT n j hf ?_ ?_ hk
    · have : F.GAU_CNT_COUNT.off + j * F.GAU_CNT_COUNT.stride < unitSize u := by simp only [F.GAU_CNT_COUNT]; omega
      simp only [Fld.fits, this, decide_true]; decide
    · simp only [F.GAU_CNT_COUNT]; omega
  · refine fkey_ne_of_off v u f F.GAU_OVF_OVF n 0 hf ?_ ?_ hk
    · have : F.GAU_OVF_OVF.off + 0 * F.GAU_OVF_OVF.stride < unitSize u := by simp only [F.GAU_OVF_OVF]; omega
      simp only [Fld.fits, this, decide_true]; decide
    · simp only [F.GAU_OVF_OVF]; omega

/-! ### What raising leaves the same -/

section
variable {u : UnitId} {p : Prog} (hp : Prog.Only (Eff.raises u) p) (s : State)
include hp

theorem raises_mem : (p.run s).mem = s.mem :=
  hp.same State.mem (fun e t he => by cases e <;> first | rfl | exact he.elim) s
theorem raises_out : (p.run s).out = s.out :=
  hp.same State.out (fun e t he => by cases e <;> first | rfl | exact he.elim) s
theorem raises_time : (p.run s).time = s.time :=
  hp.same State.time (fun e t he => by cases e <;> first | rfl | exact he.elim) s
theorem raises_fresh : (p.run s).fresh = s.fresh :=
  hp.same State.fresh (fun e t he => by cases e <;> first | rfl | exact he.elim) s
theorem raises_cmdq : (p.run s).cmdq = s.cmdq :=
  hp.same State.cmdq (fun e t he => by cases e <;> first | rfl | exact he.elim) s
theorem raises_bg : (p.run s).bg = s.bg :=
  hp.same State.bg (fun e t he => by cases e <;> first | rfl | exact he.elim) s
theorem raises_pending : (p.run s).pending = s.pending :=
  hp.same State.pending (fun e t he => by cases e <;> first | rfl | exact he.elim) s

/-- Raising leaves a register field that is no Gauge counter and not the place of the next history entry. -/
theorem raises_reg (k : Nat) (h1 : ¬isGaugeKey u k) (h2 : ¬isGaugeKey .root k) (h3 : k ≠ fkey .root F.DEV_WS_HEAD_NEXT_SEQ 0)
    (h4 : k ≠ fkey .root F.DEV_WS_HEAD_OVW 0) : Tab.get? (p.run s).regs k = Tab.get? s.regs k := by
  refine hp.same (fun t => Tab.get? t.regs k) (fun e t he => ?_) s
  cases e with
  | reg k' v =>
    have hk : k ≠ k' := by
      rintro rfl
      obtain h | h | h | h := he
      · exact h1 h
      · exact h2 h
      · exact h3 h
      · exact h4 h
    exact Tab.get?_put_other _ _ _ _ hk
  | hist e => rfl
  | dev f => rfl
  | _ => exact he.elim

/-- Raising leaves every register field that is neither a Gauge counter nor in DEV_WS_HEAD. -/
theorem raises_fldn (v : UnitId) (f : Fld) (n : Nat) (hf : f.fits v n = true)
    (h : f.off + n * f.stride < 0x804 ∨ (0x850 < f.off + n * f.stride ∧ f.off + n * f.stride ≠ 0x4a08)) :
    (p.run s).fldn v f n = s.fldn v f n := by
  refine State.fldn_congr s _ v f n (raises_reg hp s _ (fkey_not_gauge u v f n hf (by omega)) (fkey_not_gauge .root v f n hf (by omega))
    ?_ ?_)
  · exact fkey_ne_of_off v .root f _ n 0 hf (by decide) (by simp only [F.DEV_WS_HEAD_NEXT_SEQ]; omega)
  · exact fkey_ne_of_off v .root f _ n 0 hf (by decide) (by simp only [F.DEV_WS_HEAD_OVW]; omega)

/-- Raising changes Watershed and the records for a host, and no other part of the units' state. -/
theorem raises_dev : ∃ w r, (p.run s).dev = { s.dev with ws := w, ports := { s.dev.ports with records := r } } := by
  refine hp.keeps (P := fun t => ∃ w r, t.dev = { s.dev with ws := w, ports := { s.dev.ports with records := r } })
    (fun e t he ht => ?_) s ⟨s.dev.ws, s.dev.ports.records, rfl⟩
  obtain ⟨w, r, ht⟩ := ht
  cases e with
  | reg k v => exact ⟨w, r, ht⟩
  | hist e => exact ⟨w, r, ht⟩
  | dev f => exact ⟨(f t.dev).ws, (f t.dev).ports.records, by
      have h : (Eff.apply (.dev f) t).dev = f t.dev := rfl
      rw [h, he t.dev, ht]⟩
  | _ => exact he.elim

end

end Sys2Proof.Machine
end

