-- ==== Sys2Proof/Laws/Act.lean ====
section
/-!
SUPPORT. Laws/Act.lean: the wrap of a command, and what an event of level L0 leaves the same: no safe action fires, and no fault opens.
-/
namespace Sys2Proof.Machine

/-- The state in which a command's program runs: nothing is sent yet, and no safe action has fired. -/
def State.started (s : State) : State :=
  { s with
    out := []
    dev := { s.dev with ws := { s.dev.ws with fire := [] } } }

theorem Prog.run_start (s : State) : Prog.start.run s = s.started := rfl

theorem quiet_eq (p : Prog) (s : State) : quiet p s = .next (p.run { s with out := [] }) := rfl

theorem fireLoop_nil (n : Nat) (s : State) (h : s.dev.ws.fire = []) : (fireLoop n).run s = s := by
  cases n with
  | zero =>
    have : { s.dev.ws with fire := [] } = s.dev.ws := by rw [← h]
    simp only [fireLoop, Prog.ws, Prog.run_dev, this]
  | succ n => simp only [fireLoop, Prog.run_look, h, Prog.run_skip]

/-- The loop over the safe actions that have fired ends with none left. -/
theorem fireLoop_fire (n : Nat) (s : State) : ((fireLoop n).run s).dev.ws.fire = [] := by
  induction n generalizing s with
  | zero => rfl
  | succ n ih =>
    simp only [fireLoop, Prog.run_look]
    cases h : s.dev.ws.fire with
    | nil => simpa using h
    | cons f l => exact ih _

/-- A command after which no safe action has fired does what its program does. -/
theorem act_eq (p : Prog) (s : State) (h : (p.run s.started).dev.ws.fire = []) : act p s = .next (p.run s.started) := by
  simp only [act, Prog.run_all_cons, Prog.run_all_nil, Prog.run_start, fireAll, fireLoop_nil _ _ h]

/-- A command answers a next state, in which no safe action is left to run. -/
theorem act_next (p : Prog) (s : State) : ∃ t, act p s = .next t ∧ t.dev.ws.fire = [] :=
  ⟨_, rfl, fireLoop_fire 256 _⟩

/-- The updates that an event of level L0 makes: those of `Eff.raises` that leave Watershed but for its rate limits. -/
def Eff.notes (u : UnitId) : Eff → Prop
  | .dev f => ∀ d, f d = { d with
      ws := { d.ws with stamps := (f d).ws.stamps, supp := (f d).ws.supp }
      ports := { d.ports with records := (f d).ports.records } }
  | e => e.raises u

theorem Eff.notes_raises {u : UnitId} (e : Eff) (h : e.notes u) : e.raises u := by
  cases e with
  | dev f => intro d; rw [h d]
  | _ => exact h

theorem Eff.counts_notes {u : UnitId} (e : Eff) (h : e.counts u) : e.notes u := by
  cases e <;> first | exact False.elim h | exact .inl h

theorem Eff.counts_root_notes {u : UnitId} (e : Eff) (h : e.counts .root) : e.notes u := by
  cases e <;> first | exact False.elim h | exact .inr (.inl h)

theorem histAppend_notes (u : UnitId) (n : Nat) (e : HistEntry) : Prog.Only (Eff.notes u) (histAppend n e) := by
  induction n generalizing e with
  | zero => exact .skip
  | succ n ih =>
    refine .look fun s => .all fun p hp => ?_
    simp only [List.mem_cons, List.not_mem_nil, or_false] at hp
    obtain rfl | rfl | rfl := hp
    · exact .eff trivial
    · exact .eff (.inr (.inr (.inl rfl)))
    · refine .when fun _ => .all fun p hp => ?_
      simp only [List.mem_cons, List.not_mem_nil, or_false] at hp
      obtain rfl | rfl | rfl := hp
      · exact .look fun _ => .eff (.inr (.inr (.inr rfl)))
      · exact (gaugeCount_only .root _ _ _ _).mono fun e h => e.counts_root_notes h
      · exact ih _

theorem State.filing_L0 (s : State) (ev : Nat) (u : UnitId) (lk : Nat) (h : eventLevel ev u = 0) :
    (s.filing ev u lk).level = 0 := by
  simp [State.filing, h]

theorem raiseCore_notes (ev : Nat) (u : UnitId) (lk arg : Nat) (h : eventLevel ev u = 0) :
    Prog.Only (Eff.notes u) (raiseCore ev u lk arg) := by
  refine .look fun s => ?_
  have hl := s.filing_L0 ev u lk h
  refine .all fun p hp => ?_
  simp only [List.mem_cons, List.not_mem_nil, or_false, hl] at hp
  obtain rfl | rfl | rfl | rfl := hp
  · refine .when fun _ => .all fun p hp => ?_
    simp only [List.mem_cons, List.not_mem_nil, or_false] at hp
    obtain rfl | rfl := hp
    · exact .eff fun _ => rfl
    · exact histAppend_notes u _ _
  · exact .when fun _ => .eff fun _ => rfl
  · exact .when fun hf => by simp at hf
  · exact .when fun hf => by simp at hf

theorem relayEvent_notes (ev : Nat) (u : UnitId) (arg : Nat) : Prog.Only (Eff.notes u) (relayEvent ev u arg) := by
  unfold relayEvent
  split
  · exact .when fun _ => .eff fun _ => rfl
  · exact .skip

theorem raiseLim_notes (ev : Nat) (u : UnitId) (lk arg : Nat) (h : eventLevel ev u = 0) :
    Prog.Only (Eff.notes u) (raiseLim ev u lk arg) := by
  refine .look fun s => .all fun p hp => ?_
  simp only [List.mem_cons, List.not_mem_nil, or_false] at hp
  obtain rfl | rfl | rfl | rfl := hp
  · exact (gaugeCount_only _ _ _ _ _).mono fun e h => e.counts_notes h
  · exact raiseCore_notes _ _ _ _ h
  · exact relayEvent_notes _ _ _
  · exact .look fun _ => .when fun _ => raiseCore_notes _ _ _ _ (by simp [eventLevel])

/-- An event of level L0 makes only the updates of `Eff.notes`. -/
theorem raise_notes (ev : Nat) (u : UnitId) (arg : Nat) (h : eventLevel ev u = 0) : Prog.Only (Eff.notes u) (raise ev u arg) :=
  raiseLim_notes _ _ _ _ h

/-- Counting an occurrence makes only the updates of `Eff.notes`. -/
theorem gauge_notes (u : UnitId) (code : Nat) (cls : Option Cls) (n : Nat) : Prog.Only (Eff.notes u) (gauge u code cls n) := by
  refine .look fun s => .all fun p hp => ?_
  simp only [List.mem_cons, List.not_mem_nil, or_false] at hp
  obtain rfl | rfl := hp
  · exact (gaugeCount_only _ _ _ _ _).mono fun e h => e.counts_notes h
  · exact .look fun _ => .when fun _ => raise_notes _ _ _ (by simp [eventLevel])

/-- What an event of level L0 leaves of the units' state: everything but the rate limits and the records for a host. -/
theorem notes_dev {u : UnitId} {p : Prog} (hp : Prog.Only (Eff.notes u) p) (s : State) :
    ∃ st su r, (p.run s).dev = { s.dev with
      ws := { s.dev.ws with stamps := st, supp := su }
      ports := { s.dev.ports with records := r } } := by
  refine hp.keeps (P := fun t => ∃ st su r, t.dev = { s.dev with
      ws := { s.dev.ws with stamps := st, supp := su }
      ports := { s.dev.ports with records := r } })
    (fun e t he ht => ?_) s ⟨s.dev.ws.stamps, s.dev.ws.supp, s.dev.ports.records, rfl⟩
  obtain ⟨st, su, r, ht⟩ := ht
  cases e with
  | reg k v => exact ⟨st, su, r, ht⟩
  | hist e => exact ⟨st, su, r, ht⟩
  | dev f =>
    refine ⟨(f t.dev).ws.stamps, (f t.dev).ws.supp, (f t.dev).ports.records, ?_⟩
    have h : (Eff.apply (.dev f) t).dev = f t.dev := rfl
    rw [h, he t.dev, ht]
  | _ => exact he.elim

/-- After an event of level L0 no more safe actions have fired than before. -/
theorem notes_fire {u : UnitId} {p : Prog} (hp : Prog.Only (Eff.notes u) p) (s : State) :
    (p.run s).dev.ws.fire = s.dev.ws.fire := by
  obtain ⟨st, su, r, h⟩ := notes_dev hp s
  rw [h]

end Sys2Proof.Machine
end

