-- ==== Sys2Proof/Laws/State.lean ====
section
/-!
SUPPORT. Laws/State.lean: what each primitive update leaves in each field of the state, and what each change of one part of the units'
state leaves in the other parts.
-/
namespace Sys2Proof.Machine

/-! ### Eff.reg k v -/

@[simp] theorem State.reg_regs (k v : Nat) (s : State) : ((Eff.reg k v).apply s).regs = Tab.put s.regs k (v % 2 ^ keyWidth k) := by rfl
@[simp] theorem State.reg_mem (k v : Nat) (s : State) : ((Eff.reg k v).apply s).mem = s.mem := by rfl
@[simp] theorem State.reg_hist (k v : Nat) (s : State) : ((Eff.reg k v).apply s).hist = s.hist := by rfl
@[simp] theorem State.reg_out (k v : Nat) (s : State) : ((Eff.reg k v).apply s).out = s.out := by rfl
@[simp] theorem State.reg_time (k v : Nat) (s : State) : ((Eff.reg k v).apply s).time = s.time := by rfl
@[simp] theorem State.reg_fresh (k v : Nat) (s : State) : ((Eff.reg k v).apply s).fresh = s.fresh := by rfl
@[simp] theorem State.reg_cmdq (k v : Nat) (s : State) : ((Eff.reg k v).apply s).cmdq = s.cmdq := by rfl
@[simp] theorem State.reg_bg (k v : Nat) (s : State) : ((Eff.reg k v).apply s).bg = s.bg := by rfl
@[simp] theorem State.reg_dev (k v : Nat) (s : State) : ((Eff.reg k v).apply s).dev = s.dev := by rfl
@[simp] theorem State.reg_pending (k v : Nat) (s : State) : ((Eff.reg k v).apply s).pending = s.pending := by rfl

/-! ### Eff.dropRegs p -/

@[simp] theorem State.dropRegs_regs (p : Nat → Bool) (s : State) : ((Eff.dropRegs p).apply s).regs = Tab.keep s.regs fun k _ => !p k := by rfl
@[simp] theorem State.dropRegs_mem (p : Nat → Bool) (s : State) : ((Eff.dropRegs p).apply s).mem = s.mem := by rfl
@[simp] theorem State.dropRegs_hist (p : Nat → Bool) (s : State) : ((Eff.dropRegs p).apply s).hist = s.hist := by rfl
@[simp] theorem State.dropRegs_out (p : Nat → Bool) (s : State) : ((Eff.dropRegs p).apply s).out = s.out := by rfl
@[simp] theorem State.dropRegs_time (p : Nat → Bool) (s : State) : ((Eff.dropRegs p).apply s).time = s.time := by rfl
@[simp] theorem State.dropRegs_fresh (p : Nat → Bool) (s : State) : ((Eff.dropRegs p).apply s).fresh = s.fresh := by rfl
@[simp] theorem State.dropRegs_cmdq (p : Nat → Bool) (s : State) : ((Eff.dropRegs p).apply s).cmdq = s.cmdq := by rfl
@[simp] theorem State.dropRegs_bg (p : Nat → Bool) (s : State) : ((Eff.dropRegs p).apply s).bg = s.bg := by rfl
@[simp] theorem State.dropRegs_dev (p : Nat → Bool) (s : State) : ((Eff.dropRegs p).apply s).dev = s.dev := by rfl
@[simp] theorem State.dropRegs_pending (p : Nat → Bool) (s : State) : ((Eff.dropRegs p).apply s).pending = s.pending := by rfl

/-! ### Eff.mem a b -/

@[simp] theorem State.mem_regs (a : Nat) (b : Byte) (s : State) : ((Eff.mem a b).apply s).regs = s.regs := by rfl
@[simp] theorem State.mem_mem (a : Nat) (b : Byte) (s : State) : ((Eff.mem a b).apply s).mem = memWrite s.mem a b := by rfl
@[simp] theorem State.mem_hist (a : Nat) (b : Byte) (s : State) : ((Eff.mem a b).apply s).hist = s.hist := by rfl
@[simp] theorem State.mem_out (a : Nat) (b : Byte) (s : State) : ((Eff.mem a b).apply s).out = s.out := by rfl
@[simp] theorem State.mem_time (a : Nat) (b : Byte) (s : State) : ((Eff.mem a b).apply s).time = s.time := by rfl
@[simp] theorem State.mem_fresh (a : Nat) (b : Byte) (s : State) : ((Eff.mem a b).apply s).fresh = s.fresh := by rfl
@[simp] theorem State.mem_cmdq (a : Nat) (b : Byte) (s : State) : ((Eff.mem a b).apply s).cmdq = s.cmdq := by rfl
@[simp] theorem State.mem_bg (a : Nat) (b : Byte) (s : State) : ((Eff.mem a b).apply s).bg = s.bg := by rfl
@[simp] theorem State.mem_dev (a : Nat) (b : Byte) (s : State) : ((Eff.mem a b).apply s).dev = s.dev := by rfl
@[simp] theorem State.mem_pending (a : Nat) (b : Byte) (s : State) : ((Eff.mem a b).apply s).pending = s.pending := by rfl

/-! ### Eff.dropMem p -/

@[simp] theorem State.dropMem_regs (p : Nat → Bool) (s : State) : ((Eff.dropMem p).apply s).regs = s.regs := by rfl
@[simp] theorem State.dropMem_mem (p : Nat → Bool) (s : State) : ((Eff.dropMem p).apply s).mem = Tab.keep s.mem fun a _ => !p a := by rfl
@[simp] theorem State.dropMem_hist (p : Nat → Bool) (s : State) : ((Eff.dropMem p).apply s).hist = s.hist := by rfl
@[simp] theorem State.dropMem_out (p : Nat → Bool) (s : State) : ((Eff.dropMem p).apply s).out = s.out := by rfl
@[simp] theorem State.dropMem_time (p : Nat → Bool) (s : State) : ((Eff.dropMem p).apply s).time = s.time := by rfl
@[simp] theorem State.dropMem_fresh (p : Nat → Bool) (s : State) : ((Eff.dropMem p).apply s).fresh = s.fresh := by rfl
@[simp] theorem State.dropMem_cmdq (p : Nat → Bool) (s : State) : ((Eff.dropMem p).apply s).cmdq = s.cmdq := by rfl
@[simp] theorem State.dropMem_bg (p : Nat → Bool) (s : State) : ((Eff.dropMem p).apply s).bg = s.bg := by rfl
@[simp] theorem State.dropMem_dev (p : Nat → Bool) (s : State) : ((Eff.dropMem p).apply s).dev = s.dev := by rfl
@[simp] theorem State.dropMem_pending (p : Nat → Bool) (s : State) : ((Eff.dropMem p).apply s).pending = s.pending := by rfl

/-! ### Eff.hist e -/

@[simp] theorem State.hist_regs (e : HistEntry) (s : State) : ((Eff.hist e).apply s).regs = s.regs := by rfl
@[simp] theorem State.hist_mem (e : HistEntry) (s : State) : ((Eff.hist e).apply s).mem = s.mem := by rfl
@[simp] theorem State.hist_hist (e : HistEntry) (s : State) : ((Eff.hist e).apply s).hist = (s.hist ++ [e]).drop (s.hist.length + 1 - histMax) := by rfl
@[simp] theorem State.hist_out (e : HistEntry) (s : State) : ((Eff.hist e).apply s).out = s.out := by rfl
@[simp] theorem State.hist_time (e : HistEntry) (s : State) : ((Eff.hist e).apply s).time = s.time := by rfl
@[simp] theorem State.hist_fresh (e : HistEntry) (s : State) : ((Eff.hist e).apply s).fresh = s.fresh := by rfl
@[simp] theorem State.hist_cmdq (e : HistEntry) (s : State) : ((Eff.hist e).apply s).cmdq = s.cmdq := by rfl
@[simp] theorem State.hist_bg (e : HistEntry) (s : State) : ((Eff.hist e).apply s).bg = s.bg := by rfl
@[simp] theorem State.hist_dev (e : HistEntry) (s : State) : ((Eff.hist e).apply s).dev = s.dev := by rfl
@[simp] theorem State.hist_pending (e : HistEntry) (s : State) : ((Eff.hist e).apply s).pending = s.pending := by rfl

/-! ### Eff.histMap f -/

@[simp] theorem State.histMap_regs (f : HistEntry → HistEntry) (s : State) : ((Eff.histMap f).apply s).regs = s.regs := by rfl
@[simp] theorem State.histMap_mem (f : HistEntry → HistEntry) (s : State) : ((Eff.histMap f).apply s).mem = s.mem := by rfl
@[simp] theorem State.histMap_hist (f : HistEntry → HistEntry) (s : State) : ((Eff.histMap f).apply s).hist = s.hist.map f := by rfl
@[simp] theorem State.histMap_out (f : HistEntry → HistEntry) (s : State) : ((Eff.histMap f).apply s).out = s.out := by rfl
@[simp] theorem State.histMap_time (f : HistEntry → HistEntry) (s : State) : ((Eff.histMap f).apply s).time = s.time := by rfl
@[simp] theorem State.histMap_fresh (f : HistEntry → HistEntry) (s : State) : ((Eff.histMap f).apply s).fresh = s.fresh := by rfl
@[simp] theorem State.histMap_cmdq (f : HistEntry → HistEntry) (s : State) : ((Eff.histMap f).apply s).cmdq = s.cmdq := by rfl
@[simp] theorem State.histMap_bg (f : HistEntry → HistEntry) (s : State) : ((Eff.histMap f).apply s).bg = s.bg := by rfl
@[simp] theorem State.histMap_dev (f : HistEntry → HistEntry) (s : State) : ((Eff.histMap f).apply s).dev = s.dev := by rfl
@[simp] theorem State.histMap_pending (f : HistEntry → HistEntry) (s : State) : ((Eff.histMap f).apply s).pending = s.pending := by rfl

/-! ### Eff.histClear -/

@[simp] theorem State.histClear_regs (s : State) : ((Eff.histClear).apply s).regs = s.regs := by rfl
@[simp] theorem State.histClear_mem (s : State) : ((Eff.histClear).apply s).mem = s.mem := by rfl
@[simp] theorem State.histClear_hist (s : State) : ((Eff.histClear).apply s).hist = [] := by rfl
@[simp] theorem State.histClear_out (s : State) : ((Eff.histClear).apply s).out = s.out := by rfl
@[simp] theorem State.histClear_time (s : State) : ((Eff.histClear).apply s).time = s.time := by rfl
@[simp] theorem State.histClear_fresh (s : State) : ((Eff.histClear).apply s).fresh = s.fresh := by rfl
@[simp] theorem State.histClear_cmdq (s : State) : ((Eff.histClear).apply s).cmdq = s.cmdq := by rfl
@[simp] theorem State.histClear_bg (s : State) : ((Eff.histClear).apply s).bg = s.bg := by rfl
@[simp] theorem State.histClear_dev (s : State) : ((Eff.histClear).apply s).dev = s.dev := by rfl
@[simp] theorem State.histClear_pending (s : State) : ((Eff.histClear).apply s).pending = s.pending := by rfl

/-! ### Eff.send o -/

@[simp] theorem State.send_regs (o : Out) (s : State) : ((Eff.send o).apply s).regs = s.regs := by rfl
@[simp] theorem State.send_mem (o : Out) (s : State) : ((Eff.send o).apply s).mem = s.mem := by rfl
@[simp] theorem State.send_hist (o : Out) (s : State) : ((Eff.send o).apply s).hist = s.hist := by rfl
@[simp] theorem State.send_out (o : Out) (s : State) : ((Eff.send o).apply s).out = s.out ++ [o] := by rfl
@[simp] theorem State.send_time (o : Out) (s : State) : ((Eff.send o).apply s).time = s.time := by rfl
@[simp] theorem State.send_fresh (o : Out) (s : State) : ((Eff.send o).apply s).fresh = s.fresh := by rfl
@[simp] theorem State.send_cmdq (o : Out) (s : State) : ((Eff.send o).apply s).cmdq = s.cmdq := by rfl
@[simp] theorem State.send_bg (o : Out) (s : State) : ((Eff.send o).apply s).bg = s.bg := by rfl
@[simp] theorem State.send_dev (o : Out) (s : State) : ((Eff.send o).apply s).dev = s.dev := by rfl
@[simp] theorem State.send_pending (o : Out) (s : State) : ((Eff.send o).apply s).pending = s.pending := by rfl

/-! ### Eff.sendClear -/

@[simp] theorem State.sendClear_regs (s : State) : ((Eff.sendClear).apply s).regs = s.regs := by rfl
@[simp] theorem State.sendClear_mem (s : State) : ((Eff.sendClear).apply s).mem = s.mem := by rfl
@[simp] theorem State.sendClear_hist (s : State) : ((Eff.sendClear).apply s).hist = s.hist := by rfl
@[simp] theorem State.sendClear_out (s : State) : ((Eff.sendClear).apply s).out = [] := by rfl
@[simp] theorem State.sendClear_time (s : State) : ((Eff.sendClear).apply s).time = s.time := by rfl
@[simp] theorem State.sendClear_fresh (s : State) : ((Eff.sendClear).apply s).fresh = s.fresh := by rfl
@[simp] theorem State.sendClear_cmdq (s : State) : ((Eff.sendClear).apply s).cmdq = s.cmdq := by rfl
@[simp] theorem State.sendClear_bg (s : State) : ((Eff.sendClear).apply s).bg = s.bg := by rfl
@[simp] theorem State.sendClear_dev (s : State) : ((Eff.sendClear).apply s).dev = s.dev := by rfl
@[simp] theorem State.sendClear_pending (s : State) : ((Eff.sendClear).apply s).pending = s.pending := by rfl

/-! ### Eff.tick n -/

@[simp] theorem State.tick_regs (n : Nat) (s : State) : ((Eff.tick n).apply s).regs = s.regs := by rfl
@[simp] theorem State.tick_mem (n : Nat) (s : State) : ((Eff.tick n).apply s).mem = s.mem := by rfl
@[simp] theorem State.tick_hist (n : Nat) (s : State) : ((Eff.tick n).apply s).hist = s.hist := by rfl
@[simp] theorem State.tick_out (n : Nat) (s : State) : ((Eff.tick n).apply s).out = s.out := by rfl
@[simp] theorem State.tick_time (n : Nat) (s : State) : ((Eff.tick n).apply s).time = s.time + n := by rfl
@[simp] theorem State.tick_fresh (n : Nat) (s : State) : ((Eff.tick n).apply s).fresh = s.fresh := by rfl
@[simp] theorem State.tick_cmdq (n : Nat) (s : State) : ((Eff.tick n).apply s).cmdq = s.cmdq := by rfl
@[simp] theorem State.tick_bg (n : Nat) (s : State) : ((Eff.tick n).apply s).bg = s.bg := by rfl
@[simp] theorem State.tick_dev (n : Nat) (s : State) : ((Eff.tick n).apply s).dev = s.dev := by rfl
@[simp] theorem State.tick_pending (n : Nat) (s : State) : ((Eff.tick n).apply s).pending = s.pending := by rfl

/-! ### Eff.restart -/

@[simp] theorem State.restart_regs (s : State) : ((Eff.restart).apply s).regs = s.regs := by rfl
@[simp] theorem State.restart_mem (s : State) : ((Eff.restart).apply s).mem = s.mem := by rfl
@[simp] theorem State.restart_hist (s : State) : ((Eff.restart).apply s).hist = s.hist := by rfl
@[simp] theorem State.restart_out (s : State) : ((Eff.restart).apply s).out = s.out := by rfl
@[simp] theorem State.restart_time (s : State) : ((Eff.restart).apply s).time = 0 := by rfl
@[simp] theorem State.restart_fresh (s : State) : ((Eff.restart).apply s).fresh = s.fresh := by rfl
@[simp] theorem State.restart_cmdq (s : State) : ((Eff.restart).apply s).cmdq = s.cmdq := by rfl
@[simp] theorem State.restart_bg (s : State) : ((Eff.restart).apply s).bg = s.bg := by rfl
@[simp] theorem State.restart_dev (s : State) : ((Eff.restart).apply s).dev = s.dev := by rfl
@[simp] theorem State.restart_pending (s : State) : ((Eff.restart).apply s).pending = s.pending := by rfl

/-! ### Eff.fresh -/

@[simp] theorem State.fresh_regs (s : State) : ((Eff.fresh).apply s).regs = s.regs := by rfl
@[simp] theorem State.fresh_mem (s : State) : ((Eff.fresh).apply s).mem = s.mem := by rfl
@[simp] theorem State.fresh_hist (s : State) : ((Eff.fresh).apply s).hist = s.hist := by rfl
@[simp] theorem State.fresh_out (s : State) : ((Eff.fresh).apply s).out = s.out := by rfl
@[simp] theorem State.fresh_time (s : State) : ((Eff.fresh).apply s).time = s.time := by rfl
@[simp] theorem State.fresh_fresh (s : State) : ((Eff.fresh).apply s).fresh = s.fresh + 1 := by rfl
@[simp] theorem State.fresh_cmdq (s : State) : ((Eff.fresh).apply s).cmdq = s.cmdq := by rfl
@[simp] theorem State.fresh_bg (s : State) : ((Eff.fresh).apply s).bg = s.bg := by rfl
@[simp] theorem State.fresh_dev (s : State) : ((Eff.fresh).apply s).dev = s.dev := by rfl
@[simp] theorem State.fresh_pending (s : State) : ((Eff.fresh).apply s).pending = s.pending := by rfl

/-! ### Eff.cmdPush q -/

@[simp] theorem State.cmdPush_regs (q : QCmd) (s : State) : ((Eff.cmdPush q).apply s).regs = s.regs := by rfl
@[simp] theorem State.cmdPush_mem (q : QCmd) (s : State) : ((Eff.cmdPush q).apply s).mem = s.mem := by rfl
@[simp] theorem State.cmdPush_hist (q : QCmd) (s : State) : ((Eff.cmdPush q).apply s).hist = s.hist := by rfl
@[simp] theorem State.cmdPush_out (q : QCmd) (s : State) : ((Eff.cmdPush q).apply s).out = s.out := by rfl
@[simp] theorem State.cmdPush_time (q : QCmd) (s : State) : ((Eff.cmdPush q).apply s).time = s.time := by rfl
@[simp] theorem State.cmdPush_fresh (q : QCmd) (s : State) : ((Eff.cmdPush q).apply s).fresh = s.fresh := by rfl
@[simp] theorem State.cmdPush_cmdq (q : QCmd) (s : State) : ((Eff.cmdPush q).apply s).cmdq = (s.cmdq ++ [q]).take cmdMax := by rfl
@[simp] theorem State.cmdPush_bg (q : QCmd) (s : State) : ((Eff.cmdPush q).apply s).bg = s.bg := by rfl
@[simp] theorem State.cmdPush_dev (q : QCmd) (s : State) : ((Eff.cmdPush q).apply s).dev = s.dev := by rfl
@[simp] theorem State.cmdPush_pending (q : QCmd) (s : State) : ((Eff.cmdPush q).apply s).pending = s.pending := by rfl

/-! ### Eff.cmdPop i -/

@[simp] theorem State.cmdPop_regs (i : Nat) (s : State) : ((Eff.cmdPop i).apply s).regs = s.regs := by rfl
@[simp] theorem State.cmdPop_mem (i : Nat) (s : State) : ((Eff.cmdPop i).apply s).mem = s.mem := by rfl
@[simp] theorem State.cmdPop_hist (i : Nat) (s : State) : ((Eff.cmdPop i).apply s).hist = s.hist := by rfl
@[simp] theorem State.cmdPop_out (i : Nat) (s : State) : ((Eff.cmdPop i).apply s).out = s.out := by rfl
@[simp] theorem State.cmdPop_time (i : Nat) (s : State) : ((Eff.cmdPop i).apply s).time = s.time := by rfl
@[simp] theorem State.cmdPop_fresh (i : Nat) (s : State) : ((Eff.cmdPop i).apply s).fresh = s.fresh := by rfl
@[simp] theorem State.cmdPop_cmdq (i : Nat) (s : State) : ((Eff.cmdPop i).apply s).cmdq = s.cmdq.eraseIdx i := by rfl
@[simp] theorem State.cmdPop_bg (i : Nat) (s : State) : ((Eff.cmdPop i).apply s).bg = s.bg := by rfl
@[simp] theorem State.cmdPop_dev (i : Nat) (s : State) : ((Eff.cmdPop i).apply s).dev = s.dev := by rfl
@[simp] theorem State.cmdPop_pending (i : Nat) (s : State) : ((Eff.cmdPop i).apply s).pending = s.pending := by rfl

/-! ### Eff.cmdClear -/

@[simp] theorem State.cmdClear_regs (s : State) : ((Eff.cmdClear).apply s).regs = s.regs := by rfl
@[simp] theorem State.cmdClear_mem (s : State) : ((Eff.cmdClear).apply s).mem = s.mem := by rfl
@[simp] theorem State.cmdClear_hist (s : State) : ((Eff.cmdClear).apply s).hist = s.hist := by rfl
@[simp] theorem State.cmdClear_out (s : State) : ((Eff.cmdClear).apply s).out = s.out := by rfl
@[simp] theorem State.cmdClear_time (s : State) : ((Eff.cmdClear).apply s).time = s.time := by rfl
@[simp] theorem State.cmdClear_fresh (s : State) : ((Eff.cmdClear).apply s).fresh = s.fresh := by rfl
@[simp] theorem State.cmdClear_cmdq (s : State) : ((Eff.cmdClear).apply s).cmdq = [] := by rfl
@[simp] theorem State.cmdClear_bg (s : State) : ((Eff.cmdClear).apply s).bg = s.bg := by rfl
@[simp] theorem State.cmdClear_dev (s : State) : ((Eff.cmdClear).apply s).dev = s.dev := by rfl
@[simp] theorem State.cmdClear_pending (s : State) : ((Eff.cmdClear).apply s).pending = s.pending := by rfl

/-! ### Eff.bgPut b -/

@[simp] theorem State.bgPut_regs (b : Bg) (s : State) : ((Eff.bgPut b).apply s).regs = s.regs := by rfl
@[simp] theorem State.bgPut_mem (b : Bg) (s : State) : ((Eff.bgPut b).apply s).mem = s.mem := by rfl
@[simp] theorem State.bgPut_hist (b : Bg) (s : State) : ((Eff.bgPut b).apply s).hist = s.hist := by rfl
@[simp] theorem State.bgPut_out (b : Bg) (s : State) : ((Eff.bgPut b).apply s).out = s.out := by rfl
@[simp] theorem State.bgPut_time (b : Bg) (s : State) : ((Eff.bgPut b).apply s).time = s.time := by rfl
@[simp] theorem State.bgPut_fresh (b : Bg) (s : State) : ((Eff.bgPut b).apply s).fresh = s.fresh := by rfl
@[simp] theorem State.bgPut_cmdq (b : Bg) (s : State) : ((Eff.bgPut b).apply s).cmdq = s.cmdq := by rfl
@[simp] theorem State.bgPut_bg (b : Bg) (s : State) : ((Eff.bgPut b).apply s).bg = (s.bg ++ [b]).take bgMax := by rfl
@[simp] theorem State.bgPut_dev (b : Bg) (s : State) : ((Eff.bgPut b).apply s).dev = s.dev := by rfl
@[simp] theorem State.bgPut_pending (b : Bg) (s : State) : ((Eff.bgPut b).apply s).pending = s.pending := by rfl

/-! ### Eff.bgDrop p -/

@[simp] theorem State.bgDrop_regs (p : Bg → Bool) (s : State) : ((Eff.bgDrop p).apply s).regs = s.regs := by rfl
@[simp] theorem State.bgDrop_mem (p : Bg → Bool) (s : State) : ((Eff.bgDrop p).apply s).mem = s.mem := by rfl
@[simp] theorem State.bgDrop_hist (p : Bg → Bool) (s : State) : ((Eff.bgDrop p).apply s).hist = s.hist := by rfl
@[simp] theorem State.bgDrop_out (p : Bg → Bool) (s : State) : ((Eff.bgDrop p).apply s).out = s.out := by rfl
@[simp] theorem State.bgDrop_time (p : Bg → Bool) (s : State) : ((Eff.bgDrop p).apply s).time = s.time := by rfl
@[simp] theorem State.bgDrop_fresh (p : Bg → Bool) (s : State) : ((Eff.bgDrop p).apply s).fresh = s.fresh := by rfl
@[simp] theorem State.bgDrop_cmdq (p : Bg → Bool) (s : State) : ((Eff.bgDrop p).apply s).cmdq = s.cmdq := by rfl
@[simp] theorem State.bgDrop_bg (p : Bg → Bool) (s : State) : ((Eff.bgDrop p).apply s).bg = s.bg.filter fun b => !p b := by rfl
@[simp] theorem State.bgDrop_dev (p : Bg → Bool) (s : State) : ((Eff.bgDrop p).apply s).dev = s.dev := by rfl
@[simp] theorem State.bgDrop_pending (p : Bg → Bool) (s : State) : ((Eff.bgDrop p).apply s).pending = s.pending := by rfl

/-! ### Eff.dev f -/

@[simp] theorem State.dev_regs (f : Dev → Dev) (s : State) : ((Eff.dev f).apply s).regs = s.regs := by rfl
@[simp] theorem State.dev_mem (f : Dev → Dev) (s : State) : ((Eff.dev f).apply s).mem = s.mem := by rfl
@[simp] theorem State.dev_hist (f : Dev → Dev) (s : State) : ((Eff.dev f).apply s).hist = s.hist := by rfl
@[simp] theorem State.dev_out (f : Dev → Dev) (s : State) : ((Eff.dev f).apply s).out = s.out := by rfl
@[simp] theorem State.dev_time (f : Dev → Dev) (s : State) : ((Eff.dev f).apply s).time = s.time := by rfl
@[simp] theorem State.dev_fresh (f : Dev → Dev) (s : State) : ((Eff.dev f).apply s).fresh = s.fresh := by rfl
@[simp] theorem State.dev_cmdq (f : Dev → Dev) (s : State) : ((Eff.dev f).apply s).cmdq = s.cmdq := by rfl
@[simp] theorem State.dev_bg (f : Dev → Dev) (s : State) : ((Eff.dev f).apply s).bg = s.bg := by rfl
@[simp] theorem State.dev_dev (f : Dev → Dev) (s : State) : ((Eff.dev f).apply s).dev = f s.dev := by rfl
@[simp] theorem State.dev_pending (f : Dev → Dev) (s : State) : ((Eff.dev f).apply s).pending = s.pending := by rfl

/-! ### Changes of one part -/

theorem Prog.run_io (f : RegIo → RegIo) (s : State) : (Prog.io f).run s = (Eff.dev fun d => { d with io := f d.io }).apply s := rfl
@[simp] theorem Prog.io_io (f : RegIo → RegIo) (s : State) : ((Prog.io f).run s).dev.io = f s.dev.io := rfl
@[simp] theorem Prog.io_ws (f : RegIo → RegIo) (s : State) : ((Prog.io f).run s).dev.ws = s.dev.ws := rfl
@[simp] theorem Prog.io_xlat (f : RegIo → RegIo) (s : State) : ((Prog.io f).run s).dev.xlat = s.dev.xlat := rfl
@[simp] theorem Prog.io_mov (f : RegIo → RegIo) (s : State) : ((Prog.io f).run s).dev.mov = s.dev.mov := rfl
@[simp] theorem Prog.io_flood (f : RegIo → RegIo) (s : State) : ((Prog.io f).run s).dev.flood = s.dev.flood := rfl
@[simp] theorem Prog.io_ort (f : RegIo → RegIo) (s : State) : ((Prog.io f).run s).dev.ort = s.dev.ort := rfl
@[simp] theorem Prog.io_rsv (f : RegIo → RegIo) (s : State) : ((Prog.io f).run s).dev.rsv = s.dev.rsv := rfl
@[simp] theorem Prog.io_coh (f : RegIo → RegIo) (s : State) : ((Prog.io f).run s).dev.coh = s.dev.coh := rfl
@[simp] theorem Prog.io_mill (f : RegIo → RegIo) (s : State) : ((Prog.io f).run s).dev.mill = s.dev.mill := rfl
@[simp] theorem Prog.io_fab (f : RegIo → RegIo) (s : State) : ((Prog.io f).run s).dev.fab = s.dev.fab := rfl
@[simp] theorem Prog.io_ports (f : RegIo → RegIo) (s : State) : ((Prog.io f).run s).dev.ports = s.dev.ports := rfl
@[simp] theorem Prog.io_link (f : RegIo → RegIo) (s : State) : ((Prog.io f).run s).dev.link = s.dev.link := rfl
@[simp] theorem Prog.io_slot (f : RegIo → RegIo) (s : State) : ((Prog.io f).run s).dev.slot = s.dev.slot := rfl
@[simp] theorem Prog.io_pwr (f : RegIo → RegIo) (s : State) : ((Prog.io f).run s).dev.pwr = s.dev.pwr := rfl
@[simp] theorem Prog.io_hw (f : RegIo → RegIo) (s : State) : ((Prog.io f).run s).dev.hw = s.dev.hw := rfl
@[simp] theorem Prog.io_gau (f : RegIo → RegIo) (s : State) : ((Prog.io f).run s).dev.gau = s.dev.gau := rfl
@[simp] theorem Prog.io_at_regs (f : RegIo → RegIo) (s : State) : ((Prog.io f).run s).regs = s.regs := rfl
@[simp] theorem Prog.io_at_mem (f : RegIo → RegIo) (s : State) : ((Prog.io f).run s).mem = s.mem := rfl
@[simp] theorem Prog.io_at_hist (f : RegIo → RegIo) (s : State) : ((Prog.io f).run s).hist = s.hist := rfl
@[simp] theorem Prog.io_at_out (f : RegIo → RegIo) (s : State) : ((Prog.io f).run s).out = s.out := rfl
@[simp] theorem Prog.io_at_time (f : RegIo → RegIo) (s : State) : ((Prog.io f).run s).time = s.time := rfl
@[simp] theorem Prog.io_at_fresh (f : RegIo → RegIo) (s : State) : ((Prog.io f).run s).fresh = s.fresh := rfl
@[simp] theorem Prog.io_at_cmdq (f : RegIo → RegIo) (s : State) : ((Prog.io f).run s).cmdq = s.cmdq := rfl
@[simp] theorem Prog.io_at_bg (f : RegIo → RegIo) (s : State) : ((Prog.io f).run s).bg = s.bg := rfl
@[simp] theorem Prog.io_at_pending (f : RegIo → RegIo) (s : State) : ((Prog.io f).run s).pending = s.pending := rfl

theorem Prog.run_ws (f : Watershed → Watershed) (s : State) : (Prog.ws f).run s = (Eff.dev fun d => { d with ws := f d.ws }).apply s := rfl
@[simp] theorem Prog.ws_io (f : Watershed → Watershed) (s : State) : ((Prog.ws f).run s).dev.io = s.dev.io := rfl
@[simp] theorem Prog.ws_ws (f : Watershed → Watershed) (s : State) : ((Prog.ws f).run s).dev.ws = f s.dev.ws := rfl
@[simp] theorem Prog.ws_xlat (f : Watershed → Watershed) (s : State) : ((Prog.ws f).run s).dev.xlat = s.dev.xlat := rfl
@[simp] theorem Prog.ws_mov (f : Watershed → Watershed) (s : State) : ((Prog.ws f).run s).dev.mov = s.dev.mov := rfl
@[simp] theorem Prog.ws_flood (f : Watershed → Watershed) (s : State) : ((Prog.ws f).run s).dev.flood = s.dev.flood := rfl
@[simp] theorem Prog.ws_ort (f : Watershed → Watershed) (s : State) : ((Prog.ws f).run s).dev.ort = s.dev.ort := rfl
@[simp] theorem Prog.ws_rsv (f : Watershed → Watershed) (s : State) : ((Prog.ws f).run s).dev.rsv = s.dev.rsv := rfl
@[simp] theorem Prog.ws_coh (f : Watershed → Watershed) (s : State) : ((Prog.ws f).run s).dev.coh = s.dev.coh := rfl
@[simp] theorem Prog.ws_mill (f : Watershed → Watershed) (s : State) : ((Prog.ws f).run s).dev.mill = s.dev.mill := rfl
@[simp] theorem Prog.ws_fab (f : Watershed → Watershed) (s : State) : ((Prog.ws f).run s).dev.fab = s.dev.fab := rfl
@[simp] theorem Prog.ws_ports (f : Watershed → Watershed) (s : State) : ((Prog.ws f).run s).dev.ports = s.dev.ports := rfl
@[simp] theorem Prog.ws_link (f : Watershed → Watershed) (s : State) : ((Prog.ws f).run s).dev.link = s.dev.link := rfl
@[simp] theorem Prog.ws_slot (f : Watershed → Watershed) (s : State) : ((Prog.ws f).run s).dev.slot = s.dev.slot := rfl
@[simp] theorem Prog.ws_pwr (f : Watershed → Watershed) (s : State) : ((Prog.ws f).run s).dev.pwr = s.dev.pwr := rfl
@[simp] theorem Prog.ws_hw (f : Watershed → Watershed) (s : State) : ((Prog.ws f).run s).dev.hw = s.dev.hw := rfl
@[simp] theorem Prog.ws_gau (f : Watershed → Watershed) (s : State) : ((Prog.ws f).run s).dev.gau = s.dev.gau := rfl
@[simp] theorem Prog.ws_at_regs (f : Watershed → Watershed) (s : State) : ((Prog.ws f).run s).regs = s.regs := rfl
@[simp] theorem Prog.ws_at_mem (f : Watershed → Watershed) (s : State) : ((Prog.ws f).run s).mem = s.mem := rfl
@[simp] theorem Prog.ws_at_hist (f : Watershed → Watershed) (s : State) : ((Prog.ws f).run s).hist = s.hist := rfl
@[simp] theorem Prog.ws_at_out (f : Watershed → Watershed) (s : State) : ((Prog.ws f).run s).out = s.out := rfl
@[simp] theorem Prog.ws_at_time (f : Watershed → Watershed) (s : State) : ((Prog.ws f).run s).time = s.time := rfl
@[simp] theorem Prog.ws_at_fresh (f : Watershed → Watershed) (s : State) : ((Prog.ws f).run s).fresh = s.fresh := rfl
@[simp] theorem Prog.ws_at_cmdq (f : Watershed → Watershed) (s : State) : ((Prog.ws f).run s).cmdq = s.cmdq := rfl
@[simp] theorem Prog.ws_at_bg (f : Watershed → Watershed) (s : State) : ((Prog.ws f).run s).bg = s.bg := rfl
@[simp] theorem Prog.ws_at_pending (f : Watershed → Watershed) (s : State) : ((Prog.ws f).run s).pending = s.pending := rfl

theorem Prog.run_xlat (f : Xlat → Xlat) (s : State) : (Prog.xlat f).run s = (Eff.dev fun d => { d with xlat := f d.xlat }).apply s := rfl
@[simp] theorem Prog.xlat_io (f : Xlat → Xlat) (s : State) : ((Prog.xlat f).run s).dev.io = s.dev.io := rfl
@[simp] theorem Prog.xlat_ws (f : Xlat → Xlat) (s : State) : ((Prog.xlat f).run s).dev.ws = s.dev.ws := rfl
@[simp] theorem Prog.xlat_xlat (f : Xlat → Xlat) (s : State) : ((Prog.xlat f).run s).dev.xlat = f s.dev.xlat := rfl
@[simp] theorem Prog.xlat_mov (f : Xlat → Xlat) (s : State) : ((Prog.xlat f).run s).dev.mov = s.dev.mov := rfl
@[simp] theorem Prog.xlat_flood (f : Xlat → Xlat) (s : State) : ((Prog.xlat f).run s).dev.flood = s.dev.flood := rfl
@[simp] theorem Prog.xlat_ort (f : Xlat → Xlat) (s : State) : ((Prog.xlat f).run s).dev.ort = s.dev.ort := rfl
@[simp] theorem Prog.xlat_rsv (f : Xlat → Xlat) (s : State) : ((Prog.xlat f).run s).dev.rsv = s.dev.rsv := rfl
@[simp] theorem Prog.xlat_coh (f : Xlat → Xlat) (s : State) : ((Prog.xlat f).run s).dev.coh = s.dev.coh := rfl
@[simp] theorem Prog.xlat_mill (f : Xlat → Xlat) (s : State) : ((Prog.xlat f).run s).dev.mill = s.dev.mill := rfl
@[simp] theorem Prog.xlat_fab (f : Xlat → Xlat) (s : State) : ((Prog.xlat f).run s).dev.fab = s.dev.fab := rfl
@[simp] theorem Prog.xlat_ports (f : Xlat → Xlat) (s : State) : ((Prog.xlat f).run s).dev.ports = s.dev.ports := rfl
@[simp] theorem Prog.xlat_link (f : Xlat → Xlat) (s : State) : ((Prog.xlat f).run s).dev.link = s.dev.link := rfl
@[simp] theorem Prog.xlat_slot (f : Xlat → Xlat) (s : State) : ((Prog.xlat f).run s).dev.slot = s.dev.slot := rfl
@[simp] theorem Prog.xlat_pwr (f : Xlat → Xlat) (s : State) : ((Prog.xlat f).run s).dev.pwr = s.dev.pwr := rfl
@[simp] theorem Prog.xlat_hw (f : Xlat → Xlat) (s : State) : ((Prog.xlat f).run s).dev.hw = s.dev.hw := rfl
@[simp] theorem Prog.xlat_gau (f : Xlat → Xlat) (s : State) : ((Prog.xlat f).run s).dev.gau = s.dev.gau := rfl
@[simp] theorem Prog.xlat_at_regs (f : Xlat → Xlat) (s : State) : ((Prog.xlat f).run s).regs = s.regs := rfl
@[simp] theorem Prog.xlat_at_mem (f : Xlat → Xlat) (s : State) : ((Prog.xlat f).run s).mem = s.mem := rfl
@[simp] theorem Prog.xlat_at_hist (f : Xlat → Xlat) (s : State) : ((Prog.xlat f).run s).hist = s.hist := rfl
@[simp] theorem Prog.xlat_at_out (f : Xlat → Xlat) (s : State) : ((Prog.xlat f).run s).out = s.out := rfl
@[simp] theorem Prog.xlat_at_time (f : Xlat → Xlat) (s : State) : ((Prog.xlat f).run s).time = s.time := rfl
@[simp] theorem Prog.xlat_at_fresh (f : Xlat → Xlat) (s : State) : ((Prog.xlat f).run s).fresh = s.fresh := rfl
@[simp] theorem Prog.xlat_at_cmdq (f : Xlat → Xlat) (s : State) : ((Prog.xlat f).run s).cmdq = s.cmdq := rfl
@[simp] theorem Prog.xlat_at_bg (f : Xlat → Xlat) (s : State) : ((Prog.xlat f).run s).bg = s.bg := rfl
@[simp] theorem Prog.xlat_at_pending (f : Xlat → Xlat) (s : State) : ((Prog.xlat f).run s).pending = s.pending := rfl

theorem Prog.run_mov (f : Mover → Mover) (s : State) : (Prog.mov f).run s = (Eff.dev fun d => { d with mov := f d.mov }).apply s := rfl
@[simp] theorem Prog.mov_io (f : Mover → Mover) (s : State) : ((Prog.mov f).run s).dev.io = s.dev.io := rfl
@[simp] theorem Prog.mov_ws (f : Mover → Mover) (s : State) : ((Prog.mov f).run s).dev.ws = s.dev.ws := rfl
@[simp] theorem Prog.mov_xlat (f : Mover → Mover) (s : State) : ((Prog.mov f).run s).dev.xlat = s.dev.xlat := rfl
@[simp] theorem Prog.mov_mov (f : Mover → Mover) (s : State) : ((Prog.mov f).run s).dev.mov = f s.dev.mov := rfl
@[simp] theorem Prog.mov_flood (f : Mover → Mover) (s : State) : ((Prog.mov f).run s).dev.flood = s.dev.flood := rfl
@[simp] theorem Prog.mov_ort (f : Mover → Mover) (s : State) : ((Prog.mov f).run s).dev.ort = s.dev.ort := rfl
@[simp] theorem Prog.mov_rsv (f : Mover → Mover) (s : State) : ((Prog.mov f).run s).dev.rsv = s.dev.rsv := rfl
@[simp] theorem Prog.mov_coh (f : Mover → Mover) (s : State) : ((Prog.mov f).run s).dev.coh = s.dev.coh := rfl
@[simp] theorem Prog.mov_mill (f : Mover → Mover) (s : State) : ((Prog.mov f).run s).dev.mill = s.dev.mill := rfl
@[simp] theorem Prog.mov_fab (f : Mover → Mover) (s : State) : ((Prog.mov f).run s).dev.fab = s.dev.fab := rfl
@[simp] theorem Prog.mov_ports (f : Mover → Mover) (s : State) : ((Prog.mov f).run s).dev.ports = s.dev.ports := rfl
@[simp] theorem Prog.mov_link (f : Mover → Mover) (s : State) : ((Prog.mov f).run s).dev.link = s.dev.link := rfl
@[simp] theorem Prog.mov_slot (f : Mover → Mover) (s : State) : ((Prog.mov f).run s).dev.slot = s.dev.slot := rfl
@[simp] theorem Prog.mov_pwr (f : Mover → Mover) (s : State) : ((Prog.mov f).run s).dev.pwr = s.dev.pwr := rfl
@[simp] theorem Prog.mov_hw (f : Mover → Mover) (s : State) : ((Prog.mov f).run s).dev.hw = s.dev.hw := rfl
@[simp] theorem Prog.mov_gau (f : Mover → Mover) (s : State) : ((Prog.mov f).run s).dev.gau = s.dev.gau := rfl
@[simp] theorem Prog.mov_at_regs (f : Mover → Mover) (s : State) : ((Prog.mov f).run s).regs = s.regs := rfl
@[simp] theorem Prog.mov_at_mem (f : Mover → Mover) (s : State) : ((Prog.mov f).run s).mem = s.mem := rfl
@[simp] theorem Prog.mov_at_hist (f : Mover → Mover) (s : State) : ((Prog.mov f).run s).hist = s.hist := rfl
@[simp] theorem Prog.mov_at_out (f : Mover → Mover) (s : State) : ((Prog.mov f).run s).out = s.out := rfl
@[simp] theorem Prog.mov_at_time (f : Mover → Mover) (s : State) : ((Prog.mov f).run s).time = s.time := rfl
@[simp] theorem Prog.mov_at_fresh (f : Mover → Mover) (s : State) : ((Prog.mov f).run s).fresh = s.fresh := rfl
@[simp] theorem Prog.mov_at_cmdq (f : Mover → Mover) (s : State) : ((Prog.mov f).run s).cmdq = s.cmdq := rfl
@[simp] theorem Prog.mov_at_bg (f : Mover → Mover) (s : State) : ((Prog.mov f).run s).bg = s.bg := rfl
@[simp] theorem Prog.mov_at_pending (f : Mover → Mover) (s : State) : ((Prog.mov f).run s).pending = s.pending := rfl

theorem Prog.run_flood (f : Flood → Flood) (s : State) : (Prog.flood f).run s = (Eff.dev fun d => { d with flood := f d.flood }).apply s := rfl
@[simp] theorem Prog.flood_io (f : Flood → Flood) (s : State) : ((Prog.flood f).run s).dev.io = s.dev.io := rfl
@[simp] theorem Prog.flood_ws (f : Flood → Flood) (s : State) : ((Prog.flood f).run s).dev.ws = s.dev.ws := rfl
@[simp] theorem Prog.flood_xlat (f : Flood → Flood) (s : State) : ((Prog.flood f).run s).dev.xlat = s.dev.xlat := rfl
@[simp] theorem Prog.flood_mov (f : Flood → Flood) (s : State) : ((Prog.flood f).run s).dev.mov = s.dev.mov := rfl
@[simp] theorem Prog.flood_flood (f : Flood → Flood) (s : State) : ((Prog.flood f).run s).dev.flood = f s.dev.flood := rfl
@[simp] theorem Prog.flood_ort (f : Flood → Flood) (s : State) : ((Prog.flood f).run s).dev.ort = s.dev.ort := rfl
@[simp] theorem Prog.flood_rsv (f : Flood → Flood) (s : State) : ((Prog.flood f).run s).dev.rsv = s.dev.rsv := rfl
@[simp] theorem Prog.flood_coh (f : Flood → Flood) (s : State) : ((Prog.flood f).run s).dev.coh = s.dev.coh := rfl
@[simp] theorem Prog.flood_mill (f : Flood → Flood) (s : State) : ((Prog.flood f).run s).dev.mill = s.dev.mill := rfl
@[simp] theorem Prog.flood_fab (f : Flood → Flood) (s : State) : ((Prog.flood f).run s).dev.fab = s.dev.fab := rfl
@[simp] theorem Prog.flood_ports (f : Flood → Flood) (s : State) : ((Prog.flood f).run s).dev.ports = s.dev.ports := rfl
@[simp] theorem Prog.flood_link (f : Flood → Flood) (s : State) : ((Prog.flood f).run s).dev.link = s.dev.link := rfl
@[simp] theorem Prog.flood_slot (f : Flood → Flood) (s : State) : ((Prog.flood f).run s).dev.slot = s.dev.slot := rfl
@[simp] theorem Prog.flood_pwr (f : Flood → Flood) (s : State) : ((Prog.flood f).run s).dev.pwr = s.dev.pwr := rfl
@[simp] theorem Prog.flood_hw (f : Flood → Flood) (s : State) : ((Prog.flood f).run s).dev.hw = s.dev.hw := rfl
@[simp] theorem Prog.flood_gau (f : Flood → Flood) (s : State) : ((Prog.flood f).run s).dev.gau = s.dev.gau := rfl
@[simp] theorem Prog.flood_at_regs (f : Flood → Flood) (s : State) : ((Prog.flood f).run s).regs = s.regs := rfl
@[simp] theorem Prog.flood_at_mem (f : Flood → Flood) (s : State) : ((Prog.flood f).run s).mem = s.mem := rfl
@[simp] theorem Prog.flood_at_hist (f : Flood → Flood) (s : State) : ((Prog.flood f).run s).hist = s.hist := rfl
@[simp] theorem Prog.flood_at_out (f : Flood → Flood) (s : State) : ((Prog.flood f).run s).out = s.out := rfl
@[simp] theorem Prog.flood_at_time (f : Flood → Flood) (s : State) : ((Prog.flood f).run s).time = s.time := rfl
@[simp] theorem Prog.flood_at_fresh (f : Flood → Flood) (s : State) : ((Prog.flood f).run s).fresh = s.fresh := rfl
@[simp] theorem Prog.flood_at_cmdq (f : Flood → Flood) (s : State) : ((Prog.flood f).run s).cmdq = s.cmdq := rfl
@[simp] theorem Prog.flood_at_bg (f : Flood → Flood) (s : State) : ((Prog.flood f).run s).bg = s.bg := rfl
@[simp] theorem Prog.flood_at_pending (f : Flood → Flood) (s : State) : ((Prog.flood f).run s).pending = s.pending := rfl

theorem Prog.run_ort (f : Ort → Ort) (s : State) : (Prog.ort f).run s = (Eff.dev fun d => { d with ort := f d.ort }).apply s := rfl
@[simp] theorem Prog.ort_io (f : Ort → Ort) (s : State) : ((Prog.ort f).run s).dev.io = s.dev.io := rfl
@[simp] theorem Prog.ort_ws (f : Ort → Ort) (s : State) : ((Prog.ort f).run s).dev.ws = s.dev.ws := rfl
@[simp] theorem Prog.ort_xlat (f : Ort → Ort) (s : State) : ((Prog.ort f).run s).dev.xlat = s.dev.xlat := rfl
@[simp] theorem Prog.ort_mov (f : Ort → Ort) (s : State) : ((Prog.ort f).run s).dev.mov = s.dev.mov := rfl
@[simp] theorem Prog.ort_flood (f : Ort → Ort) (s : State) : ((Prog.ort f).run s).dev.flood = s.dev.flood := rfl
@[simp] theorem Prog.ort_ort (f : Ort → Ort) (s : State) : ((Prog.ort f).run s).dev.ort = f s.dev.ort := rfl
@[simp] theorem Prog.ort_rsv (f : Ort → Ort) (s : State) : ((Prog.ort f).run s).dev.rsv = s.dev.rsv := rfl
@[simp] theorem Prog.ort_coh (f : Ort → Ort) (s : State) : ((Prog.ort f).run s).dev.coh = s.dev.coh := rfl
@[simp] theorem Prog.ort_mill (f : Ort → Ort) (s : State) : ((Prog.ort f).run s).dev.mill = s.dev.mill := rfl
@[simp] theorem Prog.ort_fab (f : Ort → Ort) (s : State) : ((Prog.ort f).run s).dev.fab = s.dev.fab := rfl
@[simp] theorem Prog.ort_ports (f : Ort → Ort) (s : State) : ((Prog.ort f).run s).dev.ports = s.dev.ports := rfl
@[simp] theorem Prog.ort_link (f : Ort → Ort) (s : State) : ((Prog.ort f).run s).dev.link = s.dev.link := rfl
@[simp] theorem Prog.ort_slot (f : Ort → Ort) (s : State) : ((Prog.ort f).run s).dev.slot = s.dev.slot := rfl
@[simp] theorem Prog.ort_pwr (f : Ort → Ort) (s : State) : ((Prog.ort f).run s).dev.pwr = s.dev.pwr := rfl
@[simp] theorem Prog.ort_hw (f : Ort → Ort) (s : State) : ((Prog.ort f).run s).dev.hw = s.dev.hw := rfl
@[simp] theorem Prog.ort_gau (f : Ort → Ort) (s : State) : ((Prog.ort f).run s).dev.gau = s.dev.gau := rfl
@[simp] theorem Prog.ort_at_regs (f : Ort → Ort) (s : State) : ((Prog.ort f).run s).regs = s.regs := rfl
@[simp] theorem Prog.ort_at_mem (f : Ort → Ort) (s : State) : ((Prog.ort f).run s).mem = s.mem := rfl
@[simp] theorem Prog.ort_at_hist (f : Ort → Ort) (s : State) : ((Prog.ort f).run s).hist = s.hist := rfl
@[simp] theorem Prog.ort_at_out (f : Ort → Ort) (s : State) : ((Prog.ort f).run s).out = s.out := rfl
@[simp] theorem Prog.ort_at_time (f : Ort → Ort) (s : State) : ((Prog.ort f).run s).time = s.time := rfl
@[simp] theorem Prog.ort_at_fresh (f : Ort → Ort) (s : State) : ((Prog.ort f).run s).fresh = s.fresh := rfl
@[simp] theorem Prog.ort_at_cmdq (f : Ort → Ort) (s : State) : ((Prog.ort f).run s).cmdq = s.cmdq := rfl
@[simp] theorem Prog.ort_at_bg (f : Ort → Ort) (s : State) : ((Prog.ort f).run s).bg = s.bg := rfl
@[simp] theorem Prog.ort_at_pending (f : Ort → Ort) (s : State) : ((Prog.ort f).run s).pending = s.pending := rfl

theorem Prog.run_rsv (f : Rsv → Rsv) (s : State) : (Prog.rsv f).run s = (Eff.dev fun d => { d with rsv := f d.rsv }).apply s := rfl
@[simp] theorem Prog.rsv_io (f : Rsv → Rsv) (s : State) : ((Prog.rsv f).run s).dev.io = s.dev.io := rfl
@[simp] theorem Prog.rsv_ws (f : Rsv → Rsv) (s : State) : ((Prog.rsv f).run s).dev.ws = s.dev.ws := rfl
@[simp] theorem Prog.rsv_xlat (f : Rsv → Rsv) (s : State) : ((Prog.rsv f).run s).dev.xlat = s.dev.xlat := rfl
@[simp] theorem Prog.rsv_mov (f : Rsv → Rsv) (s : State) : ((Prog.rsv f).run s).dev.mov = s.dev.mov := rfl
@[simp] theorem Prog.rsv_flood (f : Rsv → Rsv) (s : State) : ((Prog.rsv f).run s).dev.flood = s.dev.flood := rfl
@[simp] theorem Prog.rsv_ort (f : Rsv → Rsv) (s : State) : ((Prog.rsv f).run s).dev.ort = s.dev.ort := rfl
@[simp] theorem Prog.rsv_rsv (f : Rsv → Rsv) (s : State) : ((Prog.rsv f).run s).dev.rsv = f s.dev.rsv := rfl
@[simp] theorem Prog.rsv_coh (f : Rsv → Rsv) (s : State) : ((Prog.rsv f).run s).dev.coh = s.dev.coh := rfl
@[simp] theorem Prog.rsv_mill (f : Rsv → Rsv) (s : State) : ((Prog.rsv f).run s).dev.mill = s.dev.mill := rfl
@[simp] theorem Prog.rsv_fab (f : Rsv → Rsv) (s : State) : ((Prog.rsv f).run s).dev.fab = s.dev.fab := rfl
@[simp] theorem Prog.rsv_ports (f : Rsv → Rsv) (s : State) : ((Prog.rsv f).run s).dev.ports = s.dev.ports := rfl
@[simp] theorem Prog.rsv_link (f : Rsv → Rsv) (s : State) : ((Prog.rsv f).run s).dev.link = s.dev.link := rfl
@[simp] theorem Prog.rsv_slot (f : Rsv → Rsv) (s : State) : ((Prog.rsv f).run s).dev.slot = s.dev.slot := rfl
@[simp] theorem Prog.rsv_pwr (f : Rsv → Rsv) (s : State) : ((Prog.rsv f).run s).dev.pwr = s.dev.pwr := rfl
@[simp] theorem Prog.rsv_hw (f : Rsv → Rsv) (s : State) : ((Prog.rsv f).run s).dev.hw = s.dev.hw := rfl
@[simp] theorem Prog.rsv_gau (f : Rsv → Rsv) (s : State) : ((Prog.rsv f).run s).dev.gau = s.dev.gau := rfl
@[simp] theorem Prog.rsv_at_regs (f : Rsv → Rsv) (s : State) : ((Prog.rsv f).run s).regs = s.regs := rfl
@[simp] theorem Prog.rsv_at_mem (f : Rsv → Rsv) (s : State) : ((Prog.rsv f).run s).mem = s.mem := rfl
@[simp] theorem Prog.rsv_at_hist (f : Rsv → Rsv) (s : State) : ((Prog.rsv f).run s).hist = s.hist := rfl
@[simp] theorem Prog.rsv_at_out (f : Rsv → Rsv) (s : State) : ((Prog.rsv f).run s).out = s.out := rfl
@[simp] theorem Prog.rsv_at_time (f : Rsv → Rsv) (s : State) : ((Prog.rsv f).run s).time = s.time := rfl
@[simp] theorem Prog.rsv_at_fresh (f : Rsv → Rsv) (s : State) : ((Prog.rsv f).run s).fresh = s.fresh := rfl
@[simp] theorem Prog.rsv_at_cmdq (f : Rsv → Rsv) (s : State) : ((Prog.rsv f).run s).cmdq = s.cmdq := rfl
@[simp] theorem Prog.rsv_at_bg (f : Rsv → Rsv) (s : State) : ((Prog.rsv f).run s).bg = s.bg := rfl
@[simp] theorem Prog.rsv_at_pending (f : Rsv → Rsv) (s : State) : ((Prog.rsv f).run s).pending = s.pending := rfl

theorem Prog.run_coh (f : Coh → Coh) (s : State) : (Prog.coh f).run s = (Eff.dev fun d => { d with coh := f d.coh }).apply s := rfl
@[simp] theorem Prog.coh_io (f : Coh → Coh) (s : State) : ((Prog.coh f).run s).dev.io = s.dev.io := rfl
@[simp] theorem Prog.coh_ws (f : Coh → Coh) (s : State) : ((Prog.coh f).run s).dev.ws = s.dev.ws := rfl
@[simp] theorem Prog.coh_xlat (f : Coh → Coh) (s : State) : ((Prog.coh f).run s).dev.xlat = s.dev.xlat := rfl
@[simp] theorem Prog.coh_mov (f : Coh → Coh) (s : State) : ((Prog.coh f).run s).dev.mov = s.dev.mov := rfl
@[simp] theorem Prog.coh_flood (f : Coh → Coh) (s : State) : ((Prog.coh f).run s).dev.flood = s.dev.flood := rfl
@[simp] theorem Prog.coh_ort (f : Coh → Coh) (s : State) : ((Prog.coh f).run s).dev.ort = s.dev.ort := rfl
@[simp] theorem Prog.coh_rsv (f : Coh → Coh) (s : State) : ((Prog.coh f).run s).dev.rsv = s.dev.rsv := rfl
@[simp] theorem Prog.coh_coh (f : Coh → Coh) (s : State) : ((Prog.coh f).run s).dev.coh = f s.dev.coh := rfl
@[simp] theorem Prog.coh_mill (f : Coh → Coh) (s : State) : ((Prog.coh f).run s).dev.mill = s.dev.mill := rfl
@[simp] theorem Prog.coh_fab (f : Coh → Coh) (s : State) : ((Prog.coh f).run s).dev.fab = s.dev.fab := rfl
@[simp] theorem Prog.coh_ports (f : Coh → Coh) (s : State) : ((Prog.coh f).run s).dev.ports = s.dev.ports := rfl
@[simp] theorem Prog.coh_link (f : Coh → Coh) (s : State) : ((Prog.coh f).run s).dev.link = s.dev.link := rfl
@[simp] theorem Prog.coh_slot (f : Coh → Coh) (s : State) : ((Prog.coh f).run s).dev.slot = s.dev.slot := rfl
@[simp] theorem Prog.coh_pwr (f : Coh → Coh) (s : State) : ((Prog.coh f).run s).dev.pwr = s.dev.pwr := rfl
@[simp] theorem Prog.coh_hw (f : Coh → Coh) (s : State) : ((Prog.coh f).run s).dev.hw = s.dev.hw := rfl
@[simp] theorem Prog.coh_gau (f : Coh → Coh) (s : State) : ((Prog.coh f).run s).dev.gau = s.dev.gau := rfl
@[simp] theorem Prog.coh_at_regs (f : Coh → Coh) (s : State) : ((Prog.coh f).run s).regs = s.regs := rfl
@[simp] theorem Prog.coh_at_mem (f : Coh → Coh) (s : State) : ((Prog.coh f).run s).mem = s.mem := rfl
@[simp] theorem Prog.coh_at_hist (f : Coh → Coh) (s : State) : ((Prog.coh f).run s).hist = s.hist := rfl
@[simp] theorem Prog.coh_at_out (f : Coh → Coh) (s : State) : ((Prog.coh f).run s).out = s.out := rfl
@[simp] theorem Prog.coh_at_time (f : Coh → Coh) (s : State) : ((Prog.coh f).run s).time = s.time := rfl
@[simp] theorem Prog.coh_at_fresh (f : Coh → Coh) (s : State) : ((Prog.coh f).run s).fresh = s.fresh := rfl
@[simp] theorem Prog.coh_at_cmdq (f : Coh → Coh) (s : State) : ((Prog.coh f).run s).cmdq = s.cmdq := rfl
@[simp] theorem Prog.coh_at_bg (f : Coh → Coh) (s : State) : ((Prog.coh f).run s).bg = s.bg := rfl
@[simp] theorem Prog.coh_at_pending (f : Coh → Coh) (s : State) : ((Prog.coh f).run s).pending = s.pending := rfl

theorem Prog.run_mill (f : Mill → Mill) (s : State) : (Prog.mill f).run s = (Eff.dev fun d => { d with mill := f d.mill }).apply s := rfl
@[simp] theorem Prog.mill_io (f : Mill → Mill) (s : State) : ((Prog.mill f).run s).dev.io = s.dev.io := rfl
@[simp] theorem Prog.mill_ws (f : Mill → Mill) (s : State) : ((Prog.mill f).run s).dev.ws = s.dev.ws := rfl
@[simp] theorem Prog.mill_xlat (f : Mill → Mill) (s : State) : ((Prog.mill f).run s).dev.xlat = s.dev.xlat := rfl
@[simp] theorem Prog.mill_mov (f : Mill → Mill) (s : State) : ((Prog.mill f).run s).dev.mov = s.dev.mov := rfl
@[simp] theorem Prog.mill_flood (f : Mill → Mill) (s : State) : ((Prog.mill f).run s).dev.flood = s.dev.flood := rfl
@[simp] theorem Prog.mill_ort (f : Mill → Mill) (s : State) : ((Prog.mill f).run s).dev.ort = s.dev.ort := rfl
@[simp] theorem Prog.mill_rsv (f : Mill → Mill) (s : State) : ((Prog.mill f).run s).dev.rsv = s.dev.rsv := rfl
@[simp] theorem Prog.mill_coh (f : Mill → Mill) (s : State) : ((Prog.mill f).run s).dev.coh = s.dev.coh := rfl
@[simp] theorem Prog.mill_mill (f : Mill → Mill) (s : State) : ((Prog.mill f).run s).dev.mill = f s.dev.mill := rfl
@[simp] theorem Prog.mill_fab (f : Mill → Mill) (s : State) : ((Prog.mill f).run s).dev.fab = s.dev.fab := rfl
@[simp] theorem Prog.mill_ports (f : Mill → Mill) (s : State) : ((Prog.mill f).run s).dev.ports = s.dev.ports := rfl
@[simp] theorem Prog.mill_link (f : Mill → Mill) (s : State) : ((Prog.mill f).run s).dev.link = s.dev.link := rfl
@[simp] theorem Prog.mill_slot (f : Mill → Mill) (s : State) : ((Prog.mill f).run s).dev.slot = s.dev.slot := rfl
@[simp] theorem Prog.mill_pwr (f : Mill → Mill) (s : State) : ((Prog.mill f).run s).dev.pwr = s.dev.pwr := rfl
@[simp] theorem Prog.mill_hw (f : Mill → Mill) (s : State) : ((Prog.mill f).run s).dev.hw = s.dev.hw := rfl
@[simp] theorem Prog.mill_gau (f : Mill → Mill) (s : State) : ((Prog.mill f).run s).dev.gau = s.dev.gau := rfl
@[simp] theorem Prog.mill_at_regs (f : Mill → Mill) (s : State) : ((Prog.mill f).run s).regs = s.regs := rfl
@[simp] theorem Prog.mill_at_mem (f : Mill → Mill) (s : State) : ((Prog.mill f).run s).mem = s.mem := rfl
@[simp] theorem Prog.mill_at_hist (f : Mill → Mill) (s : State) : ((Prog.mill f).run s).hist = s.hist := rfl
@[simp] theorem Prog.mill_at_out (f : Mill → Mill) (s : State) : ((Prog.mill f).run s).out = s.out := rfl
@[simp] theorem Prog.mill_at_time (f : Mill → Mill) (s : State) : ((Prog.mill f).run s).time = s.time := rfl
@[simp] theorem Prog.mill_at_fresh (f : Mill → Mill) (s : State) : ((Prog.mill f).run s).fresh = s.fresh := rfl
@[simp] theorem Prog.mill_at_cmdq (f : Mill → Mill) (s : State) : ((Prog.mill f).run s).cmdq = s.cmdq := rfl
@[simp] theorem Prog.mill_at_bg (f : Mill → Mill) (s : State) : ((Prog.mill f).run s).bg = s.bg := rfl
@[simp] theorem Prog.mill_at_pending (f : Mill → Mill) (s : State) : ((Prog.mill f).run s).pending = s.pending := rfl

theorem Prog.run_fab (f : Fabric → Fabric) (s : State) : (Prog.fab f).run s = (Eff.dev fun d => { d with fab := f d.fab }).apply s := rfl
@[simp] theorem Prog.fab_io (f : Fabric → Fabric) (s : State) : ((Prog.fab f).run s).dev.io = s.dev.io := rfl
@[simp] theorem Prog.fab_ws (f : Fabric → Fabric) (s : State) : ((Prog.fab f).run s).dev.ws = s.dev.ws := rfl
@[simp] theorem Prog.fab_xlat (f : Fabric → Fabric) (s : State) : ((Prog.fab f).run s).dev.xlat = s.dev.xlat := rfl
@[simp] theorem Prog.fab_mov (f : Fabric → Fabric) (s : State) : ((Prog.fab f).run s).dev.mov = s.dev.mov := rfl
@[simp] theorem Prog.fab_flood (f : Fabric → Fabric) (s : State) : ((Prog.fab f).run s).dev.flood = s.dev.flood := rfl
@[simp] theorem Prog.fab_ort (f : Fabric → Fabric) (s : State) : ((Prog.fab f).run s).dev.ort = s.dev.ort := rfl
@[simp] theorem Prog.fab_rsv (f : Fabric → Fabric) (s : State) : ((Prog.fab f).run s).dev.rsv = s.dev.rsv := rfl
@[simp] theorem Prog.fab_coh (f : Fabric → Fabric) (s : State) : ((Prog.fab f).run s).dev.coh = s.dev.coh := rfl
@[simp] theorem Prog.fab_mill (f : Fabric → Fabric) (s : State) : ((Prog.fab f).run s).dev.mill = s.dev.mill := rfl
@[simp] theorem Prog.fab_fab (f : Fabric → Fabric) (s : State) : ((Prog.fab f).run s).dev.fab = f s.dev.fab := rfl
@[simp] theorem Prog.fab_ports (f : Fabric → Fabric) (s : State) : ((Prog.fab f).run s).dev.ports = s.dev.ports := rfl
@[simp] theorem Prog.fab_link (f : Fabric → Fabric) (s : State) : ((Prog.fab f).run s).dev.link = s.dev.link := rfl
@[simp] theorem Prog.fab_slot (f : Fabric → Fabric) (s : State) : ((Prog.fab f).run s).dev.slot = s.dev.slot := rfl
@[simp] theorem Prog.fab_pwr (f : Fabric → Fabric) (s : State) : ((Prog.fab f).run s).dev.pwr = s.dev.pwr := rfl
@[simp] theorem Prog.fab_hw (f : Fabric → Fabric) (s : State) : ((Prog.fab f).run s).dev.hw = s.dev.hw := rfl
@[simp] theorem Prog.fab_gau (f : Fabric → Fabric) (s : State) : ((Prog.fab f).run s).dev.gau = s.dev.gau := rfl
@[simp] theorem Prog.fab_at_regs (f : Fabric → Fabric) (s : State) : ((Prog.fab f).run s).regs = s.regs := rfl
@[simp] theorem Prog.fab_at_mem (f : Fabric → Fabric) (s : State) : ((Prog.fab f).run s).mem = s.mem := rfl
@[simp] theorem Prog.fab_at_hist (f : Fabric → Fabric) (s : State) : ((Prog.fab f).run s).hist = s.hist := rfl
@[simp] theorem Prog.fab_at_out (f : Fabric → Fabric) (s : State) : ((Prog.fab f).run s).out = s.out := rfl
@[simp] theorem Prog.fab_at_time (f : Fabric → Fabric) (s : State) : ((Prog.fab f).run s).time = s.time := rfl
@[simp] theorem Prog.fab_at_fresh (f : Fabric → Fabric) (s : State) : ((Prog.fab f).run s).fresh = s.fresh := rfl
@[simp] theorem Prog.fab_at_cmdq (f : Fabric → Fabric) (s : State) : ((Prog.fab f).run s).cmdq = s.cmdq := rfl
@[simp] theorem Prog.fab_at_bg (f : Fabric → Fabric) (s : State) : ((Prog.fab f).run s).bg = s.bg := rfl
@[simp] theorem Prog.fab_at_pending (f : Fabric → Fabric) (s : State) : ((Prog.fab f).run s).pending = s.pending := rfl

theorem Prog.run_ports (f : Ports → Ports) (s : State) : (Prog.ports f).run s = (Eff.dev fun d => { d with ports := f d.ports }).apply s := rfl
@[simp] theorem Prog.ports_io (f : Ports → Ports) (s : State) : ((Prog.ports f).run s).dev.io = s.dev.io := rfl
@[simp] theorem Prog.ports_ws (f : Ports → Ports) (s : State) : ((Prog.ports f).run s).dev.ws = s.dev.ws := rfl
@[simp] theorem Prog.ports_xlat (f : Ports → Ports) (s : State) : ((Prog.ports f).run s).dev.xlat = s.dev.xlat := rfl
@[simp] theorem Prog.ports_mov (f : Ports → Ports) (s : State) : ((Prog.ports f).run s).dev.mov = s.dev.mov := rfl
@[simp] theorem Prog.ports_flood (f : Ports → Ports) (s : State) : ((Prog.ports f).run s).dev.flood = s.dev.flood := rfl
@[simp] theorem Prog.ports_ort (f : Ports → Ports) (s : State) : ((Prog.ports f).run s).dev.ort = s.dev.ort := rfl
@[simp] theorem Prog.ports_rsv (f : Ports → Ports) (s : State) : ((Prog.ports f).run s).dev.rsv = s.dev.rsv := rfl
@[simp] theorem Prog.ports_coh (f : Ports → Ports) (s : State) : ((Prog.ports f).run s).dev.coh = s.dev.coh := rfl
@[simp] theorem Prog.ports_mill (f : Ports → Ports) (s : State) : ((Prog.ports f).run s).dev.mill = s.dev.mill := rfl
@[simp] theorem Prog.ports_fab (f : Ports → Ports) (s : State) : ((Prog.ports f).run s).dev.fab = s.dev.fab := rfl
@[simp] theorem Prog.ports_ports (f : Ports → Ports) (s : State) : ((Prog.ports f).run s).dev.ports = f s.dev.ports := rfl
@[simp] theorem Prog.ports_link (f : Ports → Ports) (s : State) : ((Prog.ports f).run s).dev.link = s.dev.link := rfl
@[simp] theorem Prog.ports_slot (f : Ports → Ports) (s : State) : ((Prog.ports f).run s).dev.slot = s.dev.slot := rfl
@[simp] theorem Prog.ports_pwr (f : Ports → Ports) (s : State) : ((Prog.ports f).run s).dev.pwr = s.dev.pwr := rfl
@[simp] theorem Prog.ports_hw (f : Ports → Ports) (s : State) : ((Prog.ports f).run s).dev.hw = s.dev.hw := rfl
@[simp] theorem Prog.ports_gau (f : Ports → Ports) (s : State) : ((Prog.ports f).run s).dev.gau = s.dev.gau := rfl
@[simp] theorem Prog.ports_at_regs (f : Ports → Ports) (s : State) : ((Prog.ports f).run s).regs = s.regs := rfl
@[simp] theorem Prog.ports_at_mem (f : Ports → Ports) (s : State) : ((Prog.ports f).run s).mem = s.mem := rfl
@[simp] theorem Prog.ports_at_hist (f : Ports → Ports) (s : State) : ((Prog.ports f).run s).hist = s.hist := rfl
@[simp] theorem Prog.ports_at_out (f : Ports → Ports) (s : State) : ((Prog.ports f).run s).out = s.out := rfl
@[simp] theorem Prog.ports_at_time (f : Ports → Ports) (s : State) : ((Prog.ports f).run s).time = s.time := rfl
@[simp] theorem Prog.ports_at_fresh (f : Ports → Ports) (s : State) : ((Prog.ports f).run s).fresh = s.fresh := rfl
@[simp] theorem Prog.ports_at_cmdq (f : Ports → Ports) (s : State) : ((Prog.ports f).run s).cmdq = s.cmdq := rfl
@[simp] theorem Prog.ports_at_bg (f : Ports → Ports) (s : State) : ((Prog.ports f).run s).bg = s.bg := rfl
@[simp] theorem Prog.ports_at_pending (f : Ports → Ports) (s : State) : ((Prog.ports f).run s).pending = s.pending := rfl

theorem Prog.run_link (f : Links → Links) (s : State) : (Prog.link f).run s = (Eff.dev fun d => { d with link := f d.link }).apply s := rfl
@[simp] theorem Prog.link_io (f : Links → Links) (s : State) : ((Prog.link f).run s).dev.io = s.dev.io := rfl
@[simp] theorem Prog.link_ws (f : Links → Links) (s : State) : ((Prog.link f).run s).dev.ws = s.dev.ws := rfl
@[simp] theorem Prog.link_xlat (f : Links → Links) (s : State) : ((Prog.link f).run s).dev.xlat = s.dev.xlat := rfl
@[simp] theorem Prog.link_mov (f : Links → Links) (s : State) : ((Prog.link f).run s).dev.mov = s.dev.mov := rfl
@[simp] theorem Prog.link_flood (f : Links → Links) (s : State) : ((Prog.link f).run s).dev.flood = s.dev.flood := rfl
@[simp] theorem Prog.link_ort (f : Links → Links) (s : State) : ((Prog.link f).run s).dev.ort = s.dev.ort := rfl
@[simp] theorem Prog.link_rsv (f : Links → Links) (s : State) : ((Prog.link f).run s).dev.rsv = s.dev.rsv := rfl
@[simp] theorem Prog.link_coh (f : Links → Links) (s : State) : ((Prog.link f).run s).dev.coh = s.dev.coh := rfl
@[simp] theorem Prog.link_mill (f : Links → Links) (s : State) : ((Prog.link f).run s).dev.mill = s.dev.mill := rfl
@[simp] theorem Prog.link_fab (f : Links → Links) (s : State) : ((Prog.link f).run s).dev.fab = s.dev.fab := rfl
@[simp] theorem Prog.link_ports (f : Links → Links) (s : State) : ((Prog.link f).run s).dev.ports = s.dev.ports := rfl
@[simp] theorem Prog.link_link (f : Links → Links) (s : State) : ((Prog.link f).run s).dev.link = f s.dev.link := rfl
@[simp] theorem Prog.link_slot (f : Links → Links) (s : State) : ((Prog.link f).run s).dev.slot = s.dev.slot := rfl
@[simp] theorem Prog.link_pwr (f : Links → Links) (s : State) : ((Prog.link f).run s).dev.pwr = s.dev.pwr := rfl
@[simp] theorem Prog.link_hw (f : Links → Links) (s : State) : ((Prog.link f).run s).dev.hw = s.dev.hw := rfl
@[simp] theorem Prog.link_gau (f : Links → Links) (s : State) : ((Prog.link f).run s).dev.gau = s.dev.gau := rfl
@[simp] theorem Prog.link_at_regs (f : Links → Links) (s : State) : ((Prog.link f).run s).regs = s.regs := rfl
@[simp] theorem Prog.link_at_mem (f : Links → Links) (s : State) : ((Prog.link f).run s).mem = s.mem := rfl
@[simp] theorem Prog.link_at_hist (f : Links → Links) (s : State) : ((Prog.link f).run s).hist = s.hist := rfl
@[simp] theorem Prog.link_at_out (f : Links → Links) (s : State) : ((Prog.link f).run s).out = s.out := rfl
@[simp] theorem Prog.link_at_time (f : Links → Links) (s : State) : ((Prog.link f).run s).time = s.time := rfl
@[simp] theorem Prog.link_at_fresh (f : Links → Links) (s : State) : ((Prog.link f).run s).fresh = s.fresh := rfl
@[simp] theorem Prog.link_at_cmdq (f : Links → Links) (s : State) : ((Prog.link f).run s).cmdq = s.cmdq := rfl
@[simp] theorem Prog.link_at_bg (f : Links → Links) (s : State) : ((Prog.link f).run s).bg = s.bg := rfl
@[simp] theorem Prog.link_at_pending (f : Links → Links) (s : State) : ((Prog.link f).run s).pending = s.pending := rfl

theorem Prog.run_slot (f : Slots → Slots) (s : State) : (Prog.slot f).run s = (Eff.dev fun d => { d with slot := f d.slot }).apply s := rfl
@[simp] theorem Prog.slot_io (f : Slots → Slots) (s : State) : ((Prog.slot f).run s).dev.io = s.dev.io := rfl
@[simp] theorem Prog.slot_ws (f : Slots → Slots) (s : State) : ((Prog.slot f).run s).dev.ws = s.dev.ws := rfl
@[simp] theorem Prog.slot_xlat (f : Slots → Slots) (s : State) : ((Prog.slot f).run s).dev.xlat = s.dev.xlat := rfl
@[simp] theorem Prog.slot_mov (f : Slots → Slots) (s : State) : ((Prog.slot f).run s).dev.mov = s.dev.mov := rfl
@[simp] theorem Prog.slot_flood (f : Slots → Slots) (s : State) : ((Prog.slot f).run s).dev.flood = s.dev.flood := rfl
@[simp] theorem Prog.slot_ort (f : Slots → Slots) (s : State) : ((Prog.slot f).run s).dev.ort = s.dev.ort := rfl
@[simp] theorem Prog.slot_rsv (f : Slots → Slots) (s : State) : ((Prog.slot f).run s).dev.rsv = s.dev.rsv := rfl
@[simp] theorem Prog.slot_coh (f : Slots → Slots) (s : State) : ((Prog.slot f).run s).dev.coh = s.dev.coh := rfl
@[simp] theorem Prog.slot_mill (f : Slots → Slots) (s : State) : ((Prog.slot f).run s).dev.mill = s.dev.mill := rfl
@[simp] theorem Prog.slot_fab (f : Slots → Slots) (s : State) : ((Prog.slot f).run s).dev.fab = s.dev.fab := rfl
@[simp] theorem Prog.slot_ports (f : Slots → Slots) (s : State) : ((Prog.slot f).run s).dev.ports = s.dev.ports := rfl
@[simp] theorem Prog.slot_link (f : Slots → Slots) (s : State) : ((Prog.slot f).run s).dev.link = s.dev.link := rfl
@[simp] theorem Prog.slot_slot (f : Slots → Slots) (s : State) : ((Prog.slot f).run s).dev.slot = f s.dev.slot := rfl
@[simp] theorem Prog.slot_pwr (f : Slots → Slots) (s : State) : ((Prog.slot f).run s).dev.pwr = s.dev.pwr := rfl
@[simp] theorem Prog.slot_hw (f : Slots → Slots) (s : State) : ((Prog.slot f).run s).dev.hw = s.dev.hw := rfl
@[simp] theorem Prog.slot_gau (f : Slots → Slots) (s : State) : ((Prog.slot f).run s).dev.gau = s.dev.gau := rfl
@[simp] theorem Prog.slot_at_regs (f : Slots → Slots) (s : State) : ((Prog.slot f).run s).regs = s.regs := rfl
@[simp] theorem Prog.slot_at_mem (f : Slots → Slots) (s : State) : ((Prog.slot f).run s).mem = s.mem := rfl
@[simp] theorem Prog.slot_at_hist (f : Slots → Slots) (s : State) : ((Prog.slot f).run s).hist = s.hist := rfl
@[simp] theorem Prog.slot_at_out (f : Slots → Slots) (s : State) : ((Prog.slot f).run s).out = s.out := rfl
@[simp] theorem Prog.slot_at_time (f : Slots → Slots) (s : State) : ((Prog.slot f).run s).time = s.time := rfl
@[simp] theorem Prog.slot_at_fresh (f : Slots → Slots) (s : State) : ((Prog.slot f).run s).fresh = s.fresh := rfl
@[simp] theorem Prog.slot_at_cmdq (f : Slots → Slots) (s : State) : ((Prog.slot f).run s).cmdq = s.cmdq := rfl
@[simp] theorem Prog.slot_at_bg (f : Slots → Slots) (s : State) : ((Prog.slot f).run s).bg = s.bg := rfl
@[simp] theorem Prog.slot_at_pending (f : Slots → Slots) (s : State) : ((Prog.slot f).run s).pending = s.pending := rfl

theorem Prog.run_pwr (f : Power → Power) (s : State) : (Prog.pwr f).run s = (Eff.dev fun d => { d with pwr := f d.pwr }).apply s := rfl
@[simp] theorem Prog.pwr_io (f : Power → Power) (s : State) : ((Prog.pwr f).run s).dev.io = s.dev.io := rfl
@[simp] theorem Prog.pwr_ws (f : Power → Power) (s : State) : ((Prog.pwr f).run s).dev.ws = s.dev.ws := rfl
@[simp] theorem Prog.pwr_xlat (f : Power → Power) (s : State) : ((Prog.pwr f).run s).dev.xlat = s.dev.xlat := rfl
@[simp] theorem Prog.pwr_mov (f : Power → Power) (s : State) : ((Prog.pwr f).run s).dev.mov = s.dev.mov := rfl
@[simp] theorem Prog.pwr_flood (f : Power → Power) (s : State) : ((Prog.pwr f).run s).dev.flood = s.dev.flood := rfl
@[simp] theorem Prog.pwr_ort (f : Power → Power) (s : State) : ((Prog.pwr f).run s).dev.ort = s.dev.ort := rfl
@[simp] theorem Prog.pwr_rsv (f : Power → Power) (s : State) : ((Prog.pwr f).run s).dev.rsv = s.dev.rsv := rfl
@[simp] theorem Prog.pwr_coh (f : Power → Power) (s : State) : ((Prog.pwr f).run s).dev.coh = s.dev.coh := rfl
@[simp] theorem Prog.pwr_mill (f : Power → Power) (s : State) : ((Prog.pwr f).run s).dev.mill = s.dev.mill := rfl
@[simp] theorem Prog.pwr_fab (f : Power → Power) (s : State) : ((Prog.pwr f).run s).dev.fab = s.dev.fab := rfl
@[simp] theorem Prog.pwr_ports (f : Power → Power) (s : State) : ((Prog.pwr f).run s).dev.ports = s.dev.ports := rfl
@[simp] theorem Prog.pwr_link (f : Power → Power) (s : State) : ((Prog.pwr f).run s).dev.link = s.dev.link := rfl
@[simp] theorem Prog.pwr_slot (f : Power → Power) (s : State) : ((Prog.pwr f).run s).dev.slot = s.dev.slot := rfl
@[simp] theorem Prog.pwr_pwr (f : Power → Power) (s : State) : ((Prog.pwr f).run s).dev.pwr = f s.dev.pwr := rfl
@[simp] theorem Prog.pwr_hw (f : Power → Power) (s : State) : ((Prog.pwr f).run s).dev.hw = s.dev.hw := rfl
@[simp] theorem Prog.pwr_gau (f : Power → Power) (s : State) : ((Prog.pwr f).run s).dev.gau = s.dev.gau := rfl
@[simp] theorem Prog.pwr_at_regs (f : Power → Power) (s : State) : ((Prog.pwr f).run s).regs = s.regs := rfl
@[simp] theorem Prog.pwr_at_mem (f : Power → Power) (s : State) : ((Prog.pwr f).run s).mem = s.mem := rfl
@[simp] theorem Prog.pwr_at_hist (f : Power → Power) (s : State) : ((Prog.pwr f).run s).hist = s.hist := rfl
@[simp] theorem Prog.pwr_at_out (f : Power → Power) (s : State) : ((Prog.pwr f).run s).out = s.out := rfl
@[simp] theorem Prog.pwr_at_time (f : Power → Power) (s : State) : ((Prog.pwr f).run s).time = s.time := rfl
@[simp] theorem Prog.pwr_at_fresh (f : Power → Power) (s : State) : ((Prog.pwr f).run s).fresh = s.fresh := rfl
@[simp] theorem Prog.pwr_at_cmdq (f : Power → Power) (s : State) : ((Prog.pwr f).run s).cmdq = s.cmdq := rfl
@[simp] theorem Prog.pwr_at_bg (f : Power → Power) (s : State) : ((Prog.pwr f).run s).bg = s.bg := rfl
@[simp] theorem Prog.pwr_at_pending (f : Power → Power) (s : State) : ((Prog.pwr f).run s).pending = s.pending := rfl

theorem Prog.run_hw (f : Headwater → Headwater) (s : State) : (Prog.hw f).run s = (Eff.dev fun d => { d with hw := f d.hw }).apply s := rfl
@[simp] theorem Prog.hw_io (f : Headwater → Headwater) (s : State) : ((Prog.hw f).run s).dev.io = s.dev.io := rfl
@[simp] theorem Prog.hw_ws (f : Headwater → Headwater) (s : State) : ((Prog.hw f).run s).dev.ws = s.dev.ws := rfl
@[simp] theorem Prog.hw_xlat (f : Headwater → Headwater) (s : State) : ((Prog.hw f).run s).dev.xlat = s.dev.xlat := rfl
@[simp] theorem Prog.hw_mov (f : Headwater → Headwater) (s : State) : ((Prog.hw f).run s).dev.mov = s.dev.mov := rfl
@[simp] theorem Prog.hw_flood (f : Headwater → Headwater) (s : State) : ((Prog.hw f).run s).dev.flood = s.dev.flood := rfl
@[simp] theorem Prog.hw_ort (f : Headwater → Headwater) (s : State) : ((Prog.hw f).run s).dev.ort = s.dev.ort := rfl
@[simp] theorem Prog.hw_rsv (f : Headwater → Headwater) (s : State) : ((Prog.hw f).run s).dev.rsv = s.dev.rsv := rfl
@[simp] theorem Prog.hw_coh (f : Headwater → Headwater) (s : State) : ((Prog.hw f).run s).dev.coh = s.dev.coh := rfl
@[simp] theorem Prog.hw_mill (f : Headwater → Headwater) (s : State) : ((Prog.hw f).run s).dev.mill = s.dev.mill := rfl
@[simp] theorem Prog.hw_fab (f : Headwater → Headwater) (s : State) : ((Prog.hw f).run s).dev.fab = s.dev.fab := rfl
@[simp] theorem Prog.hw_ports (f : Headwater → Headwater) (s : State) : ((Prog.hw f).run s).dev.ports = s.dev.ports := rfl
@[simp] theorem Prog.hw_link (f : Headwater → Headwater) (s : State) : ((Prog.hw f).run s).dev.link = s.dev.link := rfl
@[simp] theorem Prog.hw_slot (f : Headwater → Headwater) (s : State) : ((Prog.hw f).run s).dev.slot = s.dev.slot := rfl
@[simp] theorem Prog.hw_pwr (f : Headwater → Headwater) (s : State) : ((Prog.hw f).run s).dev.pwr = s.dev.pwr := rfl
@[simp] theorem Prog.hw_hw (f : Headwater → Headwater) (s : State) : ((Prog.hw f).run s).dev.hw = f s.dev.hw := rfl
@[simp] theorem Prog.hw_gau (f : Headwater → Headwater) (s : State) : ((Prog.hw f).run s).dev.gau = s.dev.gau := rfl
@[simp] theorem Prog.hw_at_regs (f : Headwater → Headwater) (s : State) : ((Prog.hw f).run s).regs = s.regs := rfl
@[simp] theorem Prog.hw_at_mem (f : Headwater → Headwater) (s : State) : ((Prog.hw f).run s).mem = s.mem := rfl
@[simp] theorem Prog.hw_at_hist (f : Headwater → Headwater) (s : State) : ((Prog.hw f).run s).hist = s.hist := rfl
@[simp] theorem Prog.hw_at_out (f : Headwater → Headwater) (s : State) : ((Prog.hw f).run s).out = s.out := rfl
@[simp] theorem Prog.hw_at_time (f : Headwater → Headwater) (s : State) : ((Prog.hw f).run s).time = s.time := rfl
@[simp] theorem Prog.hw_at_fresh (f : Headwater → Headwater) (s : State) : ((Prog.hw f).run s).fresh = s.fresh := rfl
@[simp] theorem Prog.hw_at_cmdq (f : Headwater → Headwater) (s : State) : ((Prog.hw f).run s).cmdq = s.cmdq := rfl
@[simp] theorem Prog.hw_at_bg (f : Headwater → Headwater) (s : State) : ((Prog.hw f).run s).bg = s.bg := rfl
@[simp] theorem Prog.hw_at_pending (f : Headwater → Headwater) (s : State) : ((Prog.hw f).run s).pending = s.pending := rfl

theorem Prog.run_gau (f : GaugeSt → GaugeSt) (s : State) : (Prog.gau f).run s = (Eff.dev fun d => { d with gau := f d.gau }).apply s := rfl
@[simp] theorem Prog.gau_io (f : GaugeSt → GaugeSt) (s : State) : ((Prog.gau f).run s).dev.io = s.dev.io := rfl
@[simp] theorem Prog.gau_ws (f : GaugeSt → GaugeSt) (s : State) : ((Prog.gau f).run s).dev.ws = s.dev.ws := rfl
@[simp] theorem Prog.gau_xlat (f : GaugeSt → GaugeSt) (s : State) : ((Prog.gau f).run s).dev.xlat = s.dev.xlat := rfl
@[simp] theorem Prog.gau_mov (f : GaugeSt → GaugeSt) (s : State) : ((Prog.gau f).run s).dev.mov = s.dev.mov := rfl
@[simp] theorem Prog.gau_flood (f : GaugeSt → GaugeSt) (s : State) : ((Prog.gau f).run s).dev.flood = s.dev.flood := rfl
@[simp] theorem Prog.gau_ort (f : GaugeSt → GaugeSt) (s : State) : ((Prog.gau f).run s).dev.ort = s.dev.ort := rfl
@[simp] theorem Prog.gau_rsv (f : GaugeSt → GaugeSt) (s : State) : ((Prog.gau f).run s).dev.rsv = s.dev.rsv := rfl
@[simp] theorem Prog.gau_coh (f : GaugeSt → GaugeSt) (s : State) : ((Prog.gau f).run s).dev.coh = s.dev.coh := rfl
@[simp] theorem Prog.gau_mill (f : GaugeSt → GaugeSt) (s : State) : ((Prog.gau f).run s).dev.mill = s.dev.mill := rfl
@[simp] theorem Prog.gau_fab (f : GaugeSt → GaugeSt) (s : State) : ((Prog.gau f).run s).dev.fab = s.dev.fab := rfl
@[simp] theorem Prog.gau_ports (f : GaugeSt → GaugeSt) (s : State) : ((Prog.gau f).run s).dev.ports = s.dev.ports := rfl
@[simp] theorem Prog.gau_link (f : GaugeSt → GaugeSt) (s : State) : ((Prog.gau f).run s).dev.link = s.dev.link := rfl
@[simp] theorem Prog.gau_slot (f : GaugeSt → GaugeSt) (s : State) : ((Prog.gau f).run s).dev.slot = s.dev.slot := rfl
@[simp] theorem Prog.gau_pwr (f : GaugeSt → GaugeSt) (s : State) : ((Prog.gau f).run s).dev.pwr = s.dev.pwr := rfl
@[simp] theorem Prog.gau_hw (f : GaugeSt → GaugeSt) (s : State) : ((Prog.gau f).run s).dev.hw = s.dev.hw := rfl
@[simp] theorem Prog.gau_gau (f : GaugeSt → GaugeSt) (s : State) : ((Prog.gau f).run s).dev.gau = f s.dev.gau := rfl
@[simp] theorem Prog.gau_at_regs (f : GaugeSt → GaugeSt) (s : State) : ((Prog.gau f).run s).regs = s.regs := rfl
@[simp] theorem Prog.gau_at_mem (f : GaugeSt → GaugeSt) (s : State) : ((Prog.gau f).run s).mem = s.mem := rfl
@[simp] theorem Prog.gau_at_hist (f : GaugeSt → GaugeSt) (s : State) : ((Prog.gau f).run s).hist = s.hist := rfl
@[simp] theorem Prog.gau_at_out (f : GaugeSt → GaugeSt) (s : State) : ((Prog.gau f).run s).out = s.out := rfl
@[simp] theorem Prog.gau_at_time (f : GaugeSt → GaugeSt) (s : State) : ((Prog.gau f).run s).time = s.time := rfl
@[simp] theorem Prog.gau_at_fresh (f : GaugeSt → GaugeSt) (s : State) : ((Prog.gau f).run s).fresh = s.fresh := rfl
@[simp] theorem Prog.gau_at_cmdq (f : GaugeSt → GaugeSt) (s : State) : ((Prog.gau f).run s).cmdq = s.cmdq := rfl
@[simp] theorem Prog.gau_at_bg (f : GaugeSt → GaugeSt) (s : State) : ((Prog.gau f).run s).bg = s.bg := rfl
@[simp] theorem Prog.gau_at_pending (f : GaugeSt → GaugeSt) (s : State) : ((Prog.gau f).run s).pending = s.pending := rfl

end Sys2Proof.Machine
end

