-- ==== Sys2Proof/Laws/History.lean ====
section
/-!
SUPPORT. Laws/History.lean: the history entry that an event leaves, and what the containment domain of a unit depends on.
-/
namespace Sys2Proof.Machine

/-! ### Domains -/

/-- Two states agree on the registers that say which units exist and which port is bound to which slot. -/
structure SameShape (s t : State) : Prop where
  mode : ∀ g, t.fld (.group g) F.GRP_STAT_CUR_MODE = s.fld (.group g) F.GRP_STAT_CUR_MODE
  split : ∀ g, t.fld (.group g) F.GRP_STAT_CUR_SPLIT = s.fld (.group g) F.GRP_STAT_CUR_SPLIT
  slot : ∀ pt, t.fld (.port pt) F.PRT_MCFG_SLOT = s.fld (.port pt) F.PRT_MCFG_SLOT
  bound : t.dev.ports.bound = s.dev.ports.bound

variable {s t : State}

theorem SameShape.mode_eq (h : SameShape s t) (g : Fin 64) : t.mode g = s.mode g := by simp [State.mode, h.mode]
theorem SameShape.split_eq (h : SameShape s t) (g : Fin 64) : t.split g = s.split g := by simp [State.split, State.flag, h.split]
theorem SameShape.portExists_eq (h : SameShape s t) (pt : PortId) : t.portExists pt = s.portExists pt := by
  simp [State.portExists, h.mode_eq, h.split_eq]
theorem SameShape.unitExists_eq (h : SameShape s t) (u : UnitId) : t.unitExists u = s.unitExists u := by
  cases u <;> simp [State.unitExists, h.portExists_eq, h.mode_eq, h.split_eq]
theorem SameShape.portsIn_eq (h : SameShape s t) (md : Mode) : t.portsIn md = s.portsIn md := by
  simp [State.portsIn, h.portExists_eq, h.mode_eq]
theorem SameShape.boundPort_eq (h : SameShape s t) (k : Fin 64) : t.boundPort k = s.boundPort k := by
  simp [State.boundPort, State.mslot, h.portsIn_eq, h.slot, h.bound]
theorem SameShape.isBound_eq (h : SameShape s t) (pt : PortId) : t.isBound pt = s.isBound pt := by
  simp [State.isBound, h.boundPort_eq]
theorem SameShape.domainOf_eq (h : SameShape s t) (u : UnitId) : t.domainOf u = s.domainOf u := by
  cases u <;> simp [State.domainOf, h.isBound_eq]

/-- Raising an event leaves which units exist and how ports are bound. -/
theorem raises_shape {u : UnitId} {p : Prog} (hp : Prog.Only (Eff.raises u) p) (s : State) : SameShape s (p.run s) where
  mode g := raises_fldn hp s _ _ 0 (by cases g; rfl) (.inl (by decide))
  split g := raises_fldn hp s _ _ 0 (by cases g; rfl) (.inl (by decide))
  slot pt := raises_fldn hp s _ _ 0 (by cases pt; rfl) (.inr ⟨by decide, by decide⟩)
  bound := by
    obtain ⟨w, r, h⟩ := raises_dev hp s
    rw [h]

/-! ### The entry of an event -/

theorem counts_hist {u : UnitId} {p : Prog} (hp : Prog.Only (Eff.counts u) p) (s : State) : (p.run s).hist = s.hist :=
  hp.same State.hist (fun e t he => by cases e <;> first | rfl | exact he.elim) s

theorem counts_dev {u : UnitId} {p : Prog} (hp : Prog.Only (Eff.counts u) p) (s : State) : (p.run s).dev = s.dev :=
  hp.same State.dev (fun e t he => by cases e <;> first | rfl | exact he.elim) s

/-- While there is room, an entry is appended and none leaves. -/
theorem histAppend_room (n : Nat) (e : HistEntry) (s : State) (h : s.hist.length < histMax) :
    ((histAppend (n + 1) e).run s).hist = s.hist ++ [{ e with seq := s.fld .root F.DEV_WS_HEAD_NEXT_SEQ, time := s.time }] := by
  have hov : ¬(histMax ≤ s.hist.length) := by omega
  cases hl : s.hist with
  | nil => simp [histAppend, hl, Prog.set, Prog.setn, histMax]
  | cons o l =>
    rw [hl] at h hov
    have hd : l.length + 1 + 1 - histMax = 0 := by simp only [List.length_cons] at h; omega
    simp only [List.length_cons] at hov
    simp [histAppend, hl, Prog.set, Prog.setn, hd, hov]

/-- An event that its rate limit does not keep out is logged with its unit's domain, its argument and the time (R433), while the history queue has
room for it. -/
theorem raiseCore_logs (ev : Nat) (u : UnitId) (lk arg : Nat) (s : State) (hr : s.hist.length < histMax)
    (hl : (s.filing ev u lk).logged = true) :
    ∃ e, ((raiseCore ev u lk arg).run s).hist = s.hist ++ [e] ∧ e.event = ev ∧ e.path = pathCode (s.domainOf u) ∧
      e.level = (s.filing ev u lk).level ∧ e.arg = arg % 2 ^ 64 ∧ e.time = s.time ∧ e.seq = s.fld .root F.DEV_WS_HEAD_NEXT_SEQ := by
  simp only [raiseCore, Prog.run_look, Prog.run_all_cons, Prog.run_all_nil, Prog.run_when, hl, if_true, Bool.not_true,
    Bool.false_eq_true, if_false]
  refine ⟨?e, ?hh, ?_⟩
  case hh =>
    have hroom : ∀ f : Watershed → Watershed, ((Prog.ws f).run s).hist.length < histMax := fun f => hr
    split <;> split <;> simp only [Prog.ws_at_hist, histAppend_room 32 _ _ (hroom _)] <;> rfl
  exact ⟨rfl, rfl, rfl, rfl, rfl, rfl⟩

/-- What an event is logged as, in a domain at a level with an argument and a time. -/
def HistEntry.says (e : HistEntry) (ev : Nat) (dom : UnitId) (lvl arg time : Nat) : Prop :=
  e.event = ev ∧ e.path = pathCode dom ∧ e.level = lvl ∧ e.arg = arg % 2 ^ 64 ∧ e.time = time

theorem filing_level_congr (s t : State) (ev : Nat) (u : UnitId) (lk : Nat) (hd : t.dev = s.dev) (hs : SameShape s t) :
    (t.filing ev u lk).level = (s.filing ev u lk).level := by
  simp only [State.filing, hd, hs.domainOf_eq]

theorem filing_logged_congr (s t : State) (ev : Nat) (u : UnitId) (lk : Nat) (hd : t.dev = s.dev) (hs : SameShape s t)
    (ht : t.time = s.time) : (t.filing ev u lk).logged = (s.filing ev u lk).logged := by
  simp only [State.filing, hd, hs.domainOf_eq, ht]

/-- Raising an event that its rate limit does not keep out appends its history entry, at most one for the wrap of a counter (EV196) after it, while
the history queue has room for both. -/
theorem raiseLim_logs (ev : Nat) (u : UnitId) (lk arg : Nat) (s : State) (hr : s.hist.length + 2 ≤ histMax)
    (hl : (s.filing ev u lk).logged = true) :
    ∃ e l, ((raiseLim ev u lk arg).run s).hist = s.hist ++ e :: l ∧ l.length ≤ 1 ∧
      e.says ev (s.domainOf u) (s.filing ev u lk).level arg s.time ∧ e.seq = s.fld .root F.DEV_WS_HEAD_NEXT_SEQ := by
  have hc := gaugeCount_only u 0x40 none ev 1
  have hcr := hc.mono fun e h => e.counts_raises h
  have h1 := counts_hist hc s
  have h2 := counts_dev hc s
  have hs := raises_shape hcr s
  have ht := raises_time hcr s
  have hq : ((gaugeCount u 0x40 none ev 1).run s).fld .root F.DEV_WS_HEAD_NEXT_SEQ = s.fld .root F.DEV_WS_HEAD_NEXT_SEQ := by
    refine State.fldn_congr _ _ _ _ _ (hc.same (fun t => Tab.get? t.regs _) (fun e t he => ?_) s)
    cases e with
    | reg k v =>
      refine Tab.get?_put_other _ _ _ _ ?_
      rintro rfl
      exact fkey_not_gauge u .root F.DEV_WS_HEAD_NEXT_SEQ 0 rfl (.inr (by decide)) he
    | _ => exact he.elim
  obtain ⟨e, he, h3, h4, h5, h6, h7, h8⟩ := raiseCore_logs ev u lk arg ((gaugeCount u 0x40 none ev 1).run s) (by rw [h1]; omega)
    (by rw [filing_logged_congr s _ ev u lk h2 hs ht]; exact hl)
  rw [h1] at he
  rw [hs.domainOf_eq] at h4
  rw [filing_level_congr s _ ev u lk h2 hs] at h5
  rw [ht] at h7
  rw [hq] at h8
  have hrel : ∀ s' : State, ((relayEvent ev u arg).run s').hist = s'.hist := by
    intro s'
    unfold relayEvent
    split
    · simp only [Prog.run_when]; split <;> rfl
    · rfl
  simp only [raiseLim, Prog.run_look, Prog.run_all_cons, Prog.run_all_nil, Prog.run_when]
  generalize hm : (relayEvent ev u arg).run ((raiseCore ev u lk arg).run ((gaugeCount u 0x40 none ev 1).run s)) = m
  have hmh : m.hist = s.hist ++ [e] := by rw [← hm, hrel, he]
  split
  · by_cases hlog : (m.filing 196 u (limitKey 196 u)).logged = true
    · obtain ⟨e', he', -⟩ := raiseCore_logs 196 u (limitKey 196 u) 0 m (by rw [hmh]; simp; omega) hlog
      exact ⟨e, [e'], by rw [he', hmh]; simp, by simp, ⟨h3, h4, h5, h6, h7⟩, h8⟩
    · refine ⟨e, [], ?_, by simp, ⟨h3, h4, h5, h6, h7⟩, h8⟩
      have hlv := m.filing_L0 196 u (limitKey 196 u) (by simp [eventLevel])
      simp only [raiseCore, Prog.run_look, Prog.run_all_cons, Prog.run_all_nil, Prog.run_when, hlog, hlv]
      simpa using hmh
  · exact ⟨e, [], hmh, by simp, ⟨h3, h4, h5, h6, h7⟩, h8⟩

/-- An event without a rate limit, or whose limit has not run, is logged. -/
theorem filing_logged (s : State) (ev : Nat) (u : UnitId) (lk : Nat)
    (h : rateGroup ev = none ∨ Tab.get? s.dev.ws.stamps lk = none) : (s.filing ev u lk).logged = true := by
  obtain h | h := h
  · simp [State.filing, h]
  · simp only [State.filing, h, Bool.or_eq_true, Bool.not_eq_true']
    right; split <;> rfl

/-- What raising an event logs. -/
theorem raise_logs (ev : Nat) (u : UnitId) (arg : Nat) (s : State) (hr : s.hist.length + 2 ≤ histMax)
    (h : rateGroup ev = none ∨ Tab.get? s.dev.ws.stamps (limitKey ev u) = none) :
    ∃ e ∈ ((raise ev u arg).run s).hist, e.says ev (s.domainOf u) (s.filing ev u (limitKey ev u)).level arg s.time := by
  obtain ⟨e, l, he, -, h1, -⟩ := raiseLim_logs ev u (limitKey ev u) arg s hr (filing_logged s ev u _ h)
  exact ⟨e, by rw [raise, he]; simp, h1⟩

end Sys2Proof.Machine
end

