-- ==== Sys2Proof/Laws/Memory.lean ====
section
/-!
SUPPORT. Laws/Memory.lean: reading the Reservoir's bytes after a write, and the canonical form of memory and of the register store.
-/
namespace Sys2Proof.Machine

@[simp] theorem memRead_memWrite_same (m : List Host.Cell) (a : Nat) (b : Byte) : memRead (memWrite m a b) a = b := by
  simp [memRead, memWrite]

theorem memRead_memWrite_other (m : List Host.Cell) (a c : Nat) (b : Byte) (h : c ≠ a) :
    memRead (memWrite m a b) c = memRead m c := Tab.getD_setD_other m 0 0 a c b h

theorem Tab.all_put {α : Type} (t : Tab α) (i : Nat) (v : α) (p : Nat × α → Bool) (h : t.all p = true) (hv : p (i, v) = true) :
    (Tab.put t i v).all p = true := by
  induction t with
  | nil => simp [Tab.put, hv]
  | cons e t ih =>
    obtain ⟨k, w⟩ := e
    simp only [List.all_cons, Bool.and_eq_true] at h
    simp only [Tab.put]
    split
    · simp [hv, h.1, h.2]
    · split
      · simp [hv, h.2]
      · simp [h.1, ih h.2]

theorem all_filter {α : Type} (l : List α) (p q : α → Bool) (h : l.all p = true) : (l.filter q).all p = true := by
  simp only [List.all_eq_true, List.mem_filter] at h ⊢
  exact fun x hx => h x hx.1

/-- Storing a byte keeps the canonical form. -/
theorem memWrite_wf (m : List Host.Cell) (a : Nat) (b : Byte) (h : Memory.wf m = true) : Memory.wf (memWrite m a b) = true := by
  simp only [Memory.wf, Bool.and_eq_true] at h ⊢
  refine ⟨Tab.wf_setD m 0 a b h.1, ?_⟩
  unfold memWrite Tab.setD
  split
  · exact all_filter _ _ _ h.2
  · next hb => exact Tab.all_put m a b _ h.2 (by simpa using hb)

/-- Clearing bytes keeps the canonical form. -/
theorem memDrop_wf (m : List Host.Cell) (p : Nat → Byte → Bool) (h : Memory.wf m = true) :
    Memory.wf (Tab.keep m p) = true := by
  simp only [Memory.wf, Bool.and_eq_true] at h ⊢
  exact ⟨Tab.wf_keep m p h.1, all_filter _ _ _ h.2⟩

/-- Setting a field, brought to its width, keeps the register store's form. -/
theorem regPut_wf (r : Tab Nat) (k v : Nat) (h : Regs.wf r = true) : Regs.wf (Tab.put r k (v % 2 ^ keyWidth k)) = true := by
  simp only [Regs.wf, Bool.and_eq_true] at h ⊢
  refine ⟨Tab.wf_put r k _ h.1, Tab.all_put r k _ _ h.2 ?_⟩
  simpa using Nat.mod_lt v (Nat.two_pow_pos (keyWidth k))

/-- Bringing fields back to their reset values keeps the register store's form. -/
theorem regDrop_wf (r : Tab Nat) (p : Nat → Nat → Bool) (h : Regs.wf r = true) : Regs.wf (Tab.keep r p) = true := by
  simp only [Regs.wf, Bool.and_eq_true] at h ⊢
  exact ⟨Tab.wf_keep r p h.1, all_filter _ _ _ h.2⟩

end Sys2Proof.Machine
end

