-- ==== Sys2Proof/Laws/Inv.lean ====
section
/-!
SUPPORT. Laws/Inv.lean: every primitive update keeps the device's invariant and its queue of commands, so every program does.
-/
namespace Sys2Proof.Machine

/-- Every primitive update keeps the invariant. -/
theorem Eff.apply_inv (e : Eff) (s : State) (h : s.Inv) : (e.apply s).Inv := by
  obtain ⟨hr, hm, hh, hc, hb⟩ := h
  cases e with
  | reg k v => exact ⟨regPut_wf _ _ _ hr, hm, hh, hc, hb⟩
  | dropRegs p => exact ⟨regDrop_wf _ (fun k _ => !p k) hr, hm, hh, hc, hb⟩
  | mem a b => exact ⟨hr, memWrite_wf _ _ _ hm, hh, hc, hb⟩
  | dropMem p => exact ⟨hr, memDrop_wf _ (fun k _ => !p k) hm, hh, hc, hb⟩
  | hist e =>
    refine ⟨hr, hm, ?_, hc, hb⟩
    simp only [Eff.apply, List.length_drop, List.length_append, List.length_cons, List.length_nil]; omega
  | histMap f => exact ⟨hr, hm, by simpa [Eff.apply] using hh, hc, hb⟩
  | histClear => exact ⟨hr, hm, by simp [Eff.apply], hc, hb⟩
  | send o => exact ⟨hr, hm, hh, hc, hb⟩
  | sendClear => exact ⟨hr, hm, hh, hc, hb⟩
  | tick n => exact ⟨hr, hm, hh, hc, hb⟩
  | restart => exact ⟨hr, hm, hh, hc, hb⟩
  | fresh => exact ⟨hr, hm, hh, hc, hb⟩
  | cmdPush q => exact ⟨hr, hm, hh, by simp only [Eff.apply, List.length_take]; omega, hb⟩
  | cmdPop i => exact ⟨hr, hm, hh, Nat.le_trans (List.length_eraseIdx_le _ _) hc, hb⟩
  | cmdClear => exact ⟨hr, hm, hh, by simp [Eff.apply], hb⟩
  | bgPut b => exact ⟨hr, hm, hh, hc, by simp only [Eff.apply, List.length_take]; omega⟩
  | bgDrop p => exact ⟨hr, hm, hh, hc, Nat.le_trans (List.length_filter_le _ _) hb⟩
  | dev f => exact ⟨hr, hm, hh, hc, hb⟩

/-- Every program keeps the invariant. -/
theorem Prog.run_inv (p : Prog) (s : State) (h : s.Inv) : (p.run s).Inv :=
  Prog.run_keeps (P := State.Inv) Eff.apply_inv p s h

/-- No primitive update touches the queue of commands that wait. -/
theorem Eff.apply_pending (e : Eff) (s : State) : (e.apply s).pending = s.pending := by cases e <;> rfl

/-- No program touches the queue of commands that wait. -/
theorem Prog.run_pending (p : Prog) (s : State) : (p.run s).pending = s.pending :=
  p.only_true.same State.pending (fun e t _ => e.apply_pending t) s

end Sys2Proof.Machine
end

