-- ==== Sys2Proof/Laws/RegWrite.lean ====
section
/-!
SUPPORT. Laws/RegWrite.lean: what storing a written value into a register's fields does, and when a write reaches its register's domain.
-/
namespace Sys2Proof.Machine

/-- The held low half of a master is gone (R9). -/
theorem run_dropHeld (m : Master) (s : State) : (dropHeld m).run s =
    { s with dev := { s.dev with io := { s.dev.io with low := s.dev.io.low.filter fun h => h.master != m } } } := rfl

/-- A write of a whole register in the core domain: the register takes it now (R9, R386). -/
theorem regWhole_core (m : Master) (u : UnitId) (id : RegId) (n v : Nat) (s : State) (hu : s.unitExists u = true)
    (hr : s.regHere u id = true) (hd : regDomain u id = .core) :
    (regWhole m u id n v).run s = (regTake m u id n v).run ((dropHeld m).run s) := by
  simp [regWhole, hu, hr, crossWrite, hd]

/-- The state in which a write into another domain is taken: it is in flight (R388). -/
def State.crossing (s : State) (u : UnitId) (id : RegId) (n : Nat) : State :=
  { s with dev := { s.dev with io := { s.dev.io with
      crossing := Tab.put s.dev.io.crossing (regAddr u id n) { flight := true, shadow := none, kept := none } } } }

/-- A write of a whole register in another domain, that is taken at once: the domain takes it, and it is in flight until its
acknowledge (R387, R388). -/
theorem regWhole_cross (m : Master) (u : UnitId) (id : RegId) (n v : Nat) (s : State) (hu : s.unitExists u = true)
    (hr : s.regHere u id = true) (hd : regDomain u id ≠ .core) (hc : s.clocked (regDomain u id) = true)
    (hf : s.crossFree (regAddr u id n) = true) :
    (regWhole m u id n v).run s = (regTake m u id n v).run (((dropHeld m).run s).crossing u id n) := by
  have hf' : ((dropHeld m).run s).crossFree (regAddr u id n) = true := hf
  have hc' : ((dropHeld m).run s).clocked (regDomain u id) = true := hc
  simp only [regWhole, Prog.run_look, hu, hr, Bool.and_self, Prog.run_when, if_true, Prog.run_seq, crossWrite, hd, if_false, hc',
    Bool.not_true, Bool.false_eq_true, crossAt, hf']
  rfl

/-- A write of a register reaches its domain now, in a state that differs in the held low halves and the crossings alone. -/
theorem regWhole_now (m : Master) (u : UnitId) (id : RegId) (n v : Nat) (s : State) (hu : s.unitExists u = true)
    (hr : s.regHere u id = true) (hc : s.clocked (regDomain u id) = true) (hf : s.crossFree (regAddr u id n) = true) :
    ∃ cr, (regWhole m u id n v).run s = (regTake m u id n v).run
      { s with dev := { s.dev with io := { s.dev.io with low := s.dev.io.low.filter fun h => h.master != m, crossing := cr } } } := by
  by_cases hd : regDomain u id = .core
  · exact ⟨s.dev.io.crossing, by rw [regWhole_core m u id n v s hu hr hd]; rfl⟩
  · exact ⟨_, by rw [regWhole_cross m u id n v s hu hr hd hc hf]; rfl⟩

/-! ### Storing fields -/

/-- The updates of storing into given fields of a unit: those fields. -/
def Eff.stores (u : UnitId) (n : Nat) (l : List Fld) : Eff → Prop
  | .reg k _ => ∃ f ∈ l, k = fkey u f n
  | _ => False

theorem fldStore_only (u : UnitId) (n v : Nat) (f : Fld) (l : List Fld) (h : f ∈ l) :
    Prog.Only (Eff.stores u n l) (fldStore u n v f) := by
  unfold fldStore
  split
  · exact .eff ⟨f, h, rfl⟩
  · exact .eff ⟨f, h, rfl⟩
  · exact .look fun _ => .eff ⟨f, h, rfl⟩
  · exact .look fun _ => .eff ⟨f, h, rfl⟩
  · exact .skip

/-- Storing a written value changes fields of the register alone. -/
theorem regStore_only (u : UnitId) (id : RegId) (n v : Nat) :
    Prog.Only (Eff.stores u n (regSpec (unitClass u) id).fields) (regStore u id n v) :=
  .each fun f hf => fldStore_only u n v f _ hf

theorem stores_state {u : UnitId} {n : Nat} {l : List Fld} {p : Prog} (hp : Prog.Only (Eff.stores u n l) p) (s : State) :
    p.run s = { s with regs := (p.run s).regs } := by
  refine hp.keeps (P := fun t => t = { s with regs := t.regs }) (fun e t he ht => ?_) s rfl
  cases e with
  | reg k v => rw [ht]; rfl
  | _ => exact he.elim

theorem stores_reg {u : UnitId} {n : Nat} {l : List Fld} {p : Prog} (hp : Prog.Only (Eff.stores u n l) p) (s : State) (k : Nat)
    (h : ∀ f ∈ l, k ≠ fkey u f n) : Tab.get? (p.run s).regs k = Tab.get? s.regs k := by
  refine hp.same (fun t => Tab.get? t.regs k) (fun e t he => ?_) s
  cases e with
  | reg k' v =>
    obtain ⟨f, hf, rfl⟩ := he
    exact Tab.get?_put_other _ _ _ _ (h f hf)
  | _ => exact he.elim

/-- What one field holds after a written value is stored (R11, R551). -/
def storedVal (f : Fld) (old v : Nat) : Nat :=
  match f.acc with
  | .rw | .rwl => f.bring (f.part v) % 2 ^ f.w
  | .w1s => (old ||| f.part v) % 2 ^ f.w
  | .w1c => (old ^^^ (old &&& f.part v)) % 2 ^ f.w
  | _ => old

theorem fldStore_same (u : UnitId) (n v : Nat) (f : Fld) (s : State) (h1 : 1 ≤ f.w) (h2 : f.w ≤ 64) :
    ((fldStore u n v f).run s).fldn u f n = storedVal f (s.fldn u f n) v := by
  unfold fldStore storedVal
  cases f.acc <;> simp only [Prog.run_look, Prog.run_skip, State.fldn_setn_same _ _ _ _ _ h1 h2]

theorem fldStore_other (u : UnitId) (n v : Nat) (f g : Fld) (s : State) (h : fkey u g n ≠ fkey u f n) :
    ((fldStore u n v f).run s).fldn u g n = s.fldn u g n :=
  State.fldn_congr _ _ _ _ _ (stores_reg (fldStore_only u n v f [f] (by simp)) s _ (by simpa using h))

theorem eachStore_other (u : UnitId) (n v : Nat) (l : List Fld) (s : State) (f : Fld) (h : ∀ g ∈ l, fkey u f n ≠ fkey u g n) :
    ((Prog.each l (fldStore u n v)).run s).fldn u f n = s.fldn u f n :=
  State.fldn_congr _ _ _ _ _ (stores_reg (l := l) (.each fun g hg => fldStore_only u n v g _ hg) s _ h)

/-- Every field of a list, each at its own place, holds what the write stores into it. -/
theorem eachStore_fld (u : UnitId) (n v : Nat) (l : List Fld) (s : State) (f : Fld) (hf : f ∈ l) (h1 : 1 ≤ f.w) (h2 : f.w ≤ 64)
    (hd : l.Pairwise fun f g => placeKey 0 f n ≠ placeKey 0 g n) :
    ((Prog.each l (fldStore u n v)).run s).fldn u f n = storedVal f (s.fldn u f n) v := by
  induction l generalizing s with
  | nil => simp at hf
  | cons g l ih =>
    simp only [Prog.run_each_cons]
    obtain ⟨hg, hl⟩ := List.pairwise_cons.mp hd
    obtain rfl | hf := List.mem_cons.mp hf
    · rw [eachStore_other u n v l _ f fun g' hg' e => hg g' hg' ((fkey_same_unit u f g' n n).mp e)]
      exact fldStore_same u n v f s h1 h2
    · rw [ih _ hf hl, fldStore_other u n v g f s fun e => hg f hf ((fkey_same_unit u f g n n).mp e).symm]

/-- Storing a written value into a register sets each of its fields by access code and range. -/
theorem regStore_fld (u : UnitId) (id : RegId) (n v : Nat) (s : State) (f : Fld) (hf : f ∈ (regSpec (unitClass u) id).fields)
    (h1 : 1 ≤ f.w) (h2 : f.w ≤ 64)
    (hd : (regSpec (unitClass u) id).fields.Pairwise fun f g => placeKey 0 f n ≠ placeKey 0 g n) :
    ((regStore u id n v).run s).fldn u f n = storedVal f (s.fldn u f n) v :=
  eachStore_fld u n v _ s f hf h1 h2 hd

/-- A plain write of a legal value stores it. -/
theorem regPlain_legal (u : UnitId) (id : RegId) (n v : Nat) (h : regLegal (regSpec (unitClass u) id) v = true) :
    regPlain u id n v = regStore u id n v := by simp [regPlain, h]

end Sys2Proof.Machine
end

