-- ==== Sys2Proof/Machine/Electrical.lean ====
section
/-!
DEFINITION. Machine/Electrical.lean: the electrical and thermal figures of the device (R443, R445, R526-R541): the limits of its rails, currents and powers,
the levels of its pins, its lanes, reference clocks and slot die. They hold of the parts around the state of the model; what crosses a limit comes to the
model as the command of the detector that watches it. Voltages are in microvolts unless a name says otherwise.
-/
namespace Sys2Proof.Machine

/-! ### Rails (R443, R445, R526-R530) -/

/-- The sequencing groups of rails (R443). -/
inductive RailGroup where
  | a | b | c | free
  deriving DecidableEq, Repr

/-- The sequencing group of a rail; VIN_SLOT may rise at any time (R443). -/
def Rail.group : Rail → RailGroup
  | .vddAux | .vddioAux => .a
  | .vddCore | .vddSram | .vddSds | .vddaSds | .vddIo | .vddSlot => .b
  | .vppRsv | .vddqRsv | .vddhSds => .c
  | .vinSlot => .free

/-- The time within which the rails of a group rise, in any order, in milliseconds (R443). -/
def groupRiseMs : Nat := 20

/-- Whether a rail must be in regulation before another starts to rise (R443): groups A, B and C in order, and VPP_RSV before VDDQ_RSV. -/
def Rail.before (r q : Rail) : Bool :=
  match r.group, q.group with
  | .a, .b | .a, .c | .b, .c => true
  | _, _ => r == .vppRsv && q == .vddqRsv

/-- The least and the greatest voltage a rail ever may have (R526). -/
def Rail.absolute : Rail → Int × Int
  | .vddCore | .vddAux => (-300000, 950000)
  | .vddSram | .vddSds => (-300000, 1000000)
  | .vddaSds => (-300000, 1050000)
  | .vddqRsv => (-300000, 1250000)
  | .vddhSds => (-300000, 1400000)
  | .vppRsv | .vddIo | .vddioAux => (-300000, 2100000)
  | .vddSlot => (-300000, 3800000)
  | .vinSlot => (-300000, 16000000)

/-- The recommended range of a rail, and its ripple and noise (R527). -/
structure RailRange where
  least : Nat
  nominal : Nat
  most : Nat
  ripple : Nat
  deriving DecidableEq, Repr

/-- The recommended ranges (R527). -/
def Rail.range : Rail → RailRange
  | .vddCore => ⟨727500, 750000, 772500, 15000⟩
  | .vddSram => ⟨824500, 850000, 875500, 15000⟩
  | .vddSds => ⟨776000, 800000, 824000, 10000⟩
  | .vddaSds => ⟨873000, 900000, 927000, 5000⟩
  | .vddhSds => ⟨1164000, 1200000, 1236000, 10000⟩
  | .vddqRsv => ⟨1018500, 1050000, 1081500, 15000⟩
  | .vppRsv | .vddIo | .vddioAux => ⟨1746000, 1800000, 1854000, 30000⟩
  | .vddAux => ⟨776000, 800000, 824000, 10000⟩
  | .vddSlot => ⟨3200000, 3300000, 3400000, 50000⟩
  | .vinSlot => ⟨11400000, 12000000, 12600000, 120000⟩

/-- The warning and the fault level of a rail (R445): 4% and 8% below nominal where no level of its own is given. -/
def Rail.levels (r : Rail) : Nat × Nat :=
  match r with
  | .vddCore => (720000, 680000)
  | .vddSram => (820000, 780000)
  | .vinSlot => (11000000, 10200000)
  | _ => (r.range.nominal * 96 / 100, r.range.nominal * 92 / 100)

/-- How long the voltage of a rail stays below its fault level before the fault is raised, in microseconds (R445). -/
def Rail.faultUs : Rail → Nat
  | .vddCore | .vddSram | .vddAux | .vddioAux => 0
  | _ => 10

/-- The current a rail draws in configuration S1 and its power, typical, and the greatest current, in milliamperes and milliwatts (R529, R530). -/
def Rail.draw : Rail → Nat × Nat × Nat
  | .vddCore => (100000, 75000, 130000)
  | .vddSram => (17600, 15000, 25000)
  | .vddSds => (125000, 100000, 150000)
  | .vddaSds => (77800, 70000, 95000)
  | .vddhSds => (45800, 55000, 55000)
  | .vddqRsv => (32400, 34000, 40000)
  | .vppRsv => (3300, 6000, 5000)
  | .vddIo => (300, 500, 500)
  | .vddAux => (1200, 1000, 1500)
  | .vddioAux => (50, 100, 100)
  | .vddSlot => (1200, 4000, 1500)
  | .vinSlot => (100, 1200, 150)

/-- The rise of a rail from 10% to 90%, in microseconds, and the overshoot in percent of nominal (R528). -/
def railRise : Nat × Nat × Nat := (100, 10000, 5)

/-- A load step on VDD_CORE that leaves the rail in its range: the step in amperes and its slope in amperes per microsecond (R529). -/
def coreStep : Nat × Nat := (50, 100)

/-- Limits of the parts as a whole (R526): the least and greatest junction and storage temperatures, and the human-body voltage of slot balls and of others. -/
def absoluteOther : (Int × Int) × (Int × Int) × Nat × Nat := ((-40, 125), (-55, 125), 2000, 1000)

/-- The charged-device voltage that every ball stands, of either sign (R526). -/
def cdmVolts : Nat := 250

/-- The least and the greatest voltage an input ever may have (R526): of a CMOS or slot logic input over its own supply, of a SerDes or reference clock
pin over VDDH_SDS, and of a slot's sense inputs that of VIN_SLOT. -/
def Sig.absolute (own : Int) (vddh : Int) : Sig → Int × Int
  | .slot _ .snsp | .slot _ .snsn | .slot _ .vout => (-300000, 16000000)
  | .tx _ _ _ | .rx _ _ _ | .fco _ _ | .fci _ _ | .refclk _ _ | .sysclk _ => (-300000, vddh + 300000)
  | _ => (-300000, own + 300000)

/-- The most a gate-to-source clamp of a pass MOSFET may allow, in volts (R526). -/
def gateClamp : Nat := 15

/-! ### Power (R530, R531) -/

/-- The reference configurations whose power is given. -/
inductive RefConfig where
  | l1 | l2 | f1 | s1
  deriving DecidableEq, Repr

/-- The SerDes power of a configuration, in tenths of a watt (R531). -/
def RefConfig.serdes : RefConfig → Nat
  | .l1 => 1656 | .l2 => 1573 | .f1 => 1740 | .s1 => 2240

/-- The device power of a configuration, typical, in watts; 18 W more is its maximum (R530, R531). -/
def RefConfig.typical : RefConfig → Nat
  | .l1 => 293 | .l2 => 284 | .f1 => 301 | .s1 => 362

/-- The maximum of a configuration (R531). -/
def RefConfig.maximum (c : RefConfig) : Nat := c.typical + 18

/-- The energy of a lane in tenths of a picojoule per bit and direction: in mode F, and in modes H and M at 64 GT/s (R531). -/
def laneEnergy (fabric : Bool) : Nat := if fabric then 10 else 24

/-- The power the core and SRAM take, in watts (R531). -/
def corePower (c : RefConfig) : Nat := if c = .s1 then 70 else 60

/-- The part of its loaded SerDes power that an idle link in mode F draws, in percent (R531). -/
def idlePercent : Nat := 70

/-- The SerDes power of a group in mode F in tenths of a milliwatt for its gigabits per second in each direction: the load's share over an idle link's, and
none of a group that is OFF (R531). -/
def groupPower (off idle : Bool) (gbps : Nat) : Nat :=
  if off then 0 else 2 * gbps * laneEnergy true * (if idle then idlePercent else 100) / 100

/-! ### Pins (R532) -/

/-- What an input reads at a voltage over its own supply: high from 0.65 of it, low to 0.35 of it, open between (R532). -/
def cmosLevel (vdd v : Nat) : Option Bool :=
  if 65 * vdd ≤ 100 * v then some true else if 100 * v ≤ 35 * vdd then some false else none

/-- What an input of the slot die reads (R537): high from 2.0 V, low to 0.8 V. -/
def slotLevel (v : Nat) : Option Bool := if 2000000 ≤ v then some true else if v ≤ 800000 then some false else none

/-- The least level of a push-pull output that is high, and the greatest of one that is low (R532). -/
def cmosOut (vdd : Nat) : Nat × Nat := (vdd - 450000, 450000)

/-- The least hysteresis of PWROK, RESET_L and the PERST_L balls (R532). -/
def cmosHysteresis (vdd : Nat) : Nat := vdd / 10

/-- THERMTRIP_L: the greatest low level, the current in milliamperes at which it holds, and the voltage its pull-up may have (R532). -/
def thermtripLow : Nat × Nat × Nat := (400000, 8, 3600000)

/-- The QSPI setup and hold at the device to SCK, in picoseconds (R532). -/
def qspiSetupHold : Nat × Nat := (2000, 2000)

/-- The greatest rates of the serial pins in kHz: QSPI_SCK, TCK and I3C (R532). -/
def pinRates : Nat × Nat × Nat := (50000, 25000, 12500)

/-- The range of an internal pull in ohms (R532). -/
def pullOhms : Nat × Nat := (35000, 65000)

/-! ### Lanes and clocks (R533-R536) -/

/-- The nominal differential swing of a transmitter for LN_TXEQ.SWING, in millivolts peak to peak (R533). -/
def txSwing (swing : Fin 16) : Nat := 500 + 40 * swing.val

/-- The swings that meet the tolerance of a nominal one: 10% (R533). -/
def swingRange (nominal : Nat) : Nat × Nat := (nominal * 9 / 10, nominal * 11 / 10)

/-- What a transmitter in mode F meets beside its swing (R533). -/
structure TxFigures where
  /-- The least level separation mismatch ratio, in hundredths. -/
  rlm : Nat
  /-- The differential impedance in ohms and its tolerance in percent. -/
  impedance : Nat × Nat
  /-- The least return loss in dB to 27 GHz and from there to 55 GHz. -/
  returnLoss : Nat × Nat
  /-- The greatest AC common-mode output, in millivolts rms. -/
  commonMode : Nat
  /-- The greatest uncorrelated jitter of data against FCO, in hundredths of a unit interval. -/
  jitter : Nat
  /-- The FCO swing in millivolts with its tolerance in percent. -/
  fco : Nat × Nat
  /-- The FCO duty cycle and its tolerance in percent. -/
  duty : Nat × Nat
  deriving DecidableEq, Repr

/-- The figures of a transmitter in mode F (R533). -/
def txFigures : TxFigures := ⟨95, (100, 10), (10, 6), 25, 6, (600, 10), (50, 3)⟩

/-- What holds at a receiver in mode F beside the insertion loss and the skew (R534): the greatest jitter between FCI and a lane in hundredths of a unit
interval, the greatest received swing in millivolts, and its termination in ohms with the tolerance in percent. -/
def rxFigures : Nat × Nat × Nat × Nat := (15, 1200, 100, 10)

/-- Whether SWING meets PCI Express 6.2 in modes H and M (R535). -/
def swingInStandard (swing : Fin 16) : Bool := decide (10 ≤ swing.val)

/-- The greatest insertion loss, in dB, and the frequency in 10 MHz at which it is taken, for a RATE of mode F (R534). -/
def insertionLoss (rate : Nat) : Nat × Nat := (20, if rate = 1 then 5469 else if rate = 2 then 2734 else 1367)

/-- A phase code of the margin monitor in parts of a unit interval, and a step of V_OFS in millivolts with its tolerance in percent (R534). -/
def marginStep : Nat × Nat × Nat := (64, 4, 25)

/-- The range of the AC coupling of a pair, in nanofarads per side (R535). -/
def acCoupling : Nat × Nat := (75, 265)

/-- The tolerance of a reference clock in ppm: REFCLK0-3, SYSCLK and AUXCLK (R536). -/
def refTolerance : Nat × Nat × Nat := (300, 100, 100)

/-- The levels of a reference input (R536). -/
inductive RefLevels where
  | hcsl | differential (leastMv mostMv : Nat) | cmos (dutyLeast dutyMost : Nat)
  deriving DecidableEq, Repr

/-- The greatest jitter of a reference input (R536). -/
inductive RefJitter where
  | pcieCommonClock | rmsFs (n : Nat) | periodPs (n : Nat)
  deriving DecidableEq, Repr

/-- The levels, the jitter and the greatest down-spread in tenths of a percent of a reference input (R536). -/
def Sig.reference : Sig → Option (RefLevels × RefJitter × Nat)
  | .refclk _ _ => some (.hcsl, .pcieCommonClock, 5)
  | .sysclk _ => some (.differential 400 1600, .rmsFs 150, 0)
  | .auxclk => some (.cmos 45 55, .periodPs 50, 0)
  | _ => none

/-- Whether an input off its nominal frequency by so many ppm is reported lost: not within 2% (R383, R536). -/
def refLost (ppm : Nat) : Bool := decide (20000 < ppm)

/-! ### Slot die (R537, R538) -/

/-- The voltage over the shunt at the current limit, in nanovolts, and its tolerance (R537). -/
def limitShunt (rshunt ilim : Nat) : Nat × Nat := (rshunt * ilim, rshunt * ilim * 3 / 100 + 300000)

/-- The range of currents in which the limit of a channel begins to regulate, in milliamperes (R537). -/
def limitRange (rshunt ilim : Nat) : Nat × Nat :=
  let v := limitShunt rshunt ilim
  ((v.1 - v.2) / rshunt, (v.1 + v.2) / rshunt)

/-- The range of currents in which the hard short of a channel trips, in milliamperes (R409, R537), for its multiple of ILIM. -/
def shortRange (ilim multiple : Nat) : Nat × Nat := (ilim * multiple * 9 / 10, ilim * multiple * 11 / 10)

/-- The threshold of the pass-transistor check, in nanovolts over the shunt, and its tolerance (R411, R537). -/
def passCheck (rshunt ilim : Nat) : Nat × Nat := (rshunt * ilim * 5 / 100, 1000000)

/-- What the VOUT sense spans, in volts, its resolution in millivolts and its tolerance in percent and millivolts (R537). -/
def voutSense : Nat × Nat × Nat × Nat := (14, 10, 1, 20)

/-- The gate of a channel: its height over VIN_SLOT, its source current in RAMP, least and greatest in microamperes, and the pull-down of a hard short in
milliamperes (R537). -/
def gateDrive : Nat × Nat × Nat × Nat := (10000000, 5, 50, 1500)

/-- The tolerance of the gate's height over VIN_SLOT, in microvolts, its least pull-down in a normal turn-off in milliamperes, and in a hard short and the
safe state the level in volts, the time in microseconds and the load in nanofarads that it reaches (R537). -/
def gateOff : Nat × Nat × Nat × Nat × Nat := (1000000, 10, 1, 1, 20)

/-- The thermistor and its bias: ohms, tolerance in percent, B in kelvin, and the temperature error in tenths of a degree from 0 to 125 degrees (R537). -/
def tempBias : Nat × Nat × Nat × Nat := (10000, 1, 3435, 15)

/-- The outputs of the slot die at 8 mA, least high and greatest low, in microvolts, and its pull-up in ohms with the tolerance in percent (R537). -/
def slotOut : Nat × Nat × Nat × Nat := (2800000, 400000, 10000, 30)

/-- Whether a pass MOSFET suits a channel (R538): it stands the highest hard-short current for 1 us and the highest regulated current for FT_US, in
milliamperes, at 12.6 V. -/
def passSuits (rshunt ilim multiple peak1us steadyFt : Nat) : Bool :=
  decide ((shortRange ilim multiple).2 ≤ peak1us) && decide ((limitRange rshunt ilim).2 ≤ steadyFt)

/-! ### Thermal limits (R539-R541) -/

/-- The temperature reference's limit for a code, in degrees, and the hottest die and stack sensor over it at 380 W (R540). -/
def thermalReference (lidless : Bool) : Nat × Int × Int := if lidless then (80, 8, 3) else (85, 8, -1)

/-- The power in watts and the time in milliseconds that a thermal solution takes at a time (R541). -/
def thermalPeak : Nat × Nat := (420, 10)

end Sys2Proof.Machine
end

