-- ==== Sys2Proof/WellFormed.lean ====
section
/-!
DEFINITION. WellFormed.lean: which commands the outside can bring: relations between the operands of one row that their types do not state.
-/
namespace Sys2Proof

/-- A firmware image carries a microcode version for each of e0-e7 (R472). -/
def Fw.wf (f : Fw) : Bool := f.ucode.length == 8

/-- What verification finds in a slot: nothing valid, or an image. -/
def fwWf : Option Fw → Bool
  | none => true
  | some f => f.wf

/-- The parameters of an Asryn command fit into the 4,096 bytes of a packet (R459, R464). -/
def AsrynCmd.wf : AsrynCmd → Bool
  | .poolWrite _ _ l | .rsvWrite _ _ l => decide (l.length ≤ 4080)
  | .fwWrite _ _ l | .cfgWrite _ _ l => decide (l.length ≤ 4088)
  | .fabTrustSet l => decide (l.length ≤ 85)
  | .ssetDefine _ _ _ l => decide (l.length ≤ 8)
  | _ => true

/-- A packet has a header of 32 bytes and at most 4,096 bytes of parameters (R459). -/
def Packet.wf (p : Packet) : Bool := p.head.length == 32 && decide (p.params.length ≤ 4096) && p.cmd.wf

/-- The Asryn command that a row stands for, with its header. -/
def Instr.asryn : Instr → Option (Hdr × AsrynCmd)
  | .ping h => some (h, .ping)
  | .regRead h o w => some (h, .regRead o w)
  | .regWrite h o w v => some (h, .regWrite o w v)
  | .unitReset h => some (h, .unitReset)
  | .devReset h => some (h, .devReset)
  | .hwRestart h => some (h, .hwRestart)
  | .faultAck h c => some (h, .faultAck c)
  | .faultQuery h => some (h, .faultQuery)
  | .faultRelease h => some (h, .faultRelease)
  | .mapStage h x e => some (h, .mapStage x e)
  | .mapAdvance h => some (h, .mapAdvance)
  | .ssetDefine h n w x l => some (h, .ssetDefine n w x l)
  | .moveQuery h t => some (h, .moveQuery t)
  | .dmCopy h a b c d e => some (h, .dmCopy a b c d e)
  | .rsvResize h a b => some (h, .rsvResize a b)
  | .rsvPurge h x n => some (h, .rsvPurge x n)
  | .rsvFlush h x n i => some (h, .rsvFlush x n i)
  | .rsvUnpin h x n => some (h, .rsvUnpin x n)
  | .rsvSetClear h x => some (h, .rsvSetClear x)
  | .psnClear h x l => some (h, .psnClear x l)
  | .psnQuery h x => some (h, .psnQuery x)
  | .dirSetClear h x => some (h, .dirSetClear x)
  | .flowCreate h f i a b c d => some (h, .flowCreate f i a b c d)
  | .flowDestroy h f => some (h, .flowDestroy f)
  | .regionRevoke h k => some (h, .regionRevoke k)
  | .insFreeze h => some (h, .insFreeze)
  | .insSave h b l => some (h, .insSave b l)
  | .insRestore h x l => some (h, .insRestore x l)
  | .insThaw h => some (h, .insThaw)
  | .insDiscard h => some (h, .insDiscard)
  | .flowRepoint h f a b => some (h, .flowRepoint f a b)
  | .insReset h => some (h, .insReset)
  | .fabTrustSet h l => some (h, .fabTrustSet l)
  | .fabLinkRetry h => some (h, .fabLinkRetry)
  | .fabComplete h => some (h, .fabComplete)
  | .slotCmd h o => some (h, .slotCmd o)
  | .modMbox h o l => some (h, .modMbox o l)
  | .poolRead h g n => some (h, .poolRead g n)
  | .poolWrite h g n l => some (h, .poolWrite g n l)
  | .rsvRead h a n f => some (h, .rsvRead a n f)
  | .rsvWrite h a n l => some (h, .rsvWrite a n l)
  | .fwWrite h o k l => some (h, .fwWrite o k l)
  | .fwActivate h k => some (h, .fwActivate k)
  | .ucodeLoad h => some (h, .ucodeLoad)
  | .cfgWrite h o k l => some (h, .cfgWrite o k l)
  | .cfgCommit h k => some (h, .cfgCommit k)
  | .unitCertGet h o => some (h, .unitCertGet o)
  | .unitSign h n => some (h, .unitSign n)
  | _ => none

/-- The header of a row names the row's own opcode (R459, R463), and its parameters fit into a packet. -/
def asrynWf (e : Hdr × AsrynCmd) : Bool := e.1.opcode.toNat == e.2.opcode && e.2.wf

/-- A write of the debug master brings as many bytes as it names, a read brings none. -/
def dbgWf (write : Bool) (len : Nat) (data : List Byte) : Bool := data.length == (if write then len else 0)

/-- The tag of a cell (R99, R100): at most 128 bytes in it and 33 cells in its packet, one cell in a packet of a class but IOTX and RMAB, and a tracker tag of 20 bits. -/
def Cell.wf (c : Cell) : Bool :=
  decide (1 ≤ c.bytes) && decide (c.bytes ≤ 128) && decide (1 ≤ c.cells) && decide (c.cells ≤ 33)
    && (c.cls == .iotx || c.cls == .rmab || (c.sop && c.eop && c.cells == 1)) && c.ort.all fun o => decide (o.1 < 65536) && decide (o.2 < 16)

/-- Whether the operands of a command can stand together. -/
def Instr.wf (i : Instr) : Bool := (match i.asryn with | some e => asrynWf e | none => true) && match i with
  | .mctpVendorMessage p => p.wf && p.tail.isEmpty
  | .commandRingFetch _ p => p.wf && p.tail.length == 32
  | .debugAccess _ w _ n l => dbgWf w n.val l
  | .losslessCellArrival c _ => c.wf && c.cls != .rmab
  | .rmabPacketArrival b => b.cell.wf && b.cell.cls == .rmab && b.cell.mill.isSome
  | .wdata p l | .rdata p l => l.length == p.hdr.len
  | .crinit _ _ l _ => l.length == 7
  | .trainDone _ l => decide (l.length ≤ 8)
  | .alignmentMarker _ _ l _ _ _ => decide (l.length ≤ 16320)
  | .pwrokRise _ _ _ a b => fwWf a && fwWf b
  | .resetLRelease a b => fwWf a && fwWf b
  | .warmResetDrainDone a b => fwWf a && fwWf b
  | .firmwareSlotVerified f => fwWf f
  | .vinSlotFault l => decide l.Nodup
  | _ => true

end Sys2Proof
end

