-- ==== Sys2Proof/Tests/Slice0.lean ====
section
/-!
SUPPORT. Tests/Slice0.lean: the model's own tests: ill-formed commands are refused by WellFormed, single steps give what the rules say, and the
hypotheses of the statements are met by concrete states.
-/
namespace Sys2Proof.Tests
open Sys2Proof Sys2Proof.Machine Sys2Proof.Statements

set_option Elab.async false

/-! ### Small states -/

/-- A state with one register field set. -/
def put (s : State) (u : UnitId) (f : Fld) (v : Nat) : State := { s with regs := Tab.put s.regs (fkey u f 0) v }

/-- The device running with Headwater ready. -/
def ready : State := put { State.reset with dev := { Dev.cold with pwr := { Dev.cold.pwr with phase := .run } } } .root F.HW_STAT_READY 1

/-- A group in a mode (1 H, 2 M, 3 F), its PHY domain on and every reference clock there. -/
def withMode (s : State) (g : Fin 64) (mode : Nat) : State :=
  put (put (put s (.group g) F.GRP_STAT_CUR_MODE mode) .root F.DEV_PD_STAT_GRP_ON (2 ^ g.val)) .root F.DEV_CLK_STAT_REFCLK_OK 15

/-- An H port whose link is up. -/
def hostReady : State := put (withMode ready 0 1) (.port ⟨0, 0⟩) F.PRT_HSTAT_LSTATE 3

/-- An M port bound to slot channel 5, its module READY. -/
def modReady : State :=
  let s := put (put (put (withMode ready 1 2) (.port ⟨1, 0⟩) F.PRT_MCFG_SLOT 5) (.port ⟨1, 0⟩) F.PRT_MCFG_EN 1) (.port ⟨1, 0⟩) F.PRT_MSTAT_STATE 3
  { s with dev := { s.dev with ports := { s.dev.ports with bound := [2] } } }

/-- A fabric link in a state of R258, its link layer in a phase. -/
def fabLink (state phase : Nat) : State :=
  put (put (withMode ready 2 3) (fabPort 2) F.PRT_FAB_STAT_STATE state) (fabPort 2) F.PRT_FL_STAT_PHASE phase

/-- A slot channel in a state. -/
def slotIn (st : SlotSt) : State := put ready (.slot 5) F.SLT_STAT_STATE st.num

/-- An instance in a state. -/
def instIn (n : Nat) : State := put ready (.inst 7) F.INS_STAT_STATE n

/-- A command over MCTP to a unit. -/
def hdrTo (u : UnitId) : Hdr := {
  path := .mctp, opcode := 1, seq := 1, ctx := 2, quiet := false, target := BitVec.ofNat 32 (pathCode u), buf := 0, blen := 0 }

/-! ### WellFormed refuses ill-formed commands -/

theorem test_wf_ping : (Instr.ping (hdrTo .root)).wf = true := by decide
theorem test_ill_image : Fw.wf { ver := 1, svn := 1, ucode := [0] } = false := by decide
theorem test_ill_pwrok : (Instr.pwrokRise 0 0 15 (some { ver := 1, svn := 1, ucode := [] }) none).wf = false := by decide
theorem test_ill_verified : (Instr.firmwareSlotVerified (some { ver := 1, svn := 1, ucode := [] })).wf = false := by decide
theorem test_ill_release : (Instr.resetLRelease none (some { ver := 1, svn := 1, ucode := [] })).wf = false := by decide
theorem test_ill_drain : (Instr.warmResetDrainDone none (some { ver := 1, svn := 1, ucode := [] })).wf = false := by decide
theorem test_ill_trust : (Instr.fabTrustSet (hdrTo .root) (List.replicate 86 0)).wf = false := by decide
theorem test_ill_sset : (Instr.ssetDefine (hdrTo .root) 0 0 0 (List.replicate 9 (0, 0))).wf = false := by decide
theorem test_ill_debug_read : (Instr.debugAccess 0 false 0 4 [0]).wf = false := by decide
theorem test_ill_debug_write : (Instr.debugAccess 0 true 0 4 [0]).wf = false := by decide
theorem test_ill_crinit : (Instr.crinit 0 0 [0] 0).wf = false := by decide
theorem test_ill_train : (Instr.trainDone 0 (List.replicate 9 ⟨0, 0, 0, 0, 0, 0⟩)).wf = false := by decide
theorem test_ill_frame : (Instr.alignmentMarker ⟨⟨2, 0⟩, 0⟩ 0 (List.replicate 16321 0) ⟨0, 0, 0⟩ 0 0).wf = false := by
  simp only [Instr.wf, List.length_replicate]; decide
theorem test_ill_vin : (Instr.vinSlotFault [3, 3]).wf = false := by decide
theorem test_ill_pool_write : (AsrynCmd.poolWrite 0 0 (List.replicate 4081 0)).wf = false := by
  simp only [AsrynCmd.wf, List.length_replicate]; decide
theorem test_ill_rsv_write : (AsrynCmd.rsvWrite 0 0 (List.replicate 4081 0)).wf = false := by
  simp only [AsrynCmd.wf, List.length_replicate]; decide
theorem test_ill_fw_write : (AsrynCmd.fwWrite 0 0 (List.replicate 4089 0)).wf = false := by
  simp only [AsrynCmd.wf, List.length_replicate]; decide
theorem test_ill_cfg_write : (AsrynCmd.cfgWrite 0 0 (List.replicate 4089 0)).wf = false := by
  simp only [AsrynCmd.wf, List.length_replicate]; decide

/-! ### Hypotheses of the statements: Gauge, registers, clocks, power -/

theorem test_hyp_selectors : Writable ready .root .GAU_EVSEL 0 ∧ gaugeCode 1 = true ∧ gaugeCode 255 = false ∧ gaugeDomain .root = .core ∧
    Writable ready .root .GAU_CTL 0 := by unfold Writable; decide

theorem test_hyp_intervals : (put ready .root F.GAU_IVL_CFG_EN 1).flag .root F.GAU_IVL_CFG_EN = true ∧
    ready.time % (ready.fld .root F.GAU_IVL_CFG_PERIOD_US * 1000) = 0 ∧ ready.flag .root F.GAU_IVL_CFG_EN = false ∧
    ready.unitExists .root = true ∧ ready.clocked (gaugeDomain .root) = true := by decide

/-- A cell of an H port. -/
def cell0 : Cell := {
  cls := .mreq, dst := .here (XPort.int 0), ing := (PortId.mk 0 0).x, sop := true, eop := true, bad := false, epar := false, psn := false, ort := none,
  answers := false, data := false, req := none, srcSw := 0, hops := 0, bytes := 64, cells := 1, opc := 0, mill := none, content := 0 }

theorem test_ill_cell : cell0.wf = true ∧ Cell.wf { cell0 with bytes := 129 } = false ∧ Cell.wf { cell0 with cells := 2 } = false ∧
    Cell.wf { cell0 with cls := .iotx, cells := 34 } = false ∧ Cell.wf { cell0 with ort := some (0, 16) } = false ∧
    (Instr.losslessCellArrival { cell0 with cls := .rmab } false).wf = false ∧ (Instr.rmabPacketArrival ⟨cell0, true, false, []⟩).wf = false := by decide

/-- A followed transaction. -/
def sampled : State :=
  { ready with dev := { ready.dev with gau := { ready.dev.gau with samples := [(0, { cell := cell0, egr := none, tIn := 0 })], flight := 1 } } }

theorem test_hyp_sampling : ready.flag .root F.GAU_SMP_CFG_EN = false ∧ 0 * 4096 + 2 ^ max 12 (min 30 12) ≤ 2 ^ 30 ∧
    (Tab.get? sampled.dev.gau.samples 0).isSome = true ∧
    (sampled.fld .root F.GAU_SMP_PTR_TAIL + sampled.dev.gau.flight + 1) % sampled.smpSize ≠ sampled.fld .root F.GAU_SMP_PTR_HEAD % sampled.smpSize ∧
    0 < sampled.dev.gau.flight := by decide

theorem test_hyp_register_write : RegId.DEV_STALL ∈ plainRegs ∧
    ready.regAt .root 0x4254 = some (.reg (regSpec .root .DEV_STALL) 0 0) ∧ Writable ready .root .DEV_STALL 0 ∧
    regLegal (regSpec .root .DEV_STALL) 1000 = true := by unfold Writable; decide

theorem test_hyp_register_write_wide : RegId.GAU_SMP_PORTS ∈ plainRegs ∧ (regSpec .root .DEV_COH_SNP).wide = true ∧
    halfOf [{ master := .headwater, addr := regAddr .root .DEV_COH_SNP 0, value := 3 }] .headwater (regAddr .root .DEV_COH_SNP 0) = some 3 := by decide

theorem test_hyp_register_reads : ready.regAt .root 0x4250 = some (.reg (regSpec .root .DEV_FP_PEAK) 0 0) ∧
    ((regSpec .root .DEV_FP_PEAK).fields.any fun f => f.acc == .rc) = true ∧ regSpec .root .DEV_FP_PEAK ∈ regsOf (unitClass .root) ∧
    halfOf ready.dev.io.gauge .headwater (regAddr .root .DEV_FP_PEAK 0) = none := by decide

theorem test_hyp_clocks : (∀ g : Fin 64, g.val / 16 = (1 : Fin 4).val → hostReady.mode g ≠ .h ∧ hostReady.mode g ≠ .m) ∧ hostReady.mode 0 ≠ .off ∧
    Room ready ∧ ready.fld .root F.DEV_CLK_STAT_AUXCLK_OK = 0 ∧ bitOf (ready.fld .root F.DEV_CLK_STAT_REFCLK_OK) 2 = false ∧
    (∀ g : Fin 64, g.val / 16 = (2 : Fin 4).val → ready.mode g ≠ .h) := by unfold Room; decide

theorem test_hyp_cold : State.reset.dev.pwr.phase = .held ∧ State.reset.dev.pwr.src ≠ 3 ∧ ready.dev.pwr.phase ≠ .held := by decide

/-- The device with a different state of its power sequence. -/
def power (f : Power → Power) : State := { ready with dev := { ready.dev with pwr := f ready.dev.pwr } }

theorem test_hyp_boot : (power fun p => { p with phase := .boot }).dev.pwr.phase = .boot ∧ ready.flag .root F.HW_STAT_RECOVERY = false ∧
    (power fun p => { p with restart := true }).dev.pwr.restart = true ∧ ready.dev.pwr.phase = .run ∧ ready.dev.pwr.restart = false ∧
    RunsNow ready (hdrTo .root) 0x0006 ∧ unitOfCode (hdrTo .root).target.toNat = some .root ∧
    (power fun p => { p with restart := true, expiry := some 5 }).dev.pwr.expiry ≠ none ∧
    FirstOf (power fun p => { p with restart := true, expiry := some 5 }) .root 13 := by unfold RunsNow FirstOf; decide

/-- R436: the firmware that starts after a watchdog expiry logs EV170 with the time of the expiry. -/
theorem test_watchdog_log : (match exec .headwaterReady (power fun p => { p with restart := true, expiry := some 5 }) with
    | .next t => t.hist.getLast?.map fun e => (e.event, e.time)
    | _ => none) = some (170, 5) := by decide +kernel

/-- R444: the fall of PWROK leaves no entry in the history queue, and brings the safe state. -/
theorem test_pwrok_fall : (match exec .pwrokFall ready with
    | .next t => (t.hist == ready.hist, t.dev.ws.safe)
    | _ => (false, false)) = (true, true) := by decide +kernel

theorem test_hyp_warm : ready.mayWarm = true ∧ State.reset.mayWarm = false ∧ RunsNow ready (hdrTo .root) 0x0005 ∧
    (power fun p => { p with phase := .drain, resetLow := true }).dev.pwr.resetLow = true ∧
    (power fun p => { p with phase := .drained }).dev.pwr.phase = .drained := by unfold RunsNow; decide

theorem test_hyp_rails : (power fun p => { p with since := some 0 }).dev.pwr.since = some 0 ∧
    ((power fun p => { p with rising := true, steps := 4 }).dev.pwr.droop = [] ∧
      (power fun p => { p with rising := true, steps := 4 }).dev.pwr.throttled = []) ∧ ready.fld .root F.DEV_PWR_CAP_STEP ≤ 8 := by decide

theorem test_hyp_temperatures : ready.tempLimit 0 F.DEV_THERM_CFG_DIE_WARN F.DEV_THERM_CFG_STK_WARN ≤ 5000 ∧ 0 ∉ ready.dev.pwr.throttled ∧
    ready.tempLimit 0 F.DEV_THERM_CFG_DIE_THROT F.DEV_THERM_CFG_STK_THROT ≤ 5000 ∧
    (-5000 : Int) + 30 ≤ ready.tempLimit 0 F.DEV_THERM_CFG_DIE_THROT F.DEV_THERM_CFG_STK_THROT ∧
    0 ∈ (power fun p => { p with throttled := [0] }).dev.pwr.throttled ∧
    ready.tempLimit 0 F.DEV_THERM_CFG_DIE_TRIP F.DEV_THERM_CFG_STK_TRIP ≤ 5000 := by decide

/-- Group 0 fenced. -/
def withFence (s : State) : State := { s with dev := { s.dev with ws := { s.dev.ws with fenced := [.group 0] } } }

theorem test_hyp_group_power : (withMode ready 0 1).flag (.group 0) F.GRP_PWR_OFF = false ∧ (withMode ready 0 1).mode 0 ≠ .off ∧
    (withMode ready 0 1).groupRefuse 0 ((withMode ready 0 1).mode 0) ((withMode ready 0 1).split 0) true = none ∧
    (put (withMode ready 0 1) (.group 0) F.GRP_PWR_OFF 1).flag (.group 0) F.GRP_PWR_OFF = true ∧
    (put (withMode ready 0 1) (.group 0) F.GRP_PWR_OFF 1).flag (.group 0) F.GRP_STAT_CHG = false ∧
    (put (withMode ready 0 1) (.group 0) F.GRP_PWR_OFF 1).isFenced (.group 0) = false := by decide

theorem test_hyp_group_power_refused :
    (put (withMode ready 0 1) (.group 0) F.GRP_STAT_CHG 1).groupRefuse 0 .h false true = some 1 ∧
    (put (put (withMode ready 0 1) (.group 0) F.GRP_PWR_OFF 1) (.group 0) F.GRP_STAT_CHG 1).flag (.group 0) F.GRP_STAT_CHG = true ∧
    (withFence (put (withMode ready 0 1) (.group 0) F.GRP_PWR_OFF 1)).isFenced (.group 0) = true ∧ ready.mode 0 = .off ∧
    (withMode ready 0 1).fabState 0 = 0 := by decide

theorem test_hyp_unit_reset_ports : RunsNow hostReady (hdrTo (.port ⟨0, 0⟩)) 0x0004 ∧ Names hostReady (hdrTo (.port ⟨0, 0⟩)) (.port ⟨0, 0⟩) ∧
    Names modReady (hdrTo (.port ⟨1, 0⟩)) (.port ⟨1, 0⟩) ∧ Names (fabLink 4 2) (hdrTo (.port ⟨2, 0⟩)) (.port ⟨2, 0⟩) ∧
    Names ready (hdrTo (.inst 5)) (.inst 5) := by unfold RunsNow Names; decide

theorem test_hyp_unit_reset : RunsNow ready (hdrTo (.slot 5)) 0x0004 ∧ Names ready (hdrTo (.slot 5)) (.slot 5) := by unfold RunsNow Names; decide

/-! ### Hypotheses of the statements: slot channels -/

theorem test_hyp_presence : (slotIn .empty).flag (.slot 5) F.SLT_STAT_PRSNT = false ∧ (slotIn .empty).slotSt 5 = .empty ∧
    (slotIn .empty).slotPg 5 = false ∧ (put (slotIn .on) (.slot 5) F.SLT_STAT_PRSNT 1).flag (.slot 5) F.SLT_STAT_PRSNT = true ∧
    (slotIn .cooldown).slotSt 5 = .cooldown ∧ (slotIn .cooldown).slotPg 5 = false := by decide

theorem test_hyp_slot_operations : (slotIn .on).slotPg 5 = false ∧ Writable (slotIn .on) (.slot 5) .SLT_CMD 0 ∧ slotOpCode (slotIn .on) 5 2 = 0 ∧
    slotOpCode (slotIn .empty) 5 1 ≠ 0 ∧ slotOpCode (slotIn .armOn) 5 3 = 0 ∧ RunsNow (slotIn .on) (hdrTo (.slot 5)) 0x0500 ∧
    Names (slotIn .on) (hdrTo (.slot 5)) (.slot 5) := by unfold Writable RunsNow Names; decide

/-- A present module behind a closed latch, its channel bound to an M port and OFF: power-on is admissible. -/
def slotReady : State :=
  put (put (put modReady (.slot 5) F.SLT_STAT_STATE SlotSt.off.num) (.slot 5) F.SLT_STAT_PRSNT 1) (.slot 5) F.SLT_STAT_MRL 1

theorem test_hyp_slot_on : slotReady.slotAdmit 5 = none ∧ slotOpCode slotReady 5 1 = 0 ∧ slotReady.slotSt 5 = .off := by decide

theorem test_hyp_slot_power : (slotIn .armOn).slotSt 5 = .armOn ∧ (slotIn .armOn).slotPg 5 = false ∧ (slotIn .ramp).slotSt 5 = .ramp ∧
    ((slotIn .on).slotSt 5).pgState = true ∧ (slotIn .on).flag (.slot 5) F.SLT_STAT_INLIM = false ∧ ((slotIn .on).slotSt 5).drives = true ∧
    (put (slotIn .on) (.slot 5) F.SLT_STAT_PG 1).slotPg 5 = true ∧ (slotIn .discharge).slotSt 5 = .discharge := by decide

theorem test_hyp_auto_off : modReady.boundPort 5 = some ⟨1, 0⟩ ∧
    (put (put modReady (.slot 5) F.SLT_STAT_STATE SlotSt.reqOff.num) (.slot 5) F.SLT_CFG_AUTO_OFF 1).slotSt 5 = .reqOff ∧
    modReady.portReferenced ⟨1, 0⟩ = false := by decide

theorem test_hyp_slot_protection : (put (slotIn .on) (.slot 5) F.SLT_STAT_INLIM 1).flag (.slot 5) F.SLT_STAT_INLIM = true ∧
    ((slotIn .off).slotSt 5).drives = false ∧ (slotIn .off).slotSt 5 ≠ .fenced ∧ Writable ready (.slot 5) .SLT_ILIM 0 := by unfold Writable; decide

theorem test_hyp_current_limit : F.SLT_ILIM_ILIM_MA.part (BitVec.ofNat 32 (500 + 10000 * 2 ^ 16)).toNat = 500 ∧
    500 * max 100 (F.SLT_ILIM_RSHUNT_UOHM.part (BitVec.ofNat 32 (500 + 10000 * 2 ^ 16)).toNat) = 5000000 ∧
    F.SLT_ILIM_ILIM_MA.part (BitVec.ofNat 32 (499 + 10000 * 2 ^ 16)).toNat < 500 := by decide

/-! ### Hypotheses of the statements: Watershed -/

/-- A state with a fault of a class open in a domain, logged with sequence number 0. -/
def faulty (dom : UnitId) (cls : Nat) : State :=
  { ready with dev := { ready.dev with ws := { ready.dev.ws with
    faults := [(pathCode dom, [{ cls := cls, level := 1, list := [{ seq := some 0, unit := pathCode dom, level := 1 }] }])] } } }

theorem test_hyp_fencing : (withMode ready 0 1).mode 0 ≠ .off ∧ UnitId.group 0 ∉ (withMode ready 0 1).dev.ws.fenced ∧
    ready.isFenced (.engine 4) = false ∧ ready.dev.ws.safe = false ∧ ready.fld (.engine 4) F.ENG_STAT_STATE ≠ 2 ∧
    (∀ c ∈ Tab.getD ready.dev.ws.faults (pathCode (.engine 4)) [], c.cls ≠ 12) ∧
    (put ready (.engine 4) F.ENG_STAT_STATE 2).fld (.engine 4) F.ENG_STAT_STATE = 2 ∧
    (∃ c ∈ Tab.getD (faulty (.engine 1) 12).dev.ws.faults (pathCode (.engine 1)) [], c.cls = 12) ∧
    { ready with dev := { ready.dev with ws := { ready.dev.ws with fenced := [.engine 1] } } }.isFenced (.engine 1) = true := by decide

theorem test_hyp_fault_management : RunsNow ready (hdrTo (.group 3)) 0x0010 ∧ Names ready (hdrTo (.group 3)) (.group 3) ∧
    (∃ c ∈ Tab.getD (faulty .root 7).dev.ws.faults (pathCode .root) [], ∃ f ∈ c.list, f.seq = some (0 : BitVec 32).toNat) ∧
    ready.openSeq (0 : BitVec 32).toNat = false ∧ RunsNow ready (hdrTo .root) 0x0011 := by unfold RunsNow Names; decide

set_option maxRecDepth 4000 in
theorem test_hyp_fault_release : RunsNow hostReady (hdrTo (.port ⟨0, 0⟩)) 0x0012 ∧ Names hostReady (hdrTo (.port ⟨0, 0⟩)) (.port ⟨0, 0⟩) ∧
    hostReady.isBound ⟨0, 0⟩ = none ∧ Tab.getD hostReady.dev.ws.faults (pathCode (.port ⟨0, 0⟩)) [] = [] ∧ hostReady.walkHolds ⟨0, 0⟩ = false ∧
    (hostReady.mode 0 = .h → ∀ i ∈ hostReady.portInsts ⟨0, 0⟩, hostReady.instState i ≠ 3) := by unfold RunsNow Names; decide

theorem test_hyp_injection : (put ready .root F.HW_STAT_FTM 1).flag .root F.HW_STAT_FTM = true ∧ eventAt 175 (unitClass .root) = true ∧
    (put ready .root F.HW_STAT_FTM 1).unitExists .root = true ∧ eventLevel 175 .root = 0 ∧ eventLevel 147 .root = 3 ∧
    eventAt 147 (unitClass .root) = true ∧ eventAt 167 (unitClass (.group 0)) = true ∧ ready.isFenced (.group 0) = false ∧
    fences 0 = true ∧ eventAt 169 (unitClass (.engine 0)) = true ∧
    bitOf (2 ^ 63 + 162 * 2 ^ 32 + pathCode .root) 63 = true ∧ ready.injectAt (2 ^ 63 + 162 * 2 ^ 32 + pathCode .root) = none := by decide

/-! ### Hypotheses of the statements: Headwater -/

/-- A Levee rule of an identity kind that allows every access to an address space. -/
def allow (s : State) (kind space : Nat) : State :=
  put (put (put (put (put (put (put s .root F.LEV_RULE_LIMIT_LIMIT_PG (2 ^ 40 - 1)) .root F.LEV_RULE_CTL_KIND kind) .root F.LEV_RULE_CTL_SPACE space)
    .root F.LEV_RULE_CTL_R 1) .root F.LEV_RULE_CTL_W 1) .root F.LEV_RULE_CTL_EN 1) .root F.LEV_RULE_CTL_ACTION 1

theorem test_hyp_register_commands : RunsNow ready (hdrTo .root) 0x0002 ∧ Names ready (hdrTo .root) .root ∧
    ready.regAt .root (0x4254 : BitVec 32).toNat = some (.reg (regSpec .root .DEV_STALL) 0 0) ∧
    (4 : BitVec 8).toNat = (if (regSpec .root .DEV_STALL).wide = true then 8 else 4) ∧
    halfOf ready.dev.io.gauge .headwater (regAddr .root .DEV_STALL 0) = none := by unfold RunsNow Names; decide

theorem test_hyp_pool_denied : RunsOnDevice ready (hdrTo .root) 0x0600 ∧
    ready.levee .engine (ready.engIdent 8) 0 (0 : BitVec 64).toNat .r = .deny := by unfold RunsOnDevice RunsNow; decide

theorem test_hyp_pool_allowed : (allow ready 2 0).levee .engine ((allow ready 2 0).engIdent 8) 0 (0 : BitVec 64).toNat .r = .allow ∧
    RunsOnDevice (allow ready 2 0) (hdrTo .root) 0x0600 := by unfold RunsOnDevice RunsNow; decide

theorem test_hyp_looks_up : LooksUp (allow ready 2 0) 0 := ⟨by decide, by nofun, by decide, by decide, by decide, by decide⟩

theorem test_hyp_rsv_commands : rangeOk 0 64 (2 ^ 37) = true ∧ (allow ready 2 1).levee .engine ((allow ready 2 1).engIdent 8) 1 0 .r = .allow ∧
    (allow ready 2 1).levee .engine ((allow ready 2 1).engIdent 8) 1 (25165824 : BitVec 64).toNat .w = .allow ∧
    (rsvPlace 25165824).2.2 < 2 ^ 25 ∧ 0xC0000000 ≤ regionByte (rsvPlace 25165824).1 (rsvPlace 25165824).2.1 (rsvPlace 25165824).2.2 := by decide

/-- A packet with an opcode, parameters and VERSION 1 for the root, byte by byte from R459: SEQ 0x0201, CTX 7. -/
def packet (op : Byte) (params : List Byte) : Packet := {
  head := [1, 0, op, 0, 1, 2, 0, 0] ++ [BitVec.ofNat 8 params.length, 0, 0, 0] ++ [0, 0, 0, 0] ++ [7, 0, 0, 0, 0, 0, 0, 0] ++ List.replicate 8 0
  tail := [], params, cmd := .ping }

theorem test_hyp_packets : GoodPacket (packet 1 []) ∧ packetBad { packet 1 [] with head := [2] } = true ∧ ready.cmdq.length < 64 ∧
    ready.flag .root F.HW_STAT_READY = true ∧ ready.flag .root F.HW_STAT_RECOVERY = false :=
  ⟨⟨by decide +kernel, by decide +kernel⟩, by decide +kernel, by decide, by decide, by decide⟩

/-- A REG_READ of offset 0x4254 with width 4, its header's SEQ and CTX, and a packet too short for it (R459, R464). -/
theorem test_packet_bytes : packetCmd (packet 2 [0x54, 0x42, 0, 0, 4]) = .regRead 0x4254 4 ∧ (packetHdr (packet 2 []) .mctp).seq = 0x0201 ∧
    (packetHdr (packet 2 []) .mctp).ctx = 7 ∧ packetCmd (packet 2 [1]) = .badParam 2 ∧ packetCmd (packet 0x77 []) = .unknown 0x77 := by decide +kernel

/-- The header of the reply to a PING (R459): VERSION 1, REPLY, OPCODE, SEQ, STATUS busy, LEN 0, PATH 0, CTX, NFAIL 1. -/
theorem test_reply_bytes : (⟨packetHdr (packet 1 []) .mctp, stBusy, 0, 1, []⟩ : Reply).head false =
    [1, 1, 1, 0, 1, 2, 1, 0, 0, 0, 0, 0, 0, 0, 0, 0, 7, 0, 0, 0, 0, 0, 0, 0, 0, 0, 0, 0, 1, 0, 0, 0] := by decide +kernel

/-- A management port with its rings enabled. -/
def mgmtPort : State := { put hostReady (.port ⟨0, 0⟩) F.PRT_HCFG_MGMT 1 with
  regs := Tab.put (put hostReady (.port ⟨0, 0⟩) F.PRT_HCFG_MGMT 1).regs (ringKey ⟨0, 0⟩ F.HW_RING_CFG_EN) 1 }

/-- A tracked request of host port 0. -/
def entry0 : OrtEntry := {
  isOpen := true, gen := 0, port := (PortId.mk 0 0).x, info := ⟨.host, .read, 0, 0, 64, none, 0⟩, egr := (PortId.mk 1 0).x, dstSw := none,
  epar := false, egrTag := 0, tIssue := 0, lost := false, taken := false, owed := none, tQuar := 0, ctx := .fwd (.host ⟨0, 0⟩ 7) }

/-- A state with one tracker entry. -/
def tracking (s : State) (e : OrtEntry) : State := { s with dev := { s.dev with ort := { s.dev.ort with entries := [(0, e)] } } }

theorem test_hyp_rings : mgmtPort.mgmt ⟨0, 0⟩ = true ∧ mgmtPort.ringOn ⟨0, 0⟩ = true ∧ (mgmtPort.ringOf ⟨0, 0⟩).waiting = [] ∧
    (tracking mgmtPort { entry0 with ctx := .hw 0 }).ringBusy ⟨0, 0⟩ = true := by decide

theorem test_hyp_command_start : ({ ready with cmdq := [{ hdr := hdrTo .root, cmd := .ping }] } : State).blocked (hdrTo .root) AsrynCmd.ping.opcode = false ∧
    ready.dev.hw.act = none ∧ ({ ready with dev := { ready.dev with xlat := { ready.dev.xlat with heldReply := some (hdrTo .root) } } } :
      State).blocked (hdrTo .root) AsrynCmd.ping.opcode = true := by decide

/-- Headwater with a different state. -/
def head (f : Headwater → Headwater) : State := { ready with dev := { ready.dev with hw := f ready.dev.hw } }

theorem test_hyp_protocols : ready.spdmOn .i3c = true ∧ ready.dev.hw.ident = false ∧ (head fun h => { h with ident := true }).dev.hw.ident = true ∧
    (head fun h => { h with spdm := [(0, ⟨true, true, false, []⟩)] }).spdmOf .i3c = some ⟨true, true, false, []⟩ ∧
    (head fun h => { h with spdm := [(0, ⟨true, false, false, []⟩)] }).spdmOf .i3c = some ⟨true, false, false, []⟩ ∧ spdmWho (.link 2) ≠ 0 ∧ spdmWho .i3c = 0 := by decide

/-- A background command of an opcode that runs for the device. -/
def running (s : State) (op : Nat) (u : Option UnitId) (args : List Nat) : State := { s with bg := [{ hdr := hdrTo .root, opcode := op, unit := u, args }] }

theorem test_hyp_images : (1 : Fin 2) ≠ ready.dev.hw.fwSlot ∧ RunsOnDevice ready (hdrTo .root) 0x0700 ∧ RunsOnDevice ready (hdrTo .root) 0x0701 ∧ ready.dev.hw.act = none ∧
    ready.cfgRecords 0 = none ∧ (running ready 0x0700 none [0, 1]).bg = [⟨hdrTo .root, 0x0700, none, 0 :: [(1 : Byte)].map (fun d => d.toNat)⟩] := by
  unfold RunsOnDevice RunsNow; decide

theorem test_hyp_activation : Running (running ready 0x0701 none []) 0x0701 none ⟨hdrTo .root, 0x0701, none, []⟩ ∧
    ∀ n ∈ [0, 1, 2], (head fun h => { h with act := some ⟨hdrTo .root, 1, n, Fw.none, Fw.none, [], 0⟩ }).dev.hw.act =
      some ⟨hdrTo .root, 1, n, Fw.none, Fw.none, [], 0⟩ := by unfold Running; decide

/-- R498: a counter that wraps logs EV196, its bit of GAU_OVF set already or not. -/
theorem test_counter_wrap : (match exec .oldImageUnload ([(F.GAU_EVSEL_EN, 1), (F.GAU_EVSEL_CODE, 0x40), (F.GAU_EVSEL_EVNUM, 511),
      (F.GAU_CNT_COUNT, 2 ^ 48 - 1), (F.GAU_OVF_OVF, 1)].foldl (fun s p => put s .root p.1 p.2)
        (head fun h => { h with act := some ⟨hdrTo .root, 1, 2, Fw.none, Fw.none, [], 0⟩ })) with
    | .next t => (t.hist.map (fun e => e.event), t.fld .root F.GAU_CNT_COUNT)
    | _ => ([], 0)) = ([187, 196], 0) := by decide +kernel

theorem test_hyp_microcode : RunsNow ready (hdrTo (.engine 4)) 0x0702 ∧ Names ready (hdrTo (.engine 4)) (.engine 4) ∧
    Running (put (running ready 0x0702 (some (.engine 4)) []) (.engine 4) F.ENG_STAT_STATE 1) 0x0702 (some (.engine 4))
      ⟨hdrTo .root, 0x0702, some (.engine 4), []⟩ ∧
    (put (running ready 0x0702 (some (.engine 4)) []) (.engine 4) F.ENG_STAT_STATE 1).fld (.engine 4) F.ENG_STAT_STATE = 1 ∧
    RunsNow ready (hdrTo (.engine 4)) 0x0800 ∧ RunsNow ready (hdrTo (.engine 4)) 0x0801 := by unfold RunsNow Names Running; decide

theorem test_hyp_io : hostReady.portExists ⟨0, 0⟩ = true ∧ hostReady.fld (.port ⟨0, 0⟩) F.PRT_HSTAT_LSTATE ∈ [2, 3] ∧
    hostReady.xDown (PortId.mk 0 0).x = false ∧ (allow mgmtPort 0 2).mgmt ⟨0, 0⟩ = true ∧
    (allow mgmtPort 0 2).levee .hostPort ((allow mgmtPort 0 2).hostIdent ⟨0, 0⟩) 2 (0x5000 : BitVec 32).toNat .r = .allow := by decide

theorem test_hyp_debug : (put ready .root F.HW_DBG_CTL_ACTIVE 1).flag .root F.HW_DBG_CTL_ACTIVE = true ∧ Tab.has ready.dev.hw.pool 1 = false ∧
    ready.flag .root F.HW_DBG_CTL_DIS = false ∧ (put ready .root F.HW_DBG_CTL_DIS 1).flag .root F.HW_DBG_CTL_DIS = true ∧
    ready.lockedPage 1 0 = false ∧ (allow ready 3 1).levee .debug 0 1 0 .r = .allow ∧ Writable ready .root .HW_DBG_CTL 0 ∧
    ready.flag .root F.HW_STAT_FTM = false ∧ ready.flag .root F.HW_DBG_CTL_FTM_CLOSED = false := by unfold Writable; decide

/-! ### Hypotheses of the statements: translation, the mover -/

/-- An entry of the map that stands on module port 2 (group 1, port 0). -/
def mapped0 : MapEntry := { type := .mapped, home := 0, tgtA := some (.module 2 3), tgtB := none, trk := 0 }

/-- A move from one place of a module to another. -/
def moving0 : MapEntry := { type := .moving, home := 0, tgtA := some (.module 2 3), tgtB := some (.module 2 4), trk := 0 }

/-- An H port that is served beside a READY module, window 0 on GPA 0 under a rule that allows it, no directory, and extent 0 as given, its entry in the
extent cache and its first line known to be in no cache set. -/
def pooled (e : MapEntry) : State :=
  let s := put (put (put (allow (withMode (put modReady (.port ⟨1, 0⟩) F.PRT_MSTAT_CAP_X 64) 0 1) 0 0) (.port ⟨0, 0⟩) F.PRT_HSTAT_MEM_EN 1) (.port ⟨0, 0⟩) F.PRT_WIN_CTL_EN 1)
    .root F.DEV_RSV_PART_DIR_GIB 0
  { s with dev := { s.dev with
    xlat := { s.dev.xlat with map := [(0, e)], cached := [(xcSet 0, [0])] }
    rsv := { s.dev.rsv with hint := [(hintSet 0, [0])] } } }

theorem test_hyp_window : Serves (pooled mapped0) ⟨0, 0⟩ ∧ (pooled mapped0).winHit ⟨0, 0⟩ 0 = some 0 ∧ hostReady.winHit ⟨0, 0⟩ 0 = none ∧
    0 = (pooled mapped0).winGpa ⟨0, 0⟩ 0 + (0 - (pooled mapped0).winBase ⟨0, 0⟩ 0) ∧
    (pooled mapped0).fldn (.port ⟨0, 0⟩) F.PRT_WIN_CTL_WTYPE 0 = 0 ∧
    (pooled mapped0).levee .hostPort ((pooled mapped0).hostIdent ⟨0, 0⟩) 0 0 .r = .allow ∧ m2sPerm .memRd = some .r := by unfold Serves; decide

theorem test_hyp_cached_entry : CachedEntry (pooled mapped0) 0 mapped0 := ⟨by decide, by nofun, by decide, by decide, by decide, by decide⟩

/-- The least number of a range passes where 0 does. -/
theorem least_zero (n : Nat) (p : Nat → Bool) (hn : 0 < n) (h : p 0 = true) : (List.range n).find? p = some 0 := by
  obtain ⟨m, rfl⟩ := Nat.exists_eq_succ_of_ne_zero (Nat.ne_of_gt hn)
  rw [List.range_succ_eq_map, List.find?_cons_of_pos h]

theorem test_hyp_tracked : Tracked (pooled mapped0) (PortId.mk 0 0).x (mportOf 2) 0 0 :=
  ⟨least_zero _ _ (by decide) (by decide), least_zero _ _ (by decide) (by decide), by decide, by decide⟩

theorem test_hyp_module_request : (pooled mapped0).dirSets = 0 ∧ KnownMiss (pooled mapped0) 0 ∧ (pooled mapped0).moduleUp (mportOf 2) = true ∧
    mapped0.home = (pooled mapped0).swid ∧ 4 < (pooled mapped0).fld (.port (mportOf 2)) F.PRT_MSTAT_CAP_X := by unfold KnownMiss; decide

theorem test_hyp_home_access : (fabLink 4 1).mode 2 = .f ∧ WType.priv ≠ .sharedHw ∧ LooksUp (fabLink 4 1) 0 :=
  ⟨by decide, by decide, by decide, by nofun, by decide, by decide, by decide, by decide⟩

/-- A miss of the extent cache outstanding for extent 0. -/
def missing : State :=
  { ready with dev := { ready.dev with xlat := { ready.dev.xlat with misses := [(0, { entry := MapEntry.unmapped, waiters := [] })] } } }

theorem test_hyp_windows : hostReady.portExists ⟨0, 0⟩ = true ∧ hostReady.fldn (.port ⟨0, 0⟩) F.PRT_WIN_CTL_LOCK 0 ≠ 1 ∧
    hostReady.winEn ⟨0, 0⟩ 0 = false ∧ hostReady.winOk ⟨0, 0⟩ 0 0 = true ∧ (pooled mapped0).winEn ⟨0, 0⟩ 0 = true ∧
    (put hostReady (.port ⟨0, 0⟩) F.PRT_WIN_CTL_LOCK 1).fldn (.port ⟨0, 0⟩) F.PRT_WIN_CTL_LOCK 0 = 1 ∧
    (Tab.get? missing.dev.xlat.misses 0).isSome = true ∧ missing.dev.xlat.adv = none ∧ missing.dev.xlat.heldMiss = [] := by decide

theorem test_hyp_map_stage : RunsOnDevice ready (hdrTo .root) 0x0100 ∧ ready.dev.xlat.openBuf = some [] ∧
    MapEntry.ofNum (0 : BitVec 128).toNat (fun _ => true) = some MapEntry.unmapped ∧ ready.stageOk 0 MapEntry.unmapped [] = true ∧
    MapEntry.ofNum (7 : BitVec 128).toNat (fun _ => true) = none ∧ RunsOnDevice ready (hdrTo .root) 0x0101 ∧ ready.dev.xlat.adv = none ∧
    ready.dev.mov.hold = none := by unfold RunsOnDevice RunsNow; decide

/-- An advance that runs. -/
def advancing (written : Bool) : State :=
  { ready with dev := { ready.dev with xlat := { ready.dev.xlat with adv := some {
    sealed := [], written, flip := false, since := 0, warned := false, units := [], slots := [] } } } }

theorem test_hyp_advance : (∃ a, (advancing false).dev.xlat.adv = some a ∧ a.written = false ∧ a.warned = false) ∧
    (∃ a, (advancing true).dev.xlat.adv = some a ∧ a.written = true) ∧ (advancing true).oldLive = false ∧ (advancing true).dev.xlat.queued = none ∧
    (advancing false).fld .root F.DEV_EPOCH_WARN_WARN_US ≠ 0 := ⟨⟨_, rfl, rfl, rfl⟩, ⟨_, rfl, rfl⟩, by decide, by decide, by decide⟩

theorem test_hyp_sealed_fill : (Tab.get? missing.dev.xlat.misses 0).isSome = true ∧
    Tab.has ([(0, MapEntry.unmapped)] : Tab MapEntry) 0 = true := by decide

theorem test_hyp_stripe_set : RunsOnDevice ready (hdrTo .root) 0x0102 ∧ ready.ssetOk (ssetWidth 1) 2 [(2, 0), (3, 0)] = true ∧
    ready.ssetOk (ssetWidth 1) 0 [(2, 0), (3, 0)] = false ∧ ready.ssetNamed 0 = false := by unfold RunsOnDevice RunsNow; decide

/-- A bitmap slot of extent 0 in a state, with lines to be read. -/
def copying (st : MovState) (todo : Nat) : State :=
  { pooled moving0 with dev := { (pooled moving0).dev with mov := {
    slots := [(0, { x := 0, state := st, passes := 0, tries := 0, firstDone := false, word := 512, todo, writing := 0, hotLogged := false, stopped := false })]
    marks := [(0, 3)], hold := none } } }

theorem test_hyp_mover : (∃ m, Tab.get? (copying .copy 0).dev.mov.slots 0 = some m ∧ m.stopped = false ∧ m.state = .copy ∧ m.todo = 0 ∧ m.writing = 0 ∧
      m.word = 512) ∧
    (copying .copy 0).movStops = false ∧ (copying .copy 0).linePoisoned 0 = false ∧ (copying .copy 0).holdBusy ⟨[0], 0, true, []⟩ = false :=
  ⟨⟨_, rfl, rfl, rfl, rfl, rfl, rfl⟩, by decide, by decide, by decide⟩

theorem test_hyp_mover_words : (3 : Nat) < 2 ^ 32768 ∧ maskDiff ((copying .copy 0).marksOf 0) ((copying .copy 0).poisonMask 0) ≠ 0 :=
  ⟨Nat.lt_of_lt_of_le (by decide : 3 < 2 ^ 2) (Nat.pow_le_pow_right (by decide) (by decide)), by decide⟩

theorem test_hyp_copy_read : bitOf 1 0 = true ∧ (copying .copy 1).heldAt ((copying .copy 1).entry 0).tgtA 0 = none ∧ (copying .copy 1).setSuspect ((copying .copy 1).cacheSet 0) = false ∧
    ((copying .copy 1).freeTag ⟨1, 0⟩).isSome = true ∧
    (copying .copy 1).place ((copying .copy 1).entry 0).tgtA 0 ≠ .lost ∧
    (copying .copy 1).place ((copying .copy 1).entry 0).tgtB 0 = .module ⟨1, 0⟩ (4 * 2 ^ 21) ∧ (copying .copy 1).mode 1 = .m ∧
    Tracked (copying .copy 1) (XPort.int 6) ⟨1, 0⟩ 0 0 :=
  ⟨by decide, by decide, by decide, by decide +kernel, by decide, by decide, by decide, least_zero _ _ (by decide) (by decide), least_zero _ _ (by decide) (by decide), by decide, by decide⟩

theorem test_hyp_mover_commands : RunsOnDevice ready (hdrTo .root) 0x0103 ∧ RunsOnDevice ready (hdrTo .root) 0x0104 ∧
    Running (running ready 0x0104 none []) 0x0104 none ⟨hdrTo .root, 0x0104, none, []⟩ := by unfold RunsOnDevice RunsNow Running; decide

/-- A hold of the one slot, in a step. -/
def holding (drained : Bool) : State :=
  { copying .hold 0 with dev := { (copying .hold 0).dev with mov := { (copying .hold 0).dev.mov with
    marks := [], hold := some { slots := [0], since := 0, drained, parked := [] } } } }

theorem test_hyp_hold : (copying .copy 0).dev.xlat.adv = none ∧ (copying .copy 0).dev.xlat.queued = none ∧ (copying .copy 0).dev.mov.hold = none ∧
    (copying .copy 0).isFenced (.engine 3) = false ∧ (∃ h, (holding false).dev.mov.hold = some h ∧ h.drained = false ∧ (holding false).holdBusy h = false) ∧
    (∃ m, Tab.get? (holding true).dev.mov.slots 0 = some m ∧ m.state = .hold ∧ m.todo = 0 ∧ m.writing = 0 ∧
      maskDiff ((holding true).marksOf 0) ((holding true).poisonMask m.x) = 0) :=
  ⟨by decide, by decide, by decide, by decide, ⟨_, rfl, rfl, by decide⟩, ⟨_, rfl, rfl, rfl, rfl, by decide⟩⟩

/-! ### Hypotheses of the statements: Floodplain and tracker -/

/-- The queue of a class at an egress holds one packet of one cell. -/
def queued (s : State) (x : XPort) (c : Cell) : State :=
  { s with dev := { s.dev with flood := { s.dev.flood with queues := [(qKey x c.cls, [newPkt c [⟨c, true⟩] true false 0])] } } }

/-- An RMAB cell. -/
def bulk0 : Cell := { cell0 with cls := .rmab }

theorem test_hyp_lossless : hostReady.xDown cell0.ing = false ∧ cell0.cls ≠ .rmab ∧ Taken hostReady cell0 ∧
    hostReady.cellEgress cell0 = some (XPort.int 0, cell0) ∧ cell0.bad = false ∧ hostReady.xDown (XPort.int 0) = false ∧
    Tab.getD hostReady.dev.flood.waiting (qKey cell0.ing cell0.cls) [] = [] ∧ hostReady.fpTotal < hostReady.fld .root F.DEV_FP_PO_PO_THR ∧
    hostReady.fpRoom cell0 false = some true ∧ hostReady.cellEgress { cell0 with dst := .switch 5 } = none := by unfold Taken Comes; decide +kernel

/-- A request cell that this switch is to track, and a fabric port for it. -/
def asked0 : Cell := { cell0 with req := some ⟨.host, .read, 3, 0, 64, none, 0⟩ }

theorem test_hyp_tracked_cell : (withMode ready 3 3).tracksAt (PortId.mk 3 0).x = true ∧ (withMode ready 3 3).mode 3 = .f ∧
    (withMode ready 3 3).cellEgress { asked0 with dst := .here (PortId.mk 3 0).x } = some ((PortId.mk 3 0).x, { asked0 with dst := .here (PortId.mk 3 0).x }) ∧
    hostReady.hasRoom asked0 = false ∧ (withMode ready 3 3).clsRoom .mreq false = some true ∧ (withMode ready 3 3).ortRoom asked0.ing = true ∧
    Tab.freeBelow (withMode ready 3 3).dev.ort.entries 65536 = some 0 ∧ hostReady.cellEgress { asked0 with dst := .switch 5 } = none ∧
    hostReady.isLate { cell0 with cls := .mrsp, answers := true, ort := some (0, 0) } = true ∧ poisonable { cell0 with answers := true, data := true } = true :=
  ⟨by decide +kernel, by decide +kernel, by decide +kernel, by decide +kernel, by decide +kernel, by decide +kernel, least_zero _ _ (by decide +kernel) (by decide +kernel), by decide +kernel, by decide +kernel, by decide +kernel⟩

/-- The Floodplain at its push-out threshold, with an RMAB packet to push out. -/
def full : State :=
  let s := queued hostReady (XPort.int 1) bulk0
  { s with dev := { s.dev with flood := { s.dev.flood with shUsed := [(6, 0x58000)] } } }

theorem test_hyp_push_out : full.fld .root F.DEV_FP_PO_PO_THR ≤ full.fpTotal ∧ full.fpRoom cell0 false = some true ∧ full.spillFrom = some (XPort.int 1) ∧
    youngestIdle (full.queue (XPort.int 1) .rmab) 0 none = some 0 ∧ ((full.queue (XPort.int 1) .rmab)[0]?).isSome = true := by decide

/-- A cell that waits at its ingress. -/
def waiting0 : State :=
  { hostReady with dev := { hostReady.dev with flood := { hostReady.dev.flood with waiting := [(qKey cell0.ing cell0.cls, [.cell cell0])] } } }

theorem test_hyp_waiting_cell : waiting0.nextWaiting cell0.cls = some (qKey cell0.ing cell0.cls) ∧
    Tab.getD waiting0.dev.flood.waiting (qKey cell0.ing cell0.cls) [] = .cell cell0 :: [] ∧ waiting0.xDown (XPort.int 0) = false ∧
    waiting0.fpTotal < waiting0.fld .root F.DEV_FP_PO_PO_THR ∧ waiting0.fpRoom cell0 false = some true ∧ waiting0.waitEgress cell0 = some (XPort.int 0) := by decide +kernel

/-- An RMAB packet whose later cells have not come. -/
def parted : State :=
  { hostReady with dev := { hostReady.dev with flood := { hostReady.dev.flood with
    queues := [(qKey (XPort.int 1) .rmab, [newPkt bulk0 [⟨bulk0, false⟩] false false 0])] } } }

theorem test_hyp_bulk : hostReady.cellEgress bulk0 = some (XPort.int 0, bulk0) ∧ BulkFits hostReady (XPort.int 0) bulk0.cells ∧
    ¬BulkFits full (XPort.int 0) bulk0.cells ∧ full.fpRoom (trimCell bulk0) true = some true ∧ hostReady.dev.flood.dropRest.contains (qKey bulk0.ing .rmab) = false ∧
    Tab.find parted.dev.flood.queues (fun j q => j % 8 == Cls.rmab.num && q.any fun p => p.first.ing == bulk0.ing && !p.complete) =
      some (qKey (XPort.int 1) .rmab, [newPkt bulk0 [⟨bulk0, false⟩] false false 0]) := by unfold BulkFits; decide +kernel

/-- An RMAB packet that has waited for a second. -/
def aged : State := { queued hostReady (XPort.int 1) bulk0 with time := 1000000000 }

theorem test_hyp_aged : (aged.queue (XPort.int 1) .rmab).findIdx?
    (fun q => !q.started && decide (aged.time > q.at_ + aged.fld .root F.DEV_FP_RB_AGE_US * 1000)) = some 0 ∧
    (aged.queue (XPort.int 2) .rmab).findIdx?
    (fun q => !q.started && decide (aged.time > q.at_ + aged.fld .root F.DEV_FP_RB_AGE_US * 1000)) = none := by decide

theorem test_hyp_egress : (hostReady.choose (XPort.int 1) [Cls.mreq].contains).1 = none ∧
    ((queued hostReady (XPort.int 1) cell0).choose (XPort.int 1) [Cls.mreq].contains).1 = some .mreq ∧
    (∀ pt, (XPort.int 1).port? = some pt → hostReady.mode pt.g ≠ .f) ∧ (queued hostReady (XPort.int 1) cell0).anyQueued (XPort.int 1) = true ∧
    (XPort.int 1).port? = none ∧ FirstOf (queued hostReady (XPort.int 1) cell0) .root 2 ∧ Writable ready .root .DEV_FP_CLS_CFG 0 ∧ Writable ready .root .DEV_FP_CLS_SH 6 ∧
    fpLegal ready.clsRes (ready.shMax .rmab) = true ∧ fpLegal (fun _ => 0) 0 = false :=
  ⟨by decide, by decide, (by intro pt h; cases h), by decide, by decide, by unfold FirstOf; decide, by unfold Writable; decide, by unfold Writable; decide, by decide, by decide⟩

/-- R424: an internal port that stalls returns with empty queues. -/
theorem test_internal_stall : (match exec (.egressStall (XPort.int 1)) (queued hostReady (XPort.int 1) cell0) with
    | .next t => (t.anyQueued (XPort.int 1), t.xDown (XPort.int 1), t.dev.ws.safe)
    | _ => (true, true, true)) = (false, false, false) := by decide +kernel

theorem test_hyp_stall : (queued (fabLink 4 3) (groupX 2) cell0).anyQueued (groupX 2) = true ∧ (groupX 2).port? = some ⟨2, 0⟩ ∧
    (queued (fabLink 4 3) (groupX 2) cell0).portExists ⟨2, 0⟩ = true ∧ (queued (fabLink 4 3) (groupX 2) cell0).linkHolds ⟨2, 0⟩ = true ∧
    (queued (fabLink 4 1) (groupX 2) cell0).portExists ⟨2, 0⟩ = true ∧ (queued (fabLink 4 1) (groupX 2) cell0).linkHolds ⟨2, 0⟩ = false ∧
    (queued (fabLink 4 1) (groupX 2) cell0).anyQueued (groupX 2) = true := by decide

/-- A packet of two cells that waits whole, and one whose last cell has not come: the first stays when the link goes down (R347). -/
theorem test_wait_whole : waitWhole [.cell { cell0 with eop := false }, .cell cell0, .cell { cell0 with eop := false }, .out (.cell cell0 (groupX 2))] =
    [.cell { cell0 with eop := false }, .cell cell0, .out (.cell cell0 (groupX 2))] := by decide +kernel

theorem test_hyp_response : (withMode modReady 0 1).xDown (PortId.mk 1 0).x = false ∧ (withMode modReady 0 1).ortNamed ⟨1, 0⟩ 0 0 0 = none ∧
    (tracking (withMode modReady 0 1) entry0).ortNamed ⟨1, 0⟩ 0 0 0 = some (0, entry0) ∧
    Tab.get? (tracking (withMode modReady 0 1) entry0).dev.ort.entries 0 = some entry0 ∧
    entry0.ctx = .fwd (.host ⟨0, 0⟩ 7) := by decide

theorem test_hyp_lost_path : Tab.keep (tracking ready { entry0 with lost := true }).dev.ort.entries (fun _ v => v.isOpen && v.lost) =
    [(0, { entry0 with lost := true })] ∧ { entry0 with isOpen := false }.isOpen = false ∧
    (∀ c ∈ Tab.getD (tracking ready entry0).dev.ws.faults (pathCode .root) [], c.cls ≠ 1) := by decide

theorem test_hyp_notices : (tracking ready { entry0 with isOpen := false, owed := some 3 }).owedHome 0 = some 3 ∧
    ready.linePoisoned 0 = false ∧ PoisonFits ready 0 := ⟨by decide, by decide, by decide, psnBucket 0 * 4, by decide, by decide⟩

/-! ### Hypotheses of the statements: the Reservoir -/

/-- The Reservoir in a different state. -/
def rsvIn (s : State) (f : Rsv → Rsv) : State := { s with dev := { s.dev with rsv := f s.dev.rsv } }

/-- A read of the first line of pool memory by host port 0. -/
def read0 : Acc := {
  origin := .host ⟨0, 0⟩ 7, op := .memRd, mv := .i, gpa := 0, data := 0, mask := 0, wtype := .priv, cmode := 0, epoch := 0, tgt := some (.module 2 3),
  host := none, inst := none }

/-- A clean line. -/
def way0 : Way := { la := 0, dirty := false, pin := false, pu := false, lost := false, data := 5 }

/-- Way 0 of the first line's set holds it, and a set read waits. -/
def cachedLine (y : Way) (a : Acc) (issued : Bool) (arrived : Option Early) : State :=
  rsvIn (pooled mapped0) fun r => { r with ways := [(0, y)], reads := [(0, ⟨a, .all, issued, arrived, false, []⟩)] }

theorem cached_set (y : Way) (a : Acc) (issued : Bool) (arrived : Option Early) : (cachedLine y a issued arrived).cacheSet 0 = 0 := rfl

theorem cached_way (y : Way) (a : Acc) (issued : Bool) (arrived : Option Early) :
    (cachedLine y a issued arrived).way? ((cachedLine y a issued arrived).cacheSet 0) 0 = some y := by rw [cached_set]; rfl

theorem test_hyp_resize : RunsOnDevice ready (hdrTo .root) 0x0200 ∧ ready.resizeBusy 8 = false ∧
    { ready with dev := { ready.dev with xlat := { ready.dev.xlat with heldReply := some (hdrTo .root) } } }.wbOut (fun _ => true) = false ∧
    Running (running ready 0x0200 none []) 0x0200 none ⟨hdrTo .root, 0x0200, none, []⟩ ∧ ready.dev.coh.dir = [] ∧ 0 < ready.nsets ∧
    RunsOnDevice ready (hdrTo .root) 0x0206 ∧ Tab.get? ready.dev.rsv.withdraw 3 = none := by unfold RunsOnDevice RunsNow Running; decide

theorem test_hyp_set_read : (∃ r, Tab.get? (cachedLine way0 read0 true none).dev.rsv.reads 0 = some r ∧ r.acc = read0 ∧ r.issued = true ∧ r.arrived = none) ∧
    Leaves (cachedLine way0 read0 true none) read0.origin ∧
    (cachedLine way0 read0 true none).findWay ((cachedLine way0 read0 true none).cacheSet 0) 0 = some 0 ∧
    (cachedLine way0 read0 true none).way? ((cachedLine way0 read0 true none).cacheSet 0) 0 = some way0 ∧
    (pooled mapped0).findWay ((pooled mapped0).cacheSet 0) 0 = none ∧ (pooled mapped0).setSuspect ((pooled mapped0).cacheSet 0) = false ∧
    (pooled mapped0).mayAllocate = true ∧ ((pooled mapped0).way? ((pooled mapped0).cacheSet 0) 0).isNone = true ∧
    (pooled mapped0).unitNamed ((pooled mapped0).cacheSet 0 / 2048) = false ∧ Space ready :=
  ⟨⟨_, rfl, rfl, rfl, rfl⟩, ⟨by nofun, by nofun, by decide, by decide, by unfold Unheld; decide⟩, by decide, cached_way _ _ _ _, by decide, by decide, by decide, by decide, by decide, by unfold Space; decide⟩

/-- The line of way 0 read with one symbol turned over in every bit, and with one bit of each of two symbols. -/
theorem test_burst_corrected : burstVerdict (BitVec.ofNat 640 0xFFFF0000) = .corrected 1 := by decide +kernel

theorem test_burst_uncorrectable : burstVerdict (BitVec.ofNat 640 0x84210000001) = .uncorrectable ∧ burstVerdict 0 = .ok := by decide +kernel

theorem test_line_code : (List.range 4).map (burstSyn (lineBurst 5 7)) = [0, 0, 0, 0] := by decide +kernel

theorem test_hyp_metadata : metaTrusted (way0.meta ^^^ burstMeta (BitVec.ofNat 640 0x8421)) = true ∧
    metaTrusted (way0.meta ^^^ burstMeta (BitVec.ofNat 640 1 <<< 512)) = false ∧ metaTrusted { way0 with dirty := true }.meta = true := by decide +kernel

theorem test_hyp_set_scopes (y : Way) (a : Acc) (sc : SetScope) :
    (rsvIn (pooled mapped0) fun r => { r with ways := [(0, y)], reads := [(0, ⟨a, sc, true, none, false, []⟩)] }).dev.rsv.reads = [(0, ⟨a, sc, true, none, false, []⟩)] ∧
    (rsvIn (pooled mapped0) fun r => { r with hint := [(0, [0])] }).hinted ((pooled mapped0).cacheSet 0) = true := ⟨rfl, by decide⟩

theorem test_hyp_held : HeldAt (cachedLine way0 read0 true none) 0 0 way0 := ⟨by intro ps v h; exact absurd h (by nofun), by decide, cached_way _ _ _ _⟩

/-- A merge buffer of the first line. -/
def merge0 : MergeEntry := {
  stack := 0, ord := 0, data := 0, mask := 1, fromTarget := false, ready := false, writing := false, pin := false, reads := [], late := [] }

theorem test_hyp_merge : (pooled mapped0).mergeCount 0 < 64 ∧ Tab.get? (pooled mapped0).dev.rsv.merge 0 = none ∧
    (rsvIn ready fun r => { r with merge := [(0, merge0)] }).mergeCount 0 = 1 ∧ ((pooled mapped0).entry 0).type = .mapped := by decide

theorem test_hyp_scrub : (put ready (.stack 0) F.RSV_SCRUB_CTL_EN 1).flag (.stack 0) F.RSV_SCRUB_CTL_EN = true ∧ ready.dev.rsv.selfRefresh = false ∧
    ready.flag (.stack 0) F.RSV_SCRUB_CTL_EN = (ready.flag (.stack 3) F.RSV_SCRUB_CTL_EN) ∧
    Tab.getD (rsvIn ready fun r => { r with scrub := [(pcKey 0 0, [⟨0, false, none⟩])] }).dev.rsv.scrub (pcKey 0 0) [] = ⟨0, false, none⟩ :: [] ∧
    (rsvIn ready fun r => { r with lapStart := [(pcKey 0 0, 5)] }).dev.rsv.lapWarned.contains (pcKey 0 0) = false := by decide

/-- A write-back of the first line that waits for the tracker. -/
def wbWaiting : State :=
  let s := pooled mapped0
  { s with dev := { s.dev with flood := { s.dev.flood with waiting := [(qKey (s.stackX 0) .mreq, [.wb 0 1])] } } }

theorem test_hyp_write_back_waits : wbWaiting.wbWaits 0 = true ∧ (pooled mapped0).wbWaits 0 = false ∧ wbWaiting.wbOut (fun _ => true) = true ∧
    wbWaiting.wbFits 0 = false ∧ (pooled mapped0).mapBadNow 0 = false := by decide

/-- A flip that is held for the next read of the first line of the state region is corrected there, and counted (R141, R163). -/
theorem test_area_read : ((areaTake 0 fun _ => .skip).run (rsvIn ready fun r => { r with struck := [(lineKey (regionPc 0) 0, 1)] })).fld (regionPc 0) F.RSV_ECC_CNT_CE = 1 ∧
    ((areaTake 0 fun _ => .skip).run (rsvIn ready fun r => { r with struck := [(lineKey (regionPc 0) 0, 1)] })).dev.rsv.struck = [] := by decide +kernel

/-! ### Hypotheses of the statements: coherence and atomics -/

/-- Coherence in a different state. -/
def coherent (s : State) (f : Coh → Coh) : State := { s with dev := { s.dev with coh := f s.dev.coh } }

/-- A busy line: what it is held for, whether it is served, and its snoops. -/
def busy0 (cur : BusyFor) (served : Bool) (l : List Snoop) : State :=
  coherent ready fun c => { c with busy := [(0, ⟨cur, served, l, [], none⟩)], dir := [(0, ⟨1, 0, true, 0, 0⟩)], cached := [0] }

theorem test_hyp_at_head : AtHead (busy0 (.access read0) false []) 0 ⟨.access read0, false, [], [], none⟩ ∧ read0.la = 0 ∧
    (busy0 (.access read0) false []).dirFind 0 = some (0, ⟨1, 0, true, 0, 0⟩) ∧ ready.dirFind 0 = none ∧ ready.dirRoom 0 = .free 0 ∧
    ready.hostSnoops 0 < ready.fld .root F.DEV_COH_CFG_BI_MAX ∧ ready.resTaken .birs < ready.clsRes .birs ∧
    cohSnoops { read0 with wtype := .sharedHw, host := some 1, mv := .s } ⟨1, 0, true, 0, 0⟩ = [(0, false)] :=
  ⟨⟨rfl, rfl, by decide, by decide, by decide, by decide⟩, by decide, by decide, by decide, by decide, by decide, by decide, by decide⟩

/-- A write of the first line that waits for the tracker at its host's port, an operation of the atomic unit on that line, and an answer to the host that waits at the stack. -/
def writeWaiting : State :=
  let s := coherent (pooled mapped0) fun c => { c with atoms := [(0, ⟨.fadd64 1, 0, .host ⟨0, 0⟩ 0, 0, none, .waiting⟩)] }
  { s with dev := { s.dev with flood := { s.dev.flood with
    waiting := [(qKey (PortId.x ⟨0, 0⟩) .mreq, [.target { read0 with op := .memWr }]), (qKey (s.stackX 0) .mrsp, [.out (.answer (.host ⟨0, 0⟩ 0) .i none false)])] } } }

/-- The read of an atomic operation is held behind the write that came first (R197), and BIConflictAck waits behind the answer (R188). -/
theorem test_write_waits : writeWaiting.writeWaits 0 = true ∧
    Tab.get? ((atomRead 0).run writeWaiting).dev.coh.atoms 0 = some ⟨.fadd64 1, 0, .host ⟨0, 0⟩ 0, 0, none, .held⟩ ∧
    Tab.getD ((biConflict ⟨0, 0⟩ ⟨5, 0⟩).run writeWaiting).dev.flood.waiting (qKey (writeWaiting.stackX 0) .mrsp) [] =
      [.out (.answer (.host ⟨0, 0⟩ 0) .i none false), .out (.biConflictAck ⟨0, 0⟩ 5)] := by decide +kernel

theorem test_hyp_set_wait : 5 ∉ ready.dev.coh.cached ∧ ready.dev.coh.cached.length < dirCacheSets ∧ Tab.getD ready.dev.coh.setWait 5 [] = [] ∧
    FirstOf ready .root 0 ∧ ready.dev.coh.suspect.length < 256 := by unfold FirstOf; decide

/-- A snoop that is out. -/
def snoop0 : Snoop := { host := 0, inv := true, sent := some 0 }

theorem test_hyp_snooped : Snooped (busy0 .recall true [snoop0]) 0 0 ⟨.recall, true, [snoop0], [], none⟩ snoop0 ∧
    (∀ b n, ¬Snooped ready 0 0 b n) ∧ snoop0.inv = true := ⟨⟨rfl, by decide⟩, by intro b n h; exact absurd h.1 (by nofun), rfl⟩

theorem test_hyp_lost_hosts : (put ready .root F.DEV_COH_LOST_LOST 1).fld .root F.DEV_COH_LOST_LOST ≠ 0 ∧ Writable ready .root .DEV_COH_HOST 3 ∧
    ready.fldn .root F.DEV_COH_HOST_V 3 = 0 ∧ bitOf (ready.fld .root F.DEV_COH_LOST_LOST) 3 = false ∧ bitOf (2 ^ 31) 31 = true ∧ hostReady.isContained ⟨0, 0⟩ = false ∧
    RunsOnDevice ready (hdrTo .root) 0x0207 ∧ 0 < ready.dirSets ∧ ready.hostOf 1 ⟨0, 0⟩ = none := by unfold RunsOnDevice RunsNow Writable; decide

theorem test_hyp_atomics : (pooled mapped0).isFenced (.engine 2) = false ∧ (pooled mapped0).atomRoom 8 = true ∧ ((pooled mapped0).entry 0).home = (pooled mapped0).swid ∧
    0 < (pooled mapped0).fld .root F.DEV_MAP_SIZE_NEXT ∧ 0 ∉ (pooled mapped0).dev.xlat.bad ∧ (pooled mapped0).dirSets = 0 ∧ 2 ^ 50 ≤ (2 ^ 50 : BitVec 64).toNat ∧
    (∃ a, Tab.get? (coherent ready fun c => { c with atoms := [(0, ⟨.fadd64 1, 8, .host ⟨0, 0⟩ 7, 0, none, .reading⟩)] }).dev.coh.atoms 0 = some a ∧ a.step = .reading) ∧
    Alone ready 0 := ⟨by decide, by decide, by decide, by decide, by decide, by decide, by decide, ⟨_, rfl, rfl⟩, by unfold Unheld; decide, by decide, by decide, by intro b h; cases h⟩

/-- The read of an atomic operation, out at its module. -/
def atomRead0 : Acc := { read0 with origin := .atomic 0, tgt := none }

theorem test_hyp_atomic_read (e : OrtEntry) (h : e = { entry0 with ctx := .acc atomRead0 false }) :
    (tracking (coherent ready fun c => { c with atoms := [(0, ⟨.fadd64 1, 8, .host ⟨0, 0⟩ 7, 0, none, .reading⟩)] }) e).atomEntry 0 = some (0, e) ∧
    Tab.find (rsvIn ready fun r => { r with reads := [(0, ⟨atomRead0, .all, true, none, false, []⟩)] }).dev.rsv.reads
      (fun _ v => sameAcc v.acc atomRead0 && v.issued && v.arrived.isNone) = some (0, ⟨atomRead0, .all, true, none, false, []⟩) := by
  subst h; exact ⟨rfl, rfl⟩

theorem test_hyp_atomic_value : atomNew (.fadd64 1) 3 ≠ 3 ∧ atomNew (.fadd64 0) 3 = 3 := by decide

/-! ### Hypotheses of the statements: Millrace -/

/-- Millrace in a different state, instance 7 ACTIVE. -/
def milled (f : Mill → Mill) : State := { instIn 1 with dev := { (instIn 1).dev with mill := f (instIn 1).dev.mill }, regs := Tab.put (instIn 1).regs (fkey .root F.DEV_FAB_STAT_READY 0) 1 }

/-- The rings of a flow. -/
def rings0 : MRings := ⟨0, 6, 0, 0, 0x10000, 6, 0, 0, 0, true⟩

/-- A flow end of instance 7 with its rings. -/
def flow0 : Flow := { Flow.new 7 0 0 5 1 1000 with rings := some rings0 }

/-- A region of instance 7. -/
def region0 : Region := {
  v := true, closing := false, pool := false, permW := true, permR := true, permA := false, flowr := false, flow := 0, inst := 7, dmg := false, base := 0, len := 4096,
  hdr := none, closedAt := 0, late := false }

/-- The header of a Millrace packet for flow 0. -/
def mhdr0 : MHdr := {
  type := .wdata, final := true, retx := false, srcSw := 0, dstSw := 0, dstFlow := 0, srcFlow := 5, fgen := 1, seq := 0, orig := none, rkey := 0, roff := 0, len := 64,
  segmask := 0, stat := 0, seg := 0, una := 0, op1 := 0, op2 := 0 }

/-- Flow 0 open. -/
def flowing : State := milled fun m => { m with flows := [(0, flow0)] }

theorem test_hyp_flows : RunsOnDevice (instIn 1) (hdrTo .root) 0x0300 ∧ (instIn 1).instState 7 = 1 ∧ (instIn 1).flow? 0 = none ∧ (instIn 1).slotFlow 7 0 = none ∧
    (instIn 1).instFlows 7 < 1024 ∧ flowing.flow? 0 = some flow0 ∧ flow0.descs = [] ∧ flow0.fetching = false := by unfold RunsOnDevice RunsNow; decide

theorem test_hyp_inst_commands : InstTakes (instIn 1) 7 .MRC_ICMD_CTL 0 ∧ Tab.get? (instIn 1).dev.mill.eqs 7 = none ∧ flowing.slotFlow 7 (flowing.icmdNum 7 0 2) = some 0 ∧
    (instIn 1).icmdNum 7 8 1 < 6 ∧ (instIn 1).icmdNum 7 0 8 % 4096 = 0 ∧ (instIn 1).freeRegion = some 1 ∧ (instIn 1).instRegions 7 = [] := by
  unfold InstTakes Writable; decide

theorem test_hyp_regions : (milled fun m => { m with regions := [(0, region0)] }).keyRegion 0 = some (0, region0) ∧ (instIn 1).keyRegion 0 = none ∧
    (milled fun m => { m with regions := [(0, { region0 with closing := true })] }).regionHeld 0 = false ∧
    (milled fun m => { m with items := [(0, ⟨0, 1, 7, .atomic 0 false, some 0, none, true, []⟩)], flows := [(0, flow0)] }).regionHeld 0 = true := by decide

theorem test_hyp_doorbells : Writable flowing (.inst 7) .MRC_SQ_DB 0 ∧ F.MRC_SQ_DB_TAIL.part (1 : BitVec 32).toNat < 2 ^ rings0.sqLog ∧
    rings0.takesTail (F.MRC_SQ_DB_TAIL.part (64 : BitVec 32).toNat) = false ∧ rings0.takesTail 1 = true ∧
    { rings0 with sqHead := 1, sqTail := 3 }.takesTail 2 = false ∧ Writable flowing (.inst 7) .MRC_CQ_DB 0 ∧ Writable flowing (.inst 7) .MRC_EQ_DB 0 ∧
    rings0.cqFree 0 ≠ 0 ∧ rings0.sqHead = rings0.sqTail := by unfold Writable; decide

theorem test_hyp_calm : Calm flowing 0 flow0 :=
  ⟨by decide, by decide, by decide, by decide, by decide, by decide, by decide, by decide, by decide, by unfold Unheld; decide, by intro r h; cases h; rfl⟩

/-- Instance 7 held by the physical function of an H port that may master. -/
def mastering (s : State) : State :=
  put (put (put (withMode s 0 1) (.port ⟨0, 0⟩) F.PRT_HCFG_INST_BASE 7) (.port ⟨0, 0⟩) F.PRT_HCFG_NUM_VFS 1) (.port ⟨0, 0⟩) F.PRT_HSTAT_BME 1

/-- Its first virtual function may master too. -/
def masterFn (s : State) : State :=
  let t := mastering s
  { t with dev := { t.dev with ports := { t.dev.ports with vfBme := [fnKey ⟨0, 0⟩ 1] } } }

theorem test_hyp_mastering : (masterFn flowing).instPort flow0.inst = some (⟨0, 0⟩, 1) ∧ (masterFn flowing).bme ⟨0, 0⟩ 1 = true ∧ flow0.rings = some rings0 ∧
    (masterFn flowing).ortRoom (engX (flowEngine 0)) = true ∧ Tab.freeBelow (masterFn flowing).dev.ort.entries 65536 = some 0 :=
  ⟨by decide, by decide, rfl, by decide, least_zero _ _ (by decide) (by decide)⟩

/-- A descriptor of a WRITE. -/
def desc0 : MDesc := {
  sn := 0, idx := 0, opc := 1, fin := true, irq := false, len := 64, laddr := 0, roff := 0, rkey := 0, user := 0, op1 := 0, op2 := 0, src := none, cut := 64, fail := none,
  done := 0, result := 0, status := none, dep := false }

/-- A packet of it. -/
def pkt0 : MPkt := {
  seq := 0, sn := 0, type := .wdata, fin := true, off := 0, roff := 0, len := 64, rkey := 0, op1 := 0, op2 := 0, data := [], blocks := 0, sends := 1, retries := 0, trims := [],
  sentAt := 0, rto := 1000, rnrSince := none, dep := false }

/-- A flow end that has sent one packet of one descriptor. -/
def sending (p : MPkt) (d : MDesc) : Flow := { flow0 with pkts := [p], descs := [d] }

theorem test_hyp_senders : (milled fun m => { m with flows := [(0, sending pkt0 desc0)] }).flow? mhdr0.dstFlow.val = some (sending pkt0 desc0) ∧
    (sending pkt0 desc0).fgen = mhdr0.fgen.toNat ∧ pkt0.sn = desc0.sn ∧ desc0.cut = desc0.len ∧ ackEnds 1 1 0 [] false pkt0 = some 0 ∧
    (sending pkt0 desc0).pkts.find? (fun p => p.seq == mhdr0.seq.toNat) = some pkt0 ∧
    0 < (instIn 1).fld (flowUnit 0) F.MRC_RTO_RETRY_MAX ∧ (instIn 1).dev.fab.lostDst.contains flow0.peerSw.val = false := by decide

theorem test_hyp_departed : flowing.isFenced (flowUnit 0) = false ∧
    { flowing with dev := { flowing.dev with fab := { flowing.dev.fab with lostDst := [0] } } }.dev.fab.lostDst.contains flow0.peerSw.val = true ∧
    (rreqBlocks 0 64).find? (fun b => b.1 == 0) = some (0, 0, 64) := by decide

/-- A work item of flow 0 whose bus-master read is out. -/
def item0 (w : MWork) : MItem := ⟨0, 1, 7, w, none, none, true, []⟩

/-- A work item of an engine. -/
def working (w : MWork) : State := milled fun m => { m with flows := [(0, flow0)], items := [(0, item0 w)] }

theorem test_hyp_items : ItemOf (working (.fetch 0)) 0 0 (item0 (.fetch 0)) ∧ ItemOf (working (.place 0 true false)) 0 0 (item0 (.place 0 true false)) ∧
    (working (.place 0 true false)).itemBusy (flowEngine 0) 0 = false ∧ flow0.fgen = 1 ∧ seqBelow 0 flow0.rxB = false :=
  ⟨⟨by decide, by decide, by decide, by decide, by unfold Unheld; decide, by intro en h; cases h⟩,
    ⟨by decide, by decide, by decide, by decide, by unfold Unheld; decide, by intro en h; cases h⟩, by decide, by decide, by decide⟩

theorem test_hyp_descriptors : flow0.malformed (descOf 0 0 (List.replicate 64 0)) = true ∧ flow0.malformed (descOf 0 0 (1 :: 0 :: 0 :: 0 :: 64 :: List.replicate 59 0)) = false ∧
    (descOf 0 0 (1 :: 0 :: 0 :: 0 :: 64 :: List.replicate 59 0)).opc = 1 := by decide

/-- Flow 0 with a region whose key is 0. -/
def receiving : State := milled fun m => { m with flows := [(0, flow0)], regions := [(0, region0)] }

theorem test_hyp_receiving : Passes receiving mhdr0 flow0 ∧ receiving.keyTest 0 flow0 mhdr0 = .ok 0 region0 ∧ flowing.keyTest 0 flow0 mhdr0 = .reject 2 ∧
    (put receiving (.inst 7) F.INS_STAT_STATE 2).keyTest 0 flow0 mhdr0 = .retry ∧ flow0.fgen ≠ (2 : BitVec 8).toNat ∧
    { flow0 with ackDue := true }.ackDue = true ∧ FirstOf receiving (receiving.domainOf (flowUnit 0)) 0 ∧ mhdr0.roff < 2 ^ 64 ∧ mhdr0.len < 2 ^ 32 ∧
    (sending pkt0 desc0).gone pkt0 = false ∧ flowing.cqesHeld 0 flow0 = false := by unfold Passes Unheld FirstOf; decide

/-- R219: a header in its 64 bytes: TYPE 1 with FINAL, the sending end's flow and the generation, LEN. -/
theorem test_mill_bytes : (millBytes mhdr0).take 8 = [0x11, 0, 0, 0, 5, 0, 1, 0] ∧ ((millBytes mhdr0).drop 24).take 2 = [64, 0] ∧
    millParse (millBytes mhdr0) = some mhdr0 := by decide +kernel

/-- R224: an ACK with one transient record: NTR in byte 48, the record's SEQ and CODE from byte 52 on. -/
theorem test_ack_bytes : ((ackBytes mhdr0 7 7 1 [(9, 0x80)] [] true).drop 48).take 8 = [0x81, 0, 0, 0, 9, 0, 0, 0x80] ∧
    (ackBytes mhdr0 7 7 1 [(9, 0x80)] [] true).length = 128 := by decide +kernel

/-- R241: a flow state area that reads uncorrectable puts its end in ERROR, with EV091 and EV087. -/
theorem test_mill_state_bad : (match exec (.wdata ⟨mhdr0, true, false⟩ (List.replicate 64 0)) receiving with
  | .next t => (t.flow? 0).map Flow.err == some true && t.hist.map (·.event) == [91, 87]
  | _ => false) = true := by decide +kernel

/-! ### Hypotheses of the statements: fabric -/

theorem test_hyp_identity : Writable ready .root .DEV_FAB_ID 0 ∧ (∀ g : Fin 64, ready.mode g = .f → ready.fabState g = 0 ∨ ready.fabState g = 5) ∧
    ((fabLink 4 1).mode 2 = .f ∧ (fabLink 4 1).fabState 2 = 4) ∧ Writable ready .root .DEV_FAB_RT 3 ∧ bitOf (4 : BitVec 64).toNat 2 = true ∧ ready.mode 2 ≠ .f :=
  ⟨by unfold Writable; decide, by decide, by decide, by unfold Writable; decide, by decide, by decide⟩

theorem test_hyp_recompute : (∀ d : Fin 16, (ready.fldn .root F.DEV_FAB_EFF_MEMBERS d.val ≠ 0 → ready.effSet d ≠ 0) ∧
    (ready.effSet d ≠ 0 → d.val ∉ ready.dev.fab.lostDst)) ∧ Unused ready ∧ FirstOf ready .root 1 ∧
    (fabLink 4 1).fabUp 2 = true ∧ ready.fabUp 2 = false := by unfold Unused FirstOf; decide

theorem test_hyp_admission : (fabLink 2 1).fabState 2 = 2 ∧ (fabLink 3 1).fabState 2 = 3 ∧ FirstOf (fabLink 2 1) ((fabLink 2 1).domainOf (fabPort 2)) 6 ∧
    RunsOnDevice ready (hdrTo .root) 0x0400 ∧ RunsNow ready (hdrTo (.group 2)) 0x0401 ∧ Names ready (hdrTo (.group 2)) (.group 2) ∧ (fabLink 5 0).fabState 2 = 5 ∧
    RunsOnDevice ready (hdrTo .root) 0x0402 ∧ Tab.get? (fabLink 2 1).dev.fab.early 2 = none := by unfold FirstOf RunsOnDevice RunsNow Names; decide

/-- A fabric link that Headwater authenticates. -/
def authing : State := { fabLink 2 1 with dev := { (fabLink 2 1).dev with
  fab := { (fabLink 2 1).dev.fab with auth := [(2, true)], trust := [7] }
  hw := { (fabLink 2 1).dev.hw with spdm := [(131, ⟨true, true, true, []⟩)] } } }

theorem test_hyp_auth : NoneWaits authing ∧ authing.fabState 2 = 2 ∧ (2, true) ∈ authing.dev.fab.auth ∧ peerOffers ⟨[0x13], true, true⟩ = true ∧
    peerOffers ⟨[0x12], true, true⟩ = false ∧ 7 ∈ authing.dev.fab.trust ∧ ((List.finRange 64).filter authing.authNow).length < 8 ∧
    authing.linkProven 2 = true ∧ ({ authing with dev := { authing.dev with hw := ready.dev.hw } } : State).linkProven 2 = false ∧ Unheld authing ∧
    authing.spdmOn (.link 2) = true ∧ ({ authing with dev := { authing.dev with hw := { authing.dev.hw with ident := true }, fab := { authing.dev.fab with passed := [2] } } } :
      State).spdmOf (.link 2) = some ⟨true, true, true, []⟩ := by unfold NoneWaits Unheld; decide

/-- R258-R263: a peer that passes takes the link to ADMIT; one whose leaf is no group unit's fails it with code 2. -/
theorem test_auth_outcome : (match exec (.linkAuthenticationComplete 2 ⟨[0x13], true, true⟩ 7 ⟨true, true, 4001⟩ true) authing with
    | .next t => t.fabState 2
    | _ => 0) = 3 ∧
    (match exec (.linkAuthenticationComplete 2 ⟨[0x13], true, true⟩ 7 ⟨true, false, 4001⟩ true) authing with
    | .next t => t.fld (fabPort 2) F.PRT_FAB_STAT_FAIL_CODE
    | _ => 0) = 2 := by decide +kernel

/-- R259: what the requester asks of a peer with a chain of 4,001 bytes, and of one without SPDM 1.3. -/
theorem test_auth_asks : (authAsks ⟨[0x13], true, true⟩ ⟨true, true, 4001⟩ true 9).map Prod.fst = [0xE1, 0xE3, 0x81, 0x82, 0x82, 0x83] ∧
    authAsks ⟨[0x12], true, true⟩ ⟨true, true, 4001⟩ true 9 = [] := by decide

/-- R249, R251: an answer for switch 5 leaves on the one member of its set, and where the set is empty not at all. -/
theorem test_out_via : ({ ready with regs := Tab.put ready.regs (fkey .root F.DEV_FAB_EFF_MEMBERS 5) 8 } : State).outVia (.answer (.switch 5 (XPort.int 0) (0, 0)) .i none false) =
      some (.leave (groupX 3) (.answer (.switch 5 (XPort.int 0) (0, 0)) .i none false)) ∧
    ready.outVia (.answer (.switch 5 (XPort.int 0) (0, 0)) .i none false) = none ∧
    Reaches ready (ready.originSw (.host ⟨0, 0⟩ 0)) ∧ Reaches ready ready.swid ∧
    Reaches { ready with regs := Tab.put ready.regs (fkey .root F.DEV_FAB_EFF_MEMBERS 5) 8 } 5 ∧ (5 : Fin 16) ≠ ready.swid ∧ ready.members 5 = [] := by decide

/-- A fabric link in ADMIT with its identity accepted and CRINIT sent and received. -/
def joining : State :=
  { fabLink 3 1 with dev := { (fabLink 3 1).dev with fab := { (fabLink 3 1).dev.fab with joining := [(2, ⟨true, true, true⟩)] } } }

theorem test_hyp_up : joining.mode 2 = .f ∧ Tab.get? joining.dev.fab.joining 2 = some ⟨true, true, true⟩ ∧ UpAlone joining ∧ 5 ≠ joining.swid.val ∧
    joining.flag (fabPort 2) F.PRT_FAB_PEER_EN = false := by unfold UpAlone Unused; decide

/-! ### Hypotheses of the statements: instances -/

/-- The instance block of instance 7 as its own virtual function sees it. -/
theorem test_hyp_mailbox : Writable (instIn 1) (.inst 7) .INS_MBX_H2M 0 ∧ (masterFn (instIn 1)).instSide (.hostFn ⟨0, 0⟩ 1) 7 = true ∧
    (masterFn (instIn 1)).instSide .headwater 7 = false ∧ (instIn 1).full 7 true = false ∧ (put (instIn 1) (.inst 7) F.INS_MBX_DB_H2M_FULL 1).full 7 true = true := by
  unfold Writable; decide

theorem test_hyp_rules : Writable ready .root .LEV_RULE_BASE 3 ∧ Writable ready .root .LEV_RULE_LIMIT 3 ∧ Writable ready .root .LEV_RULE_CTL 3 ∧
    ready.fldn .root F.LEV_RULE_CTL_LOCK 3 = 0 ∧ (0 : BitVec 64).toNat / 2 ^ 39 % 4 ≠ 3 ∧ (0 : BitVec 64).toNat / 2 ^ 34 % 4 ≠ 3 ∧
    (3 * 2 ^ 39 : BitVec 64).toNat / 2 ^ 39 % 4 = 3 ∧ (0 : BitVec 63).toNat + 2 ^ 63 = (2 ^ 63 : BitVec 64).toNat := by unfold Writable; decide

theorem test_hyp_instances : (masterFn (instIn 1)).portExists ⟨0, 0⟩ = true ∧ (masterFn (instIn 1)).mode 0 = .h ∧ (masterFn (instIn 1)).vfInst ⟨0, 0⟩ 1 = some 7 ∧
    RunsNow (instIn 1) (hdrTo (.inst 7)) 0x0303 ∧ Names (instIn 1) (hdrTo (.inst 7)) (.inst 7) ∧ (instIn 2).instState 7 = 2 ∧ (instIn 2).freezing 7 = false ∧
    (instIn 3).instState 7 = 3 ∧ (instIn 2).flowsOf 7 = [] ∧ (instIn 2).instRegions 7 = [] ∧ (instIn 0).instState 7 = 0 ∧ EmptyInst (instIn 1) 7 ∧ imgOk [] = false := by
  unfold RunsNow Names EmptyInst; decide

theorem test_hyp_restore : RunsNow (masterFn (instIn 1)) (hdrTo (.inst 7)) 0x0305 ∧ EmptyInst (masterFn (instIn 1)) 7 ∧ (masterFn (instIn 1)).mode 0 = .h ∧
    (match (masterFn (instIn 1)).imageRead ⟨.bus ⟨0, 0⟩ 4090, 16, some [1]⟩ with | .ok l => l | .error _ => []) = [1] ∧
    busParts 4090 16 = [(4090, 6), (4096, 10)] := by unfold RunsNow EmptyInst; decide

/-- An image with no records. -/
def bareImage : List Byte :=
  let l := [0x4E, 0x5A, 0x49, 0x4D] ++ leBytes 2 1 ++ leBytes 2 0 ++ leBytes 4 768 ++ List.replicate 756 0
  patch l 12 (leBytes 4 (crc32c l))

set_option maxRecDepth 100000 in
theorem test_hyp_restorable : Restorable (masterFn (instIn 1)) none bareImage := by
  have h : imgOk bareImage = true := by decide +kernel
  have f : imgFlows bareImage = [] := by decide +kernel
  have r : imgRegions bareImage = [] := by decide +kernel
  simp [Restorable, h, f, r]

/-- R311: a thaw and a reset do not wait behind a drain, a freeze not behind a reset; a thaw waits behind a reset (R466). -/
theorem test_meets : meets 0x0306 0x0303 = true ∧ meets 0x0309 0x0303 = true ∧ meets 0x0303 0x0309 = true ∧ meets 0x0306 0x0309 = false := by decide

/-- R313: nothing more is mastered for an instance that is being reset. -/
theorem test_reset_masters : (masterFn (instIn 1)).bme ⟨0, 0⟩ 1 = true ∧ (masterFn (instIn 3)).bme ⟨0, 0⟩ 1 = false ∧
    (masterFn (instIn 3)).masters 7 (.out (.msix ⟨0, 0⟩ 1 0 0 0)) = true := by decide

/-- Instance 7 freezes and has drained. -/
def freezing : State := running (put (instIn 2) (.inst 7) F.INS_STAT_DRAINING 1) 0x0303 (some (.inst 7)) []

theorem test_hyp_freeze : freezing.freezing 7 = true ∧ freezing.drained 7 = true ∧ Running freezing 0x0303 (some (.inst 7)) ⟨hdrTo .root, 0x0303, some (.inst 7), []⟩ ∧
    (put (instIn 3) (.inst 7) F.INS_STAT_DRAINING 1).flag (.inst 7) F.INS_STAT_DRAINING = true ∧ (instIn 3).flag (.inst 7) F.INS_STAT_DRAINING = false ∧
    Running (running (instIn 3) 0x0309 (some (.inst 7)) []) 0x0309 (some (.inst 7)) ⟨hdrTo .root, 0x0309, some (.inst 7), []⟩ := by unfold Running; decide

/-! ### Hypotheses of the statements: groups and ports -/

/-- A change of a group's mode at a step. -/
def changing (n : Nat) : State := { ready with dev := { ready.dev with ports := { ready.dev.ports with grpStep := [(0, n)] } } }

theorem test_hyp_groups : Writable ready (.group 0) .GRP_CFG 0 ∧ Mode.ofNum ((0 : BitVec 32).toNat % 4) = ready.mode 0 ∧ ready.split 0 = false ∧
    ready.flag (.group 0) F.GRP_STAT_CHG = false ∧ ready.groupRefuse 0 (Mode.ofNum 3) false false = none ∧ ready.fabState 0 = 0 ∧
    (changing 1).grpStep 0 = 1 ∧ (changing 2).grpStep 0 = 2 ∧ (changing 4).grpStep 0 = 4 := by unfold Writable; decide

theorem test_hyp_port_config : Writable (withMode ready 0 1) (.port ⟨0, 0⟩) .PRT_HCFG 0 ∧ (withMode ready 0 1).fld (.port ⟨0, 0⟩) F.PRT_HSTAT_LSTATE = 0 ∧
    hostReady.fld (.port ⟨0, 0⟩) F.PRT_HSTAT_LSTATE ≠ 0 ∧ Writable (withMode ready 1 2) (.port ⟨1, 0⟩) .PRT_MCFG 0 ∧
    (withMode ready 1 2).boundPort 0 = none ∧ (withMode ready 1 2).isBound ⟨1, 0⟩ = none ∧ (withMode ready 1 2).slotOff 0 = true ∧
    modReady.boundPort 5 = some ⟨1, 0⟩ ∧ modReady.isBound ⟨1, 0⟩ = some 5 ∧ instsMeet 4 0 0 8 = false ∧ instsMeet 4 1 0 8 = true ∧
    (put modReady (.slot 5) F.SLT_STAT_PRSNT 1).moduleGone ⟨1, 0⟩ = false ∧ modReady.moduleGone ⟨1, 0⟩ = true := by unfold Writable; decide

theorem test_hyp_host_face : hostReady.hostUp ⟨0, 0⟩ = true ∧ hostReady.flag (.port ⟨0, 0⟩) F.PRT_HCFG_HDM_OWN = false ∧
    (put hostReady (.port ⟨0, 0⟩) F.PRT_HCFG_HDM_OWN 1).flag (.port ⟨0, 0⟩) F.PRT_HCFG_HDM_OWN = true ∧ (mastering ready).ownBme ⟨0, 0⟩ 0 = true ∧
    ready.ownBme ⟨0, 0⟩ 0 = false ∧ hostReady.dev.mill.items = [] ∧ hostReady.ringOn ⟨0, 0⟩ = false ∧ hostReady.fld (.port ⟨0, 0⟩) F.PRT_HSTAT_LSTATE ≠ 4 ∧
    (put hostReady (.port ⟨0, 0⟩) F.PRT_HSTAT_LSTATE 4).fld (.port ⟨0, 0⟩) F.PRT_HSTAT_LSTATE = 4 ∧ hostReady.dev.coh.busy = [] ∧
    (∀ h, hostReady.hostOf hostReady.swid ⟨0, 0⟩ = some h → bitOf (hostReady.fld .root F.DEV_COH_LOST_LOST) h.val = false) := by decide

/-- A port whose host owns its decoders. -/
def hostOwned : State := put hostReady (.port ⟨0, 0⟩) F.PRT_HCFG_HDM_OWN 1

theorem test_hyp_decoders : hostOwned.winEn ⟨0, 0⟩ 0 = false ∧ hostOwned.fldn (.port ⟨0, 0⟩) F.PRT_WIN_CTL_LOCK 0 = 0 ∧
    (2 ^ 28 : BitVec 53).toNat = hostOwned.winSize ⟨0, 0⟩ 0 ∧ (2 ^ 29 : BitVec 53).toNat ≠ hostOwned.winSize ⟨0, 0⟩ 0 ∧ (0 : BitVec 52).toNat % 2 ^ 28 = 0 ∧
    (put hostOwned (.port ⟨0, 0⟩) F.PRT_WIN_CTL_EN 1).winEn ⟨0, 0⟩ 0 = true ∧
    (put hostOwned (.port ⟨0, 0⟩) F.PRT_WIN_CTL_LOCK 1).fldn (.port ⟨0, 0⟩) F.PRT_WIN_CTL_LOCK 0 = 1 ∧
    (put hostReady (.port ⟨0, 0⟩) F.PRT_WIN_CTL_EN 1).winEn ⟨0, 0⟩ 0 = true ∧
    { hostReady with dev := { hostReady.dev with ports := { hostReady.dev.ports with linkDis := [0] } } }.dev.ports.linkDis = [(PortId.mk 0 0).ix] ∧
    4092 < (4093 : BitVec 32).toNat % 4096 := by decide

/-- R275: a host's commit of a decoder through its control word enables the window; the control word then reads committed, HDM-H. -/
theorem test_hdm_commit_by_control :
    let t := (Prog.seq (cxlKeep ⟨0, 0⟩ (.hdm 0 2) (2 ^ 28)) (cxlWrite ⟨0, 0⟩ (.hdm 0 4) (2 ^ 9))).run hostOwned
    t.winEn ⟨0, 0⟩ 0 = true ∧ t.cxlWord ⟨0, 0⟩ (.hdm 0 4) = some (2 ^ 9 + 2 ^ 10 + 2 ^ 12) := by decide +kernel

/-- R277, R280: what the host has written of the payload is gone after a command, and reads back before it. -/
theorem test_payload : (match (cxlWrite ⟨0, 0⟩ (.mbox 8) 7).run hostReady with
    | t => t.cxlWord ⟨0, 0⟩ (.mbox 8) == some 7 && ((cxlWrite ⟨0, 0⟩ (.mbox 1) 1).run t).cxlKept ⟨0, 0⟩ (.mbox 8) == 0) = true := by decide +kernel

/-- R280: an opcode that the mailbox does not serve is Unsupported. -/
theorem test_mailbox_unsupported :
    let t := (Prog.seq (cxlKeep ⟨0, 0⟩ (.mbox 2) 0x4500) (cxlWrite ⟨0, 0⟩ (.mbox 1) 1)).run { hostReady with out := [] }
    t.out = [.cxlReply ⟨0, 0⟩ false []] ∧ t.cxlWord ⟨0, 0⟩ (.mbox 5) = some 3 := by decide +kernel

/-- A module port at an enumeration step. -/
def enumerating (n : Nat) : State := { modReady with dev := { modReady.dev with ports := { modReady.dev.ports with enumStep := [((PortId.mk 1 0).ix, n)] } } }

theorem test_hyp_modules : (put (put modReady (.port ⟨1, 0⟩) F.PRT_MSTAT_STATE 0) (.slot 5) F.SLT_STAT_PG 1).flag (.slot 5) F.SLT_STAT_PG = true ∧ modReady.mslot ⟨1, 0⟩ = 5 ∧
    modReady.dev.pwr.phase = .run ∧ modReady.mEn ⟨1, 0⟩ = true ∧ modReady.grpClocked 1 = true ∧ modReady.refOk 1 = true ∧ modReady.enumStep ⟨1, 0⟩ = 0 ∧
    (∀ n ∈ [1, 3, 4], (enumerating n).enumStep ⟨1, 0⟩ = n) ∧ FirstOf modReady (modReady.domainOf (.port ⟨1, 0⟩)) 4 ∧
    2 ^ 28 ≤ (2 ^ 28 : BitVec 64).toNat ∧ RunsNow modReady (hdrTo (.port ⟨1, 0⟩)) 0x0501 ∧ Names modReady (hdrTo (.port ⟨1, 0⟩)) (.port ⟨1, 0⟩) := by
  unfold FirstOf RunsNow Names; decide

theorem test_hyp_module_mailbox : MboxRoom modReady ⟨1, 0⟩ 2 ∧ (modReady.dev.ort.entries.map Prod.fst).Nodup := by unfold MboxRoom; decide

/-! ### Hypotheses of the statements: fabric links and lanes -/

/-- A fabric link that runs, its link layer in a different state. -/
def linked (f : FLink → FLink) : State :=
  { fabLink 4 1 with dev := { (fabLink 4 1).dev with link := { (fabLink 4 1).dev.link with fl := [(2, f FLink.empty)] } } }

/-- A fabric link that holds a CTRL message of a type. -/
def ctrlHolds : State :=
  let s := fabLink 4 1
  { s with dev := { s.dev with link := { s.dev.link with fl := Tab.put s.dev.link.fl 2 { s.flink 2 with ctrlHeld := [0x24] } } } }

theorem test_hyp_ctrl : NoneHeld (fabLink 4 1) 2 0x24 ∧ NoneHeld ctrlHolds 2 0x23 ∧ (ctrlHolds.flink 2).ctrlHeld = [] ++ (0x24 : BitVec 128) :: [] ∧
    CtrlCommand 2 (.pauseRsp 2 0 0) 0x24 ∧ LaneBlock 4 4 ∧ ¬LaneBlock 3 0 ∧ NoneBegun (fabLink 4 1) (groupX 2) .mreq :=
  have e : ((fabLink 4 1).flink 2).ctrlHeld = [] := by decide
  have f : (ctrlHolds.flink 2).ctrlHeld = [0x24] := by decide
  ⟨(by intro m h; rw [e] at h; exact absurd h List.not_mem_nil), (by intro m h; rw [f] at h; rw [List.mem_singleton.mp h]; decide), f, Or.inr (Or.inr (Or.inr (Or.inr ⟨rfl, _, _, rfl⟩))), by decide, by decide,
    by unfold NoneBegun; exact ⟨by decide, by intro d h; cases h⟩⟩

theorem test_hyp_link_ready : LinkReady (put (fabLink 4 1) (fabPort 2) F.PRT_FL_CRED_CTRL_CR 16) 2 2 ∧ LinkIdle (fabLink 4 1) 2 ∧ MayFall (fabLink 4 1) 2 := by
  unfold LinkReady LinkIdle MayFall Unused; decide

/-- The lane of the spec's example of stuffing (R361): its last symbol stands at level 3. -/
def stuffed : TxLane := { preq := none, test := false, scr := 1, level := 3, run := 1, left := 1000, foff := 0, line := [] }

/-- R361's two examples: sixty symbols at level 1 take 62 positions, and the stuff symbol after 24 symbols at level 2 stands at level 0. -/
theorem test_stuffing : ((List.replicate 60 (1 : Fin 4) ++ [3]).foldl (fun x l => txSymbol l (txStuff x)) stuffed).line.reverse =
      List.replicate 24 1 ++ [3] ++ List.replicate 24 1 ++ [3] ++ List.replicate 12 1 ++ [3] ∧
    ((List.replicate 24 (2 : Fin 4) ++ [0]).foldl (fun x l => txSymbol l (txStuff x)) stuffed).line.reverse =
      List.replicate 24 2 ++ [0, 0] := by decide +kernel

/-- R362: the symbol after a run of 24 goes, and the level after it stays; where noise breaks the run, the stuff symbol is kept as data, and no error counts. -/
theorem test_rx_stuffing : (rxFrame false 3 (List.replicate 24 2 ++ [0, 0])).data = 0 :: List.replicate 24 2 ∧
    (rxFrame false 3 (List.replicate 24 2 ++ [1, 0])).bad = 1 ∧
    (rxFrame false 3 (List.replicate 9 2 ++ [3] ++ List.replicate 14 2 ++ [0, 0])).data.length = 26 ∧
    (rxFrame false 3 (List.replicate 9 2 ++ [3] ++ List.replicate 14 2 ++ [0, 0])).bad = 0 ∧
    (rxFrame true 0 (List.replicate 24 1 ++ [3, 3])).bad = 0 := by decide +kernel

/-- R370: three zeros sent from a scrambler state read without a wrong bit; R368: the phase wraps, and the symbol count goes with it. -/
theorem test_zero_errors : zeroErrors 1 ([0, 0, 0].foldl (fun x _ => txData 0 256 x 0) stuffed |>.line.reverse.map (·.val)) = 0 ∧ zeroErrors 1 [1] = 1 ∧
    phaseStep 1 { Lane.empty with ph := 63 } = { Lane.empty with ph := 0, wraps := 1 } ∧ firOut 64 16 24 3 3 3 = -48 := by decide +kernel

/-- R358: a marker of training asks for a preset, and one of a link test has TEST set. -/
theorem test_marker_fields : txMark 0 { stuffed with scr := 0, preq := some 5 } = 5 * 2 ^ 45 + 2 ^ 48 ∧ txMark 0 { stuffed with scr := 0, test := true } = 2 ^ 49 := by
  decide

/-- R358: zeros go out until a flit portion begins. -/
theorem test_align : (txAlign 0 4 { stuffed with foff := 2 }).line.length = 2 ∧ (txAlign 0 4 { stuffed with foff := 2 }).foff = 0 := by decide +kernel

/-- A receiver accepts the marker that a transmitter sends, with its seed, lane and FOFF (R358, R359). -/
theorem test_marker_sent : (markAccept (BitVec.ofNat 128 ((markSymbols (txMark 5 { stuffed with foff := 7 })).foldr (fun l n => l.val + n * 4) 0))).map
    (fun e => (e.1 % 2 ^ 64, e.2)) = some (1 + 5 * 2 ^ 31 + 7 * 2 ^ 34, false) := by decide +kernel

/-- The CRC-64 a quarter of the flit at a time. -/
theorem crc64_parts (n k0 k1 k2 k3 : Nat)
    (h0 : (List.range' 0 126).foldl (fun c i => crcByte c (n / 2 ^ (8 * i) % 256)) (2 ^ 64 - 1) = k0)
    (h1 : (List.range' 126 126).foldl (fun c i => crcByte c (n / 2 ^ (8 * i) % 256)) k0 = k1)
    (h2 : (List.range' 252 126).foldl (fun c i => crcByte c (n / 2 ^ (8 * i) % 256)) k1 = k2)
    (h3 : (List.range' 378 126).foldl (fun c i => crcByte c (n / 2 ^ (8 * i) % 256)) k2 = k3) :
    crc64 n = 2 ^ 64 - 1 - k3 := by
  have e : List.range 504 = List.range' 0 126 ++ (List.range' 126 126 ++ (List.range' 252 126 ++ List.range' 378 126)) := by decide +kernel
  unfold crc64
  rw [e, List.foldl_append, List.foldl_append, List.foldl_append, h0, h1, h2, h3]

/-- The CRC of a flit of zeros whose header is 5 (R325). -/
theorem test_crc : crc64 (5 * 2 ^ 3968) = 2 ^ 64 - 1 - 0xad06c6cc8676206 :=
  crc64_parts (5 * 2 ^ 3968) 0x6af5343d4afd9e89 0xb8e0ff28ff628a62 0x6f202f8def09256f 0xad06c6cc8676206 (by decide +kernel) (by decide +kernel) (by decide +kernel) (by decide +kernel)

/-- A flit's CRC as sent is good as received (R325). -/
theorem test_crc_good (w : BitVec 4096) (h : w.toNat % 2 ^ 4032 = 5 * 2 ^ 3968) (k : w.toNat / 2 ^ 4032 = 2 ^ 64 - 1 - 0xad06c6cc8676206) : flitGood w = true := by
  unfold flitGood flitCrc
  rw [h, k, test_crc]
  exact beq_self_eq_true _

/-- A lane whose run has reached 24, and the three places in a frame. -/
theorem test_hyp_line : stuffed.run ≤ 24 ∧ stuffed.left ≠ 0 ∧ 1 < { stuffed with run := 24 }.left ∧ { stuffed with left := 0 }.left = 0 := by decide

theorem test_hyp_flits : (fabLink 4 0).flPhase 2 = 0 ∧ (fabLink 4 1).flPhase 2 = 1 ∧ ((fabLink 4 1).flink 2).rxCur = none ∧
    (linked fun l => { l with retCtrl := 3 }).flSends 2 = true ∧ 0 < ((linked fun l => { l with retCtrl := 3 }).flink 2).retCtrl ∧
    ((linked fun l => { l with ask := some ⟨3, 4, 0, 0⟩ }).flink 2).ask = some ⟨3, 4, 0, 0⟩ ∧ (fabLink 4 3).flPhase 2 = 3 ∧
    ((linked fun l => { l with retrain := some ⟨0, none, true⟩ }).flink 2).retrain = some ⟨0, none, true⟩ ∧ laneBlock 0x0F [4, 2, 1] = some (4, 0) ∧
    laneBlock 0 [4, 2, 1] = none := by decide

theorem test_hyp_link_writes : Writable (fabLink 4 1) (fabPort 2) .PRT_FL_RXCFG 0 ∧ Writable (fabLink 4 1) (fabPort 2) .PRT_FL_RXLIM 0 ∧
    Writable (fabLink 4 1) (fabPort 2) .PRT_FL_RESHAPE 0 ∧ ((fabLink 4 1).rxReserves 2).sum ≤ 735 ∧ 33 ≤ ((fabLink 4 1).rxReserves 2).getD 4 0 := by
  unfold Writable; decide

/-- A lane of group 2. -/
def lane0 : LaneId := ⟨⟨2, 0⟩, 0⟩

theorem test_hyp_lanes : (fabLink 4 1).unitExists (.lane lane0) = true ∧ (put (fabLink 4 1) (.lane lane0) F.LN_STAT_ALIGN 1).flag (.lane lane0) F.LN_STAT_ALIGN = true ∧
    (fabLink 4 1).grpClocked 2 = true ∧ (fabLink 0 0).mayTrain 2 = true ∧ (fabLink 1 0).mayTrain 2 = false ∧
    (put (fabLink 1 0) (.group 2) F.GRP_FC_STAT_TSTEP 1).tstep 2 = 1 ∧ laneBlock 0xFF [8, 4, 2, 1] = some (8, 0) ∧ laneBlock 0 [8] = none ∧
    (put (fabLink 1 0) (.group 2) F.GRP_FC_STAT_TSTEP 5).trainEnds 2 = true ∧ (put (fabLink 1 0) (.group 2) F.GRP_FC_STAT_TSTEP 4).trainEnds 2 = false ∧
    FirstOf (fabLink 1 0) (.group 2) 5 := by unfold FirstOf; decide

/-- A lane of an UP link that has missed a marker, and whose offsets wait. -/
def lapsing : State := (laneUpd lane0 fun l => { l with
  missed := 1
  good := 2
  ofsDue := true
  satTold := false }).run (put (fabLink 4 1) (.lane lane0) F.LN_STAT_ALIGN 1)

theorem test_hyp_markers : markAccept 0 = none ∧ Told (fabLink 4 1) lane0 ∧ ((fabLink 4 1).lane lane0).ofsDue = false ∧ ((fabLink 4 1).lane lane0).missed = 0 ∧
    (lapsing.lane lane0).missed = 1 ∧ lapsing.flag (.lane lane0) F.LN_STAT_ALIGN = true ∧ (lapsing.lane lane0).ofsDue = true ∧ (lapsing.lane lane0).satTold = false ∧
    lapsing.retrained 2 0xFF = 1 ∧ (linked fun l => { l with retrain := some ⟨0, some ⟨0, 8, 0, 2⟩, false⟩ }).rateMoving 2 true = false := by unfold Told; decide

/-- R350, R368: the second marker in succession that is not accepted takes the lane out of alignment, and the link retrains. -/
theorem test_second_miss : (match exec (.alignmentMarker lane0 0 [] ⟨0, 0, 0⟩ 0 0) { lapsing with regs := Tab.put lapsing.regs (fkey (fabPort 2) F.PRT_FL_CFG_AUTO_DEG 0) 1 } with
    | .next t => (t.flag (.lane lane0) F.LN_STAT_ALIGN, t.flPhase 2)
    | _ => (true, 0)) = (false, 3) := by decide +kernel

theorem test_hyp_lane_writes : Writable (fabLink 0 0) (.group 2) .GRP_LTEST 0 ∧ Writable (fabLink 4 1) (.lane lane0) .LN_MRG_CTL 0 ∧
    Writable (fabLink 4 1) (.lane lane0) .LN_TXEQ 0 ∧ Writable (fabLink 4 1) (.lane lane0) .LN_CAL_USR 0 ∧
    (put (fabLink 4 1) (.lane lane0) F.LN_MRG_RES_BUSY 1).flag (.lane lane0) F.LN_MRG_RES_BUSY = true ∧
    (put (fabLink 0 0) (.group 2) F.GRP_LTEST_BUSY 1).flag (.group 2) F.GRP_LTEST_BUSY = true ∧ fabPreset 0 = (0, 0) := by unfold Writable; decide

/-! ### Hypotheses of the statements: the device as a whole -/

theorem test_hyp_step : { ready with pending := [Instr.scrubRead 0 0] }.pending = Instr.scrubRead 0 0 :: [] ∧ ready.pending = [] := ⟨rfl, rfl⟩

theorem test_hyp_invariant : ∃ t, step State.reset = .next t := ⟨_, rfl⟩

theorem test_hyp_commands : (0 : BitVec 16) ≠ 0x5752 ∧ Room ready ∧ ready.flag .root F.HW_STAT_FTM = false := by unfold Room; decide

/-! ### The package and its figures -/

/-- The examples of R520, and R525: what the ball map counts is what the table says. -/
theorem test_ball_map : ball 76 35 = .sig (.tx 37 7 false) ∧ ball 76 36 = .sig (.tx 37 7 true) ∧ ball 34 9 = .sig (.slot 12 .gate) ∧
    ball 35 12 = .sig (.slot 12 .pg) ∧ ball 50 60 = .rail .vddCore ∧ ball 50 61 = .vss ∧ ball 30 30 = .sig (.perstL 45) := by decide

theorem test_ball_ends : (ballX 1, ballY 1) = (-45125, 45125) ∧ (Rail.all.map fun r => r.balls.1 + r.balls.2.1 + r.balls.2.2).sum = 2106 := by decide

/-- R527: every recommended range lies above its warning level; R538: the example's limit and hard short. -/
theorem test_rails : (∀ r ∈ Rail.all, r.levels.2 < r.levels.1 ∧ r.levels.1 < r.range.least) ∧ limitRange 2000 8000 = (7610, 8390) ∧
    shortRange 8000 3 = (21600, 26400) := by decide

/-- R488: IDCODE's fields. -/
theorem test_idcode : tapIdcode 3 5 = 0x3512000B ∧ TapInstr.extest.effective true = .bypass ∧ TapInstr.idcode.effective true = .idcode := by decide

end Sys2Proof.Tests
end

/-! ## Proofs about the register path (spec 01): what a read answers and clears (R9, R11, R12), and what a plain write stores (R9, R11, R551) -/

section
namespace Sys2Proof.Machine

/-! ### The register map -/

/-- Every field of a register stands at the register's own place, is 1 to 64 bits wide, and begins at a bit of its own. -/
def RegSpec.placed (r : RegSpec) : Bool :=
  (r.fields.all fun f => f.off == r.off && f.stride == r.stride && decide (1 ≤ f.w) && decide (f.w ≤ 64)) &&
    decide (r.fields.Pairwise fun f g => f.lo ≠ g.lo)

theorem regsOf_placed (c : UClass) : (regsOf c).all RegSpec.placed = true := by
  cases c <;> decide +kernel

theorem regSpec_id (c : UClass) (id : RegId) : (regSpec c id).id = id := by
  unfold regSpec
  cases h : (regsOf c).find? fun r => r.id == id with
  | none => rfl
  | some r => simpa using List.find?_some h

theorem regSpec_placed (c : UClass) (id : RegId) : (regSpec c id).placed = true := by
  unfold regSpec
  cases h : (regsOf c).find? fun r => r.id == id with
  | none => rfl
  | some r => exact List.all_eq_true.mp (regsOf_placed c) r (List.mem_of_find?_eq_some h)

/-- Fields of one register entry that begin at different bits have different places. -/
theorem placeKey_ne_of_lo (b n : Nat) (f g : Fld) (ho : f.off = g.off) (hs : f.stride = g.stride) (hf : f.w ≤ 64) (hg : g.w ≤ 64)
    (hl : f.lo ≠ g.lo) : placeKey b f n ≠ placeKey b g n := by
  simp only [placeKey, ho, hs]
  omega

theorem RegSpec.placed_width {r : RegSpec} (h : r.placed = true) {f : Fld} (hf : f ∈ r.fields) : 1 ≤ f.w ∧ f.w ≤ 64 := by
  simp only [RegSpec.placed, Bool.and_eq_true, List.all_eq_true, decide_eq_true_eq] at h
  exact ⟨(h.1 f hf).1.2, (h.1 f hf).2⟩

theorem RegSpec.placed_apart {r : RegSpec} (h : r.placed = true) (n : Nat) :
    r.fields.Pairwise fun f g => placeKey 0 f n ≠ placeKey 0 g n := by
  simp only [RegSpec.placed, Bool.and_eq_true, List.all_eq_true, decide_eq_true_eq, beq_iff_eq] at h
  obtain ⟨hfields, hlo⟩ := h
  refine hlo.imp_of_mem fun {f g} hf hg hne => ?_
  obtain ⟨⟨⟨hfo, hfs⟩, _⟩, hfw⟩ := hfields f hf
  obtain ⟨⟨⟨hgo, hgs⟩, _⟩, hgw⟩ := hfields g hg
  exact placeKey_ne_of_lo 0 n f g (hfo.trans hgo.symm) (hfs.trans hgs.symm) hfw hgw hne

/-- Storing a written value into a register of the map: each field holds what its access code and range make of its part. -/
theorem regStore_stored (u : UnitId) (id : RegId) (n v : Nat) (s : State) {f : Fld} (hf : f ∈ (regSpec (unitClass u) id).fields) :
    ((regStore u id n v).run s).fldn u f n = storedVal f (s.fldn u f n) v := by
  have hp := regSpec_placed (unitClass u) id
  obtain ⟨h1, h2⟩ := RegSpec.placed_width hp hf
  exact regStore_fld u id n v s f hf h1 h2 (RegSpec.placed_apart hp n)

theorem storedVal_rw {f : Fld} (h : f.acc = .rw) (old v : Nat) : storedVal f old v = f.bring (f.part v) % 2 ^ f.w := by
  simp [storedVal, h]

/-! ### What the wrap of a command leaves of the registers -/

@[simp] theorem State.started_regAt (s : State) (u : UnitId) (off : Nat) : s.started.regAt u off = s.regAt u off := rfl

@[simp] theorem State.out_regAt (s : State) (l : List Out) (u : UnitId) (off : Nat) :
    ({ s with out := l } : State).regAt u off = s.regAt u off := rfl

@[simp] theorem State.out_regValue (s : State) (l : List Out) (u : UnitId) (r : RegSpec) (n : Nat) :
    ({ s with out := l } : State).regValue u r n = s.regValue u r n := rfl

/-! ### Reads (R9, R11, R12, R499) -/

/-- The value a read of a register meets: what Gauge latched for the master, or the register's own. -/
def State.readValue (s : State) (m : Master) (u : UnitId) (r : RegSpec) (n : Nat) : Nat :=
  (halfOf s.dev.io.gauge m (regAddr u r.id n)).getD (s.regValue u r n)

theorem State.readValue_unlatched {s : State} {m : Master} {u : UnitId} {r : RegSpec} {n : Nat}
    (h : halfOf s.dev.io.gauge m (regAddr u r.id n) = none) : s.readValue m u r n = s.regValue u r n := by
  simp [State.readValue, h]

/-- What a read of a part of a register answers. -/
def State.readAnswer (s : State) (m : Master) (u : UnitId) (r : RegSpec) (n : Nat) : RegPart → Nat
  | .whole => s.readValue m u r n
  | .low => s.readValue m u r n % 2 ^ 32
  | .high => (halfOf s.dev.io.high m (regAddr u r.id n)).getD (s.readValue m u r n / 2 ^ 32)

/-- What a read leaves latched for Gauge's counters and accounts (R499). -/
def State.readGauge (s : State) (m : Master) (u : UnitId) (r : RegSpec) (n : Nat) : List Half :=
  (gaugeLatch r.id n).foldl (fun l j =>
    halfDrop l m (regAddr u r.id j) ++ [{ master := m, addr := regAddr u r.id j, value := s.regValue u r j }])
    (halfDrop s.dev.io.gauge m (regAddr u r.id n))

/-- What a read of a part of a register leaves in the register path: the low half latches the high one, which a read of the high half uses up. -/
def State.readIo (s : State) (m : Master) (u : UnitId) (r : RegSpec) (n : Nat) : RegPart → RegIo
  | .whole => { s.dev.io with gauge := s.readGauge m u r n }
  | .low => { s.dev.io with
      gauge := s.readGauge m u r n
      high := halfDrop s.dev.io.high m (regAddr u r.id n) ++
        [{ master := m, addr := regAddr u r.id n, value := s.readValue m u r n / 2 ^ 32 }] }
  | .high => { s.dev.io with high := halfDrop s.dev.io.high m (regAddr u r.id n) }

/-- The state in which the fields that clear when read are cleared: nothing sent yet, the latches made. -/
def State.latched (s : State) (m : Master) (u : UnitId) (r : RegSpec) (n : Nat) (part : RegPart) : State :=
  { s with
    out := []
    dev := { s.dev with io := s.readIo m u r n part } }

/-- The state after a read of a part of a register. -/
def State.afterRead (s : State) (m : Master) (u : UnitId) (r : RegSpec) (n : Nat) (part : RegPart) : State :=
  { s with
    regs := ((rcClear u r n part).run (s.latched m u r n part)).regs
    out := [.regValue m (s.readAnswer m u r n part)]
    dev := { s.dev with io := s.readIo m u r n part } }

theorem halfOf_latched (l : List Half) (m : Master) (a v : Nat) :
    halfOf (halfDrop l m a ++ [{ master := m, addr := a, value := v }]) m a = some v := by
  have hnone : ((halfDrop l m a).find? fun h => h.master == m && h.addr == a) = none := by
    simp only [halfDrop, List.find?_eq_none, List.mem_filter]
    rintro h ⟨_, hkeep⟩ hhit
    simp [hhit] at hkeep
  simp [halfOf, List.find?_append, hnone]

/-- The fields of a register that clear when read. -/
def RegSpec.rcFields (r : RegSpec) : List Fld := r.fields.filter fun f => f.acc == .rc

theorem rcClear_only (u : UnitId) (r : RegSpec) (n : Nat) (part : RegPart) :
    Prog.Only (Eff.stores u n r.rcFields) (rcClear u r n part) := by
  refine .each fun f hf => .eff ⟨f, ?_, rfl⟩
  simp only [List.mem_filter, Bool.and_eq_true] at hf
  exact List.mem_filter.mpr ⟨hf.1, hf.2.1⟩

/-- Setting any field to zero leaves a field that is zero at zero. -/
theorem setn_zero_keeps_zero (s : State) (u : UnitId) (f g : Fld) (n : Nat) (h : s.fldn u f n = 0) :
    ((Prog.setn u g n 0).run s).fldn u f n = 0 := by
  by_cases hk : fkey u f n = fkey u g n
  · simp [Prog.setn, State.fldn, Tab.getD, Eff.apply, hk]
  · rw [State.fldn_setn_other _ _ _ _ _ _ _ _ hk, h]

theorem eachZero_keeps_zero (l : List Fld) (s : State) (u : UnitId) (f : Fld) (n : Nat) (h : s.fldn u f n = 0) :
    ((Prog.each l fun g => Prog.setn u g n 0).run s).fldn u f n = 0 := by
  induction l generalizing s with
  | nil => exact h
  | cons g l ih => exact ih _ (setn_zero_keeps_zero s u f g n h)

theorem eachZero_fld (l : List Fld) (s : State) (u : UnitId) (f : Fld) (n : Nat) (hf : f ∈ l) :
    ((Prog.each l fun g => Prog.setn u g n 0).run s).fldn u f n = 0 := by
  induction l generalizing s with
  | nil => simp at hf
  | cons g l ih =>
    obtain rfl | hf := List.mem_cons.mp hf
    · exact eachZero_keeps_zero l _ u f n (by simp [Prog.setn, State.fldn, Tab.getD, Eff.apply])
    · exact ih _ hf

/-- Whether a field lies in the part of a register that is read. -/
def Fld.inPart (f : Fld) : RegPart → Prop
  | .whole => True
  | .low => f.lo < 32
  | .high => 32 ≤ f.lo

theorem rcClear_fld (s : State) (u : UnitId) (r : RegSpec) (n : Nat) (part : RegPart) (f : Fld) (hf : f ∈ r.fields)
    (hrc : f.acc = .rc) (hp : f.inPart part) : ((rcClear u r n part).run s).fldn u f n = 0 := by
  refine eachZero_fld _ s u f n (List.mem_filter.mpr ⟨hf, ?_⟩)
  cases part <;> simp_all [Fld.inPart]

/-- A read whose value goes to its master leaves the state of `afterRead`. -/
theorem regRead_send (s : State) (m : Master) (u : UnitId) (r : RegSpec) (n : Nat) (part : RegPart) :
    (regRead m u r n part fun v => Prog.send (.regValue m v)).run { s with out := [] } = s.afterRead m u r n part := by
  have hclear := stores_state (rcClear_only u r n part) (s.latched m u r n part)
  have hrun : (regRead m u r n part fun v => Prog.send (.regValue m v)).run { s with out := [] } =
      (Prog.send (.regValue m (s.readAnswer m u r n part))).run ((rcClear u r n part).run (s.latched m u r n part)) := by
    cases part <;> rfl
  rw [hrun, hclear]
  rfl

theorem afterRead_keepRegs (s : State) (m : Master) (u : UnitId) (r : RegSpec) (n : Nat) (part : RegPart) :
    Statements.KeepRegs s (s.afterRead m u r n part) (r.rcFields.map fun f => fkey u f n) := fun k hk =>
  stores_reg (rcClear_only u r n part) (s.latched m u r n part) k fun _ hf e => hk (List.mem_map.mpr ⟨_, hf, e.symm⟩)

/-- A read leaves zero in the fields of the part that clear when read (R11, R12). -/
theorem afterRead_rc (s : State) (m : Master) (u : UnitId) (r : RegSpec) (n : Nat) (part : RegPart) (f : Fld) (hf : f ∈ r.fields)
    (hrc : f.acc = .rc) (hp : f.inPart part) : (s.afterRead m u r n part).fldn u f n = 0 :=
  rcClear_fld (s.latched m u r n part) u r n part f hf hrc hp

/-- LOW_HALF_READ of a 64-bit register. -/
theorem exec_lowHalfRead {s : State} (m : Master) {u : UnitId} {off n : Nat} {r : RegSpec} (h : s.regAt u off = some (.reg r n 0))
    (hw : r.wide = true) : exec (.lowHalfRead m u off) s = .next (s.afterRead m u r n .low) := by
  rw [← regRead_send]
  simp [exec, execLowHalfRead, quiet_eq, h, hw]

/-- RC_FIELD_READ of a register with a field that clears when read. -/
theorem exec_rcFieldRead {s : State} (m : Master) {u : UnitId} {off n : Nat} {r : RegSpec} {part p : RegPart}
    (h : s.regAt u off = some (.reg r n 0)) (hp : partAt r part = some p) (hrc : (r.fields.any fun f => f.acc == .rc) = true) :
    exec (.rcFieldRead m u off part) s = .next (s.afterRead m u r n p) := by
  rw [← regRead_send]
  simp only [exec, execRcFieldRead, quiet_eq, Prog.run_look, State.out_regAt, h, hp, Prog.run_opt_some, Prog.run_when, hrc, if_true]

/-! ### Writes (R9, R11, R551) -/

/-- What a write of a register starts from, with the crossings that stand once it is on its way (R388). -/
def State.writingWith (s : State) (m : Master) (cr : Tab Crossing) : State :=
  { Statements.writing m s with
    dev := { (Statements.writing m s).dev with io := { (Statements.writing m s).dev.io with crossing := cr } } }

theorem exec_registerWrite {s : State} (m : Master) {u : UnitId} {off n : Nat} {r : RegSpec} {part p : RegPart} (v : BitVec 64)
    (h : s.regAt u off = some (.reg r n 0)) (hp : partAt r part = some p)
    (hf : ((regWrite m u r n p v.toNat).run s.started).dev.ws.fire = []) :
    exec (.registerWrite m u off part v) s = .next ((regWrite m u r n p v.toNat).run s.started) := by
  refine (act_eq _ s ?_).trans ?_
  · simpa only [Prog.run_look, State.started_regAt, h, hp, Prog.run_opt_some] using hf
  · simp only [Prog.run_look, State.started_regAt, h, hp, Prog.run_opt_some]

/-- No rule of its own governs a write of a plain register. -/
theorem regTake_plain (m : Master) (u : UnitId) {id : RegId} (n v : Nat) (h : id ∈ plainRegs) :
    regTake m u id n v = regPlain u id n v := by
  have hall : ∀ id ∈ plainRegs, regTake m u id n v = regPlain u id n v := by
    simp only [plainRegs, List.forall_mem_cons, List.not_mem_nil, false_implies, implies_true, and_true]
    repeat' apply And.intro
    all_goals rfl
  exact hall id h

/-- A legal write of a whole plain register that reaches its domain now stores the value. -/
theorem regWhole_plain {s : State} (m : Master) {u : UnitId} {id : RegId} {n v : Nat} (hid : id ∈ plainRegs)
    (hw : Statements.Writable s u id n) (hl : regLegal (regSpec (unitClass u) id) v = true) :
    ∃ cr, (regWhole m u id n v).run s.started = (regStore u id n v).run (s.writingWith m cr) := by
  obtain ⟨hu, hr, hc, hx⟩ := hw
  obtain ⟨cr, h⟩ := regWhole_now m u id n v s.started hu hr hc hx
  rw [regTake_plain m u n v hid, regPlain_legal u id n v hl] at h
  exact ⟨cr, h⟩

theorem regStore_fire (s : State) (m : Master) (cr : Tab Crossing) (u : UnitId) (id : RegId) (n v : Nat) :
    ((regStore u id n v).run (s.writingWith m cr)).dev.ws.fire = [] := by
  rw [stores_state (regStore_only u id n v)]
  rfl

/-- Storing into a register leaves every place but those of its fields. -/
theorem regStore_keepRegs (s t : State) (u : UnitId) (id : RegId) (n v : Nat) (h : t.regs = s.regs) :
    Statements.KeepRegs s ((regStore u id n v).run t) ((regSpec (unitClass u) id).fields.map fun f => fkey u f n) := fun k hk =>
  (stores_reg (regStore_only u id n v) t k fun _ hf e => hk (List.mem_map.mpr ⟨_, hf, e.symm⟩)).trans (by rw [h])

/-- The fields of the plain registers are RW, RO, RC, WO or W1C. -/
theorem plainRegs_acc (c : UClass) :
    (plainRegs.all fun id => (regSpec c id).fields.all fun f => f.acc != .rwl && f.acc != .w1s) = true := by
  cases c <;> decide +kernel

theorem storedVal_plain (c : UClass) {id : RegId} (hid : id ∈ plainRegs) {f : Fld} (hf : f ∈ (regSpec c id).fields) (old v : Nat) :
    storedVal f old v = match f.acc with
      | .rw => f.bring (f.part v) % 2 ^ f.w
      | .w1c => (old ^^^ (old &&& f.part v)) % 2 ^ f.w
      | _ => old := by
  have hacc := List.all_eq_true.mp (List.all_eq_true.mp (plainRegs_acc c) id hid) f hf
  unfold storedVal
  cases h : f.acc <;> simp_all

section
variable {s : State} (m : Master) {u : UnitId} {off n : Nat} {id : RegId} (v : BitVec 64) (hid : id ∈ plainRegs)
  (hat : s.regAt u off = some (.reg (regSpec (unitClass u) id) n 0)) (hw : Statements.Writable s u id n)
include hid hat hw

/-- A write that comes to a legal write of a whole plain register stores that value. -/
theorem exec_registerWrite_stores {part p : RegPart} {x : Nat} (hp : partAt (regSpec (unitClass u) id) part = some p)
    (hx : (regWrite m u (regSpec (unitClass u) id) n p v.toNat).run s.started = (regWhole m u id n x).run s.started)
    (hl : regLegal (regSpec (unitClass u) id) x = true) :
    ∃ cr, exec (.registerWrite m u off part v) s = .next ((regStore u id n x).run (s.writingWith m cr)) := by
  obtain ⟨cr, hrun⟩ := regWhole_plain m hid hw hl
  rw [hrun] at hx
  refine ⟨cr, ?_⟩
  rw [← hx]
  exact exec_registerWrite m v hat hp (by rw [hx]; exact regStore_fire s m cr u id n x)

theorem exec_registerWrite_whole (hl : regLegal (regSpec (unitClass u) id) v.toNat = true) :
    ∃ cr, exec (.registerWrite m u off .whole v) s = .next ((regStore u id n v.toNat).run (s.writingWith m cr)) :=
  exec_registerWrite_stores m v hid hat hw (p := .whole) rfl (by simp only [regWrite, regSpec_id]) hl

/-- A high half takes effect with the low half that its master holds (R9). -/
theorem exec_registerWrite_high {low : Nat} (hwide : (regSpec (unitClass u) id).wide = true)
    (hlow : halfOf s.dev.io.low m (regAddr u id n) = some low)
    (hl : regLegal (regSpec (unitClass u) id) (low + v.toNat % 2 ^ 32 * 2 ^ 32) = true) :
    ∃ cr, exec (.registerWrite m u off .high v) s =
      .next ((regStore u id n (low + v.toNat % 2 ^ 32 * 2 ^ 32)).run (s.writingWith m cr)) := by
  have hheld : halfOf s.started.dev.io.low m (regAddr u id n) = some low := hlow
  exact exec_registerWrite_stores m v hid hat hw (p := .high) (by simp [partAt, hwide])
    (by simp only [regWrite, regSpec_id, Prog.run_look, hheld, Option.getD_some]) hl

end

/-! ### DEV_MOV_CTL -/

@[simp] theorem Tab.get?_mapAll {α : Type} (t : Tab α) (f : Nat → α → α) (i : Nat) :
    Tab.get? (Tab.mapAll t f) i = (Tab.get? t i).map (f i) := by
  induction t with
  | nil => rfl
  | cons e t ih =>
    obtain ⟨k, w⟩ := e
    change (if i = k then some (f k w) else Tab.get? (Tab.mapAll t f) i) = (if i = k then some w else Tab.get? t i).map (f i)
    split
    · next h => simp [h]
    · exact ih

theorem State.regHere_root (s : State) (id : RegId) : s.regHere .root id = true := by
  cases id <;> rfl

theorem regAt_DEV_MOV_CTL (s : State) :
    s.regAt .root (regSpec .root .DEV_MOV_CTL).off = some (.reg (regSpec .root .DEV_MOV_CTL) 0 0) := by
  have hplace : ((regsOf .root).findSome? fun r => (r.hit (regSpec .root .DEV_MOV_CTL).off).bind fun h =>
      some (RegPlace.reg r h.1 h.2)) = some (.reg (regSpec .root .DEV_MOV_CTL) 0 0) := by decide +kernel
  have hoff : (regSpec .root .DEV_MOV_CTL).off = 0x4100 := by decide +kernel
  simpa [State.regAt, State.unitExists, unitClass, State.regHere_root, hoff] using hplace

/-- A slot as HOLD_LINES judges it: out of READY, back to COPY, where it has more marked lines. -/
def State.judged (s : State) (k : Nat) (w : MovSlot) : MovSlot :=
  if w.state = .ready ∧ s.fld .root F.DEV_MOV_CTL_HOLD_LINES < maskCount (s.marksOf k) then { w with state := .copy, word := 0, todo := 0 }
  else w

theorem get?_movUnready (s : State) (k : Nat) :
    Tab.get? (movUnready.run s).dev.mov.slots k = (Tab.get? s.dev.mov.slots k).map (s.judged k) :=
  Tab.get?_mapAll s.dev.mov.slots s.judged k

/-- A legal write of DEV_MOV_CTL is stored, and then the slots in READY are judged by the new HOLD_LINES (R85, log entry 123). -/
theorem regWhole_DEV_MOV_CTL (s : State) (m : Master) {v : Nat} (hl : regLegal (regSpec .root .DEV_MOV_CTL) v = true) :
    (regWhole m .root .DEV_MOV_CTL 0 v).run s.started =
      movUnready.run ((regStore .root .DEV_MOV_CTL 0 v).run (Statements.writing m s)) := by
  rw [regWhole_core m .root .DEV_MOV_CTL 0 v s.started rfl (State.regHere_root _ _) rfl]
  change movUnready.run ((regPlain .root .DEV_MOV_CTL 0 v).run (Statements.writing m s)) = _
  rw [regPlain_legal .root .DEV_MOV_CTL 0 v hl]

theorem exec_write_DEV_MOV_CTL (s : State) (m : Master) (v : BitVec 64) (hl : regLegal (regSpec .root .DEV_MOV_CTL) v.toNat = true) :
    exec (.registerWrite m .root (regSpec .root .DEV_MOV_CTL).off .whole v) s =
      .next (movUnready.run ((regStore .root .DEV_MOV_CTL 0 v.toNat).run (Statements.writing m s))) := by
  have hrun : (regWrite m .root (regSpec .root .DEV_MOV_CTL) 0 .whole v.toNat).run s.started =
      movUnready.run ((regStore .root .DEV_MOV_CTL 0 v.toNat).run (Statements.writing m s)) := regWhole_DEV_MOV_CTL s m hl
  rw [← hrun]
  refine exec_registerWrite m v (regAt_DEV_MOV_CTL s) rfl ?_
  rw [hrun, stores_state (regStore_only .root .DEV_MOV_CTL 0 v.toNat)]
  rfl

end Sys2Proof.Machine

namespace Sys2Proof.Statements
open Sys2Proof Sys2Proof.Machine

/-- Settles O5: a read of any part leaves `afterRead`, in which the fields of the part that clear when read are zero. -/
theorem registerReads : Obligations.RegisterReads := by
  unfold Obligations.RegisterReads
  refine ⟨fun s m u off n r hat hw hg => ⟨_, exec_lowHalfRead m hat hw, ?_, ?_, afterRead_keepRegs s m u r n .low, rfl⟩,
    fun s m u off n r hat hrc _ hg => ⟨_, exec_rcFieldRead m hat rfl hrc, ?_, ?_, afterRead_keepRegs s m u r n .whole, rfl⟩,
    fun s m u off n r part hat hrc _ hpart => ?_⟩
  · exact congrArg (fun v => [Out.regValue m (v % 2 ^ 32)]) (State.readValue_unlatched hg)
  · exact (halfOf_latched _ _ _ _).trans (congrArg (fun v => some (v / 2 ^ 32)) (State.readValue_unlatched hg))
  · exact congrArg (fun v => [Out.regValue m v]) (State.readValue_unlatched hg)
  · exact fun f hf hacc => afterRead_rc s m u r n .whole f hf hacc trivial
  · obtain ⟨p, hp, hin⟩ : ∃ p, partAt r part = some p ∧ ∀ f : Fld, (f.lo < 32 ↔ part = .low) → f.inPart p := by
      obtain rfl | ⟨rfl, hw⟩ := hpart
      · cases hw : r.wide with
        | false => exact ⟨.whole, by simp [partAt, hw], fun _ _ => trivial⟩
        | true => exact ⟨.low, by simp [partAt, hw], fun _ h => h.mpr rfl⟩
      · exact ⟨.high, by simp [partAt, hw], fun f h => by simpa [Fld.inPart] using h⟩
    exact ⟨_, exec_rcFieldRead m hat hp hrc, fun f hf hacc hlo => afterRead_rc s m u r n p f hf hacc (hin f hlo),
      afterRead_keepRegs s m u r n p, rfl⟩

/-- Settles O4: a write that reaches its domain is a `regStore` of the whole value, which the laws of stored fields describe. -/
theorem registerWrite : Obligations.RegisterWrite := by
  unfold Obligations.RegisterWrite
  refine ⟨fun s m u off n id v hid hat hw => ⟨fun hl => ?_, fun hwide => ?_, fun low hwide hlow hl => ?_⟩, fun s m v _ hl => ?_⟩
  · obtain ⟨cr, hexec⟩ := exec_registerWrite_whole m v hid hat hw hl
    refine ⟨_, hexec, fun f hf => ?_, regStore_keepRegs s _ u id n _ rfl, ?_⟩
    · rw [regStore_stored u id n _ _ hf, storedVal_plain _ hid hf]
      rfl
    · rw [stores_state (regStore_only u id n v.toNat)]
      rfl
  · refine ⟨_, exec_registerWrite m v hat (p := .low) (by simp [partAt, hwide]) rfl, ?_⟩
    simp only [regWrite, regSpec_id]
    rfl
  · obtain ⟨cr, hexec⟩ := exec_registerWrite_high m v hid hat hw hwide hlow hl
    exact ⟨_, hexec, fun f hf hacc => by rw [regStore_stored u id n _ _ hf, storedVal_rw hacc]⟩
  · have hstate := stores_state (regStore_only .root .DEV_MOV_CTL 0 v.toNat) (writing m s)
    refine ⟨_, exec_write_DEV_MOV_CTL s m v hl, fun f hf hacc => ?_, fun k w hk => ?_,
      regStore_keepRegs s (writing m s) .root .DEV_MOV_CTL 0 v.toNat rfl, ?_⟩
    · exact (regStore_stored .root .DEV_MOV_CTL 0 v.toNat (writing m s) hf).trans (storedVal_rw hacc _ _)
    · have hslots : Tab.get? ((regStore .root .DEV_MOV_CTL 0 v.toNat).run (writing m s)).dev.mov.slots k = some w := by rw [hstate]; exact hk
      have hmarks : ((regStore .root .DEV_MOV_CTL 0 v.toNat).run (writing m s)).marksOf k = s.marksOf k := by rw [hstate]; rfl
      rw [get?_movUnready, hslots, Option.map_some, State.judged, hmarks]
      rfl
    · rw [hstate]
      rfl

end Sys2Proof.Statements
end

/-! ## Proofs about address translation (spec 02): states in which an access, a fill of the extent cache and the end of an epoch advance leave something other
than O25, O26 and O27 claim -/

section
namespace Sys2Proof.Statements
open Sys2Proof Sys2Proof.Machine

/-! ### A command at a concrete state -/

/-- The state that a command leaves; the state itself where it leaves none. -/
def after (c : Instr) (s : State) : State :=
  match exec c s with
  | .next t => t
  | _ => s

/-- What a command is said to complete with holds of the state that it leaves. -/
theorem Completes.after {c : Instr} {s : State} {P : State → Prop} (h : Completes c s P) : P (after c s) := by
  obtain ⟨t, ht, hP⟩ := h
  simpa only [Statements.after, ht] using hP

/-- A range that begins with a number that passes has it as its first. -/
theorem find?_range_of_zero {n : Nat} {p : Nat → Bool} (hn : 0 < n) (h : p 0 = true) : (List.range n).find? p = some 0 := by
  obtain ⟨m, rfl⟩ := Nat.exists_eq_add_of_lt hn
  rw [Nat.zero_add, List.range_succ_eq_map, List.find?_cons_of_pos h]

/-- The state after power-up with some register fields (a unit, its field, the value) holding values of their own. -/
def withFields (l : List (UnitId × Fld × Nat)) : State :=
  { State.reset with regs := l.foldl (fun r e => Tab.put r (fkey e.1 e.2.1 0) e.2.2) [] }

/-- A map entry whose target is extent 3 of module 2, the module at port 0 of group 1. -/
def onModule : MapEntry := { type := .mapped, home := 0, tgtA := some (.module 2 3), tgtB := none, trk := 0 }

/-- The host port of the access and of the request that waits: port 0 of group 0. -/
def host0 : PortId := ⟨0, 0⟩

/-! ### O25: a read of a line that an atomic operation holds

O25 says that a read with its entry at hand is sent to its module; it does not say that the line is free. A request for a busy line joins the line's queue
(R182), so while an atomic operation holds the line (R196) nothing is sent. -/

/-- Line 0 lies in an extent whose entry is in the extent cache, on a module that is up, and in no cache; an atomic operation has it busy and reads it. Host
port 0 has a window on it, which the Levee lets it read, and there is no directory. -/
def busyPool : State :=
  let s := withFields [
    (.group 0, F.GRP_STAT_CUR_MODE, 1), (.port host0, F.PRT_HSTAT_MEM_EN, 1), (.port host0, F.PRT_WIN_CTL_EN, 1),
    (.group 1, F.GRP_STAT_CUR_MODE, 2), (.port ⟨1, 0⟩, F.PRT_MSTAT_STATE, 3), (.port ⟨1, 0⟩, F.PRT_MSTAT_CAP_X, 64),
    (.root, F.LEV_RULE_LIMIT_LIMIT_PG, 2 ^ 40 - 1), (.root, F.LEV_RULE_CTL_R, 1), (.root, F.LEV_RULE_CTL_ACTION, 1), (.root, F.LEV_RULE_CTL_EN, 1),
    (.root, F.DEV_RSV_PART_DIR_GIB, 0)]
  { s with dev := { s.dev with
    xlat := { s.dev.xlat with map := [(0, onModule)], cached := [(xcSet 0, [0])] }
    rsv := { s.dev.rsv with hint := [(hintSet 0, [0])] }
    coh := { s.dev.coh with
      busy := [(0, Busy.of (.atomic 0) [])]
      atoms := [(0, { op := .fadd64 1, gpa := 0, origin := .mill 0 0, epoch := 0, tgt := some (.module 2 3), step := .reading })] } } }

theorem busyPool_serves : Serves busyPool host0 := by unfold Serves; decide +kernel

theorem busyPool_cachedEntry : CachedEntry busyPool 0 onModule :=
  ⟨by decide +kernel, by nofun, by decide +kernel, by decide +kernel, by decide +kernel, by decide +kernel⟩

theorem busyPool_knownMiss : KnownMiss busyPool 0 := by unfold KnownMiss; decide +kernel

theorem busyPool_tracked : Tracked busyPool host0.x (mportOf 2) 0 0 :=
  ⟨find?_range_of_zero (by decide) (by decide +kernel), find?_range_of_zero (by decide) (by decide +kernel), by decide +kernel, by decide +kernel⟩

/-- The read has joined the line's queue. -/
theorem busyPool_sendsNothing : (after (.cxlmemRequest host0 .memRd .i 0 0 0 0 []) busyPool).out = [] := by decide +kernel

/-- Refutes O25: in `busyPool` every premise of the read that goes to its module holds, and the read waits for the atomic operation that holds its line. -/
theorem not_poolAccesses : ¬ Obligations.PoolAccesses := by
  unfold Obligations.PoolAccesses
  rintro ⟨hrequest, -⟩
  obtain ⟨-, -, hhit⟩ := hrequest busyPool host0 .memRd .i 0 0 0 0 busyPool_serves
  obtain ⟨-, hathand, -⟩ := hhit 0 0 (by decide) (by decide +kernel) (by decide +kernel) (by decide +kernel) (by rintro p ⟨⟩; decide +kernel)
  obtain ⟨-, hsent⟩ := hathand 2 3 0 0 onModule rfl rfl (by decide +kernel) rfl busyPool_cachedEntry (by decide +kernel) busyPool_knownMiss
    (by decide +kernel) (by decide +kernel)
  obtain ⟨hout, -⟩ := (hsent (by decide +kernel) busyPool_tracked).after
  rw [busyPool_sendsNothing] at hout
  exact absurd hout (List.cons_ne_nil _ _).symm

/-! ### O26: a fill that lets a held request look up again

O26 says that an uncorrectable fill of an extent with a sealed entry takes no extent under R62; it does not say that the ingress holds no request for a miss
entry. The fill frees one (R59), the request held looks up its own extent and probes that extent's poison list, and where both copies of a bucket are
uncorrectable it is that extent that is taken under R62 (R162). -/

/-- What turns two bits of a burst over, more than it corrects. -/
def struckBurst : Burst := 0x10001

theorem struckBurst_uncorrectable : burstVerdict struckBurst = .uncorrectable := by decide +kernel

/-- The line of the Reservoir that holds a copy of the first bucket of extent 1's probe window. -/
def bucketLine (copyA : Bool) : Nat :=
  let o := psnByte copyA (psnBucket 1)
  lineKey (regionPc o) ((o / 32768 * 256 + o % 256) / 64)

/-- Extents 0 and 1 have sealed entries of the advance that runs. All 256 miss entries are in use, extent 0's among them, and the ingress holds a read of
extent 1. Extent 1 has a poisoned line, and both copies of its bucket are struck. -/
def heldFill : State :=
  { State.reset with dev := { Dev.cold with
    xlat := { Dev.cold.xlat with
      map := [(1, onModule)]
      misses := (0 :: List.range' 2 255).map fun x => (x, { entry := MapEntry.unmapped, waiters := [] })
      heldMiss := [{ origin := .host host0 0, op := .memRd, mv := .i, gpa := 2 ^ 21, data := 0, mask := 0, wtype := .priv, cmode := 0, epoch := 0,
                     tgt := none, host := none, inst := none }]
      adv := some { sealed := [(0, onModule), (1, onModule)], written := false, flip := false, since := 0, warned := false, units := [], slots := [] } }
    rsv := { Dev.cold.rsv with
      poison := [(psnBucket 1 * 4, { x := 1, line := 0, all := false, reason := 1, time := 0 })]
      struck := Tab.put [(bucketLine true, struckBurst)] (bucketLine false) struckBurst } } }

/-- The held read has taken extent 1 under R62. -/
theorem heldFill_bad : (after (.extentCacheFill 0 struckBurst) heldFill).dev.xlat.bad = [1] := by decide +kernel

/-- Refutes O26: the uncorrectable fill of extent 0, which has a sealed entry, leaves in `heldFill` an extent taken under R62 that was not. -/
theorem not_windowsAndExtentCache : ¬ Obligations.WindowsAndExtentCache := by
  unfold Obligations.WindowsAndExtentCache
  rintro ⟨-, hfill, -⟩
  obtain ⟨-, hsealed, -⟩ := hfill heldFill 0 _ rfl
  obtain ⟨hbad, -⟩ := (hsealed _ struckBurst rfl (by decide +kernel) struckBurst_uncorrectable).after
  rw [heldFill_bad] at hbad
  exact absurd hbad (by decide +kernel)

/-! ### O27: an entry of EV045 that is overwritten as it is made

O27 says that the history queue holds EV045 of an advance that ends where the queue has room for two entries more. The end of an advance logs more than two:
a counter of EV045 may wrap and log EV196 (R498), EV055 follows where the mover's last slot goes, and every entry that overwrites one of an open fault logs
EV173, which may overwrite in turn (R433). -/

/-- The history queue holds 30 entries, all of one open fault of 30 causes. The root's counter 0 counts every event and stands before its wrap. The advance
that runs has its entries written and ends the mover's only slot. -/
def fullHistory : State :=
  let s := withFields [
    (.root, F.GAU_EVSEL_EN, 1), (.root, F.GAU_EVSEL_CODE, 0x40), (.root, F.GAU_EVSEL_EVNUM, 511), (.root, F.GAU_CNT_COUNT, 2 ^ 48 - 1),
    (.root, F.DEV_WS_HEAD_NEXT_SEQ, 30), (.root, F.DEV_EPOCH_CUR, 1)]
  { s with
    hist := (List.range 30).map fun n => {
      time := 0, path := pathCode .root, event := 44, level := 1, cls := 0, esc := n != 0, inj := false, ack := false, queued := false, safe := false,
      fenced := false, seq := n, supp := 0, arg := n }
    dev := { s.dev with
      ws := { s.dev.ws with faults := [(pathCode .root, [{
        cls := 0, level := 1, list := (List.range 30).map fun n => { seq := some n, unit := pathCode .root, level := 1 } }])] }
      xlat := { s.dev.xlat with adv := some { sealed := [], written := true, flip := false, since := 0, warned := false, units := [], slots := [0] } }
      mov := { s.dev.mov with slots := [(0, {
        x := 0, state := .wait, passes := 0, tries := 0, firstDone := false, word := 512, todo := 0, writing := 0, hotLogged := false, stopped := true })] } } }

theorem fullHistory_room : Room fullHistory := by unfold Room; decide +kernel

/-- EV045 and EV196 fill the queue; EV055 and the entries of EV173 that it sets off overwrite every other entry, and EV045 with them. -/
theorem fullHistory_loses : (after .epochAdvanceComplete fullHistory).hist.all (fun e => e.event != 45) = true := by decide +kernel

/-- Refutes O27: the advance that `fullHistory` runs ends with room for two entries, and no entry of EV045 is in the history queue. -/
theorem not_mapEpochs : ¬ Obligations.MapEpochs := by
  unfold Obligations.MapEpochs
  rintro ⟨-, -, hrun, -⟩
  obtain ⟨-, hends, -⟩ := hrun fullHistory _ rfl
  obtain ⟨-, -, -, -, -, -, hlogs, -⟩ := (hends rfl (by decide +kernel) rfl).after
  obtain ⟨e, he, hev, -⟩ := hlogs fullHistory_room
  have hne : e.event ≠ 45 := by simpa using List.all_eq_true.1 fullHistory_loses e he
  exact hne hev

end Sys2Proof.Statements
end

/-! ## Proofs about the Reservoir (spec 05): states in which RSV_SET_CLEAR, the end of a set read and a partial write leave something other than O34, O35 and
O36 claim -/

section
namespace Sys2Proof.Statements
open Sys2Proof Sys2Proof.Machine

/-! ### O34: a LOST way that is freed under a read of Meander's

O34 says that RSV_SET_CLEAR changes the suspect sets and the LOST ways of the Reservoir alone. The way that it frees is written as invalid (R161), and a write
of a line overtakes a read of Meander's that is outstanding, so that Meander does not write the line back (R164). -/

/-- Meander's read of way 0 of set 0 that is outstanding: nothing has written the line since. -/
def lostWayRead (s : State) : ScrubRead := { line := s.setOffset 0 / 64, overtaken := false, image := none }

/-- Headwater is ready and idle. Set 0 is suspect, way 0 of it is LOST, and Meander's read of that way is outstanding. -/
def lostWayScrubbed : State :=
  let s := withFields [(.root, F.HW_STAT_READY, 1)]
  { s with dev := { s.dev with rsv := { s.dev.rsv with
    ways := [(wayKey 0 0, { la := 2 ^ 44 - 1, dirty := false, pin := false, pu := false, lost := true, data := 0 })]
    suspect := [0]
    scrub := [(pcKey 0 0, [lostWayRead s])] } } }

/-- An RSV_SET_CLEAR of the device over MCTP. -/
def setClearHdr : Hdr := { path := .mctp, opcode := 0x0204, seq := 0, ctx := 0, quiet := false, target := BitVec.ofNat 32 (pathCode .root), buf := 0, blen := 0 }

theorem lostWayScrubbed_runs : RunsOnDevice lostWayScrubbed setClearHdr 0x0204 := by
  unfold RunsOnDevice RunsNow; decide +kernel

/-- Freeing the LOST way has overtaken the read of it. -/
theorem lostWayScrubbed_overtaken : (after (.rsvSetClear setClearHdr none) lostWayScrubbed).dev.rsv.scrub =
    [(pcKey 0 0, [{ lostWayRead lostWayScrubbed with overtaken := true }])] := by decide +kernel

/-- Refutes O34: the end of all suspicion in `lostWayScrubbed` changes a read of Meander's, where the statement keeps those as they are. -/
theorem not_reservoirCommands : ¬ Obligations.ReservoirCommands := by
  unfold Obligations.ReservoirCommands
  rintro ⟨-, -, -, -, hclear, -⟩
  obtain ⟨hall, -⟩ := hclear lostWayScrubbed setClearHdr lostWayScrubbed_runs
  obtain ⟨-, -, -, hkept⟩ := hall.after
  have hscrub := congrArg (fun t : State => t.dev.rsv.scrub) hkept
  rw [lostWayScrubbed_overtaken] at hscrub
  exact absurd hscrub (by decide +kernel)

/-! ### O35, O36: an answer to the switch ID that the device has since taken

O35 and O36 let an answer to another switch leave the device where that switch's ID is the device's own, or where its effective set has members. The manager may
write DEV_FAB_ID.SWID while no fabric link is active (R245), so the device can hold a request of a switch whose ID it has since taken. The answer is routed by
the effective set of that ID all the same (R249). Where the set is empty the answer is discarded and EV100 is logged at the root (R251, log entry 147), so the
history queue and its sequence number in DEV_WS_HEAD change, which the statements keep. -/

/-- A request that came by group 0 from the switch whose ID is now the device's own. -/
def ownIdOrigin : Origin := .switch 0 (groupX 0) (0, 0)

/-- The first line of pool memory as a way of the cache region holds it, in a pinned unit or not. -/
def firstLineWay (pinned : Bool) : Way := { la := 0, dirty := pinned, pin := false, pu := pinned, lost := false, data := 5 }

/-- A read of the first line of pool memory in its place in pinned unit 0, way 0 of set 0, for `ownIdOrigin`. -/
def ownIdRead : SetRead :=
  { acc := { origin := ownIdOrigin, op := .memRd, mv := .i, gpa := 0, data := 0, mask := 0, wtype := .priv, cmode := 0, epoch := 0, tgt := some (.pinned 0)
             host := none, inst := none }
    scope := .place 0 0, issued := false, arrived := none, stale := false, behind := [] }

/-- The device after power-up, which is switch 0 with no group in mode F, so that the effective set of switch 0 is empty; but extent 0 is on pinned unit 0,
and the read of its first line is outstanding. -/
def ownIdReading : State :=
  { State.reset with dev := { Dev.cold with
    xlat := { Dev.cold.xlat with map := [(0, { onModule with tgtA := some (.pinned 0) })] }
    rsv := { Dev.cold.rsv with ways := [(wayKey 0 0, firstLineWay true)], reads := [(0, ownIdRead)] } } }

theorem ownIdReading_leaves : Leaves ownIdReading ownIdOrigin :=
  ⟨by nofun, by nofun, by decide +kernel, .inl (by decide +kernel), by unfold Unheld; decide +kernel⟩

/-- The answer to the read is discarded with EV100. -/
theorem ownIdReading_logs : (after (.cacheSetReadReturn 0 [] false) ownIdReading).hist.map (·.event) = [100] := by decide +kernel

/-- Refutes O35: the read of a way in `ownIdReading` logs an event, where the statement keeps the history queue. -/
theorem not_cacheSetReads : ¬ Obligations.CacheSetReads := by
  unfold Obligations.CacheSetReads
  intro h
  obtain ⟨hplace, -⟩ := h ownIdReading 0 ownIdRead rfl rfl (List.forall_mem_nil _) rfl
  have hends := (hplace 0 0 (firstLineWay true) rfl rfl ownIdReading_leaves (by decide +kernel)).after
  have hlogs := ownIdReading_logs
  rw [hends] at hlogs
  exact absurd hlogs (by decide +kernel)

/-- The device of `ownIdReading`, but extent 0 is on a module, no read is outstanding, and a merge buffer holds one byte for the first line, which way 0 of its
set holds. -/
def ownIdMerging : State :=
  { State.reset with dev := { Dev.cold with
    xlat := { Dev.cold.xlat with map := [(0, onModule)] }
    rsv := { Dev.cold.rsv with
      ways := [(wayKey 0 0, firstLineWay false)]
      merge := [(0, {
        stack := 0, ord := 0, data := 0, mask := 1, fromTarget := false, ready := false, writing := false, pin := false, reads := [], late := [] })] } } }

theorem ownIdMerging_leaves : Leaves ownIdMerging ownIdOrigin := ownIdReading_leaves

theorem ownIdMerging_heldAt : HeldAt ownIdMerging 0 0 (firstLineWay false) :=
  ⟨by intro ps v h; exact absurd h (by nofun), by decide +kernel, by decide +kernel⟩

/-- EV100 takes the next sequence number of the history queue. -/
theorem ownIdMerging_counts : (after (.partialWriteMerge ownIdOrigin 0 0 2 0) ownIdMerging).regs ≠ ownIdMerging.regs := by decide +kernel

/-- Refutes O36: a partial write that merges its byte into the buffer of `ownIdMerging` changes a register field, where the statement keeps them all. -/
theorem not_mergingAndScrubbing : ¬ Obligations.MergingAndScrubbing := by
  unfold Obligations.MergingAndScrubbing
  rintro ⟨⟨hwrite, -⟩, -⟩
  obtain ⟨-, hmerges, -⟩ := hwrite ownIdMerging ownIdOrigin 0 0 2 0 0 (firstLineWay false) _ rfl ownIdMerging_leaves (by decide +kernel) (by decide +kernel)
    ownIdMerging_heldAt
  obtain ⟨-, -, hregs, -⟩ := (hmerges _ rfl rfl rfl).after
  exact ownIdMerging_counts hregs

end Sys2Proof.Statements
end

/-! ## Proofs about coherence and atomics (spec 06): states in which the answer that ends a recall, the retirement of a lost host and an atomic operation leave
something other than O37, O38 and O39 claim -/

section
namespace Sys2Proof.Statements
open Sys2Proof Sys2Proof.Machine

/-! ### O37: a freed directory entry that the next line of its set takes

O37 says that the answer that ends a recall leaves the recalled entry free. It does not say that the line's owner is not treated as lost. Where it is, the line is
poisoned with EV085 (R191), and with a fault of its class open already at the owner's port that one escalates to level L2 (R429) and contains the port (R424). The
containment ends every other snoop to that host (R287), so another line's transaction ends too, and may take the entry just freed (R181). -/

/-- A line of the directory set of line 0. -/
def sharedLine : Nat := 2 ^ 25

/-- Host 1, at port 0 of group 1, reads `sharedLine` for ownership. -/
def sharedRead : Acc :=
  { origin := .host ⟨1, 0⟩ 0, op := .memRd, mv := .a, gpa := sharedLine * 64, data := 0, mask := 0, wtype := .sharedHw, cmode := 0, epoch := 0
    tgt := some (.module 2 3), host := some 1, inst := none }

/-- A BISnpInv to host 0 that is outstanding. -/
def lostSnoop : Snoop := { host := 0, inv := true, sent := some 0 }

/-- A line whose transaction waits for `lostSnoop`. -/
def awaitsLost (cur : BusyFor) : Busy := { cur, served := true, snoops := [lostSnoop], queue := [], room := none }

/-- Host 0 owns line 0. -/
def lostOwned : DirEntry := { shv := hostBit 0, la := 0, excl := true, owner := 0, age := 0 }

/-- Host 0, at `host0`, has been retired with two snoops to it outstanding: the recall of line 0, which it owns, and the one for `sharedRead`, of whose line it
alone has a copy. A fault of class HOST is open at its port. The state satisfies the device's invariant. -/
def retiredOwner : { s : State // s.Inv } :=
  let s := withFields [(.group 0, F.GRP_STAT_CUR_MODE, 1), (.group 1, F.GRP_STAT_CUR_MODE, 1), (.root, F.DEV_COH_HOST_V, 1), (.root, F.DEV_COH_LOST_LOST, 1)]
  ⟨{ s with dev := { s.dev with
      ws := { s.dev.ws with faults := [(pathCode (.port host0), [{
        cls := 3, level := 1, list := [{ seq := none, unit := pathCode (.port host0), level := 1 }] }])] }
      coh := { s.dev.coh with
        dir := [(0, lostOwned), (1, { shv := hostBit 0, la := sharedLine, excl := false, owner := 0, age := 1 })]
        cached := [0]
        retiring := [0]
        busy := [(0, awaitsLost .recall), (sharedLine, awaitsLost (.access sharedRead))] } } },
    by decide +kernel, rfl, Nat.zero_le _, Nat.zero_le _, Nat.zero_le _⟩

/-- The entry of line 0 has been freed, and holds host 1's line. -/
theorem retiredOwner_reused : Tab.get? (after (.birsp 0 0 .i) retiredOwner.val).dev.coh.dir 0 =
    some { shv := hostBit 1, la := sharedLine, excl := true, owner := 1, age := 0 } := by decide +kernel

/-- Refutes O37: in `retiredOwner` the answer that ends the recall of line 0 leaves another line in its entry. -/
theorem not_directoryTransactions : ¬ Obligations.DirectoryTransactions := by
  unfold Obligations.DirectoryTransactions
  rintro ⟨-, -, -, hanswer⟩
  obtain ⟨-, hrecall⟩ := hanswer retiredOwner.val 0 0 .i
  have hsnooped : Snooped retiredOwner.val 0 0 (awaitsLost .recall) lostSnoop := by unfold Snooped; decide
  have hfound : retiredOwner.val.dirFind 0 = some (0, lostOwned) := by decide
  obtain ⟨hfree, -, -⟩ := (hrecall _ _ 0 lostOwned hsnooped (.inr (by decide)) rfl rfl rfl rfl rfl hfound).after
  exact absurd (retiredOwner_reused.symm.trans hfree) (by nofun)

/-! ### O38: a register field that holds more than its width

O38 says that retiring a host that is treated as lost already leaves DEV_COH_LOST as it is. The device sets the host's bit all the same (R177), and storing a field
brings its value to the field's width. So the field stays only where it held no more than its width, which every state the device reaches satisfies
(`State.Inv`) and the statement does not ask for. -/

/-- Host 0 is valid and treated as lost; DEV_COH_LOST, 64 bits wide, holds a 65th bit. -/
def overfullLost : State := withFields [(.root, F.DEV_COH_HOST_V, 1), (.root, F.DEV_COH_LOST_LOST, 2 ^ 64 + 1)]

/-- Refutes O38: retiring the lost host of `overfullLost` changes DEV_COH_LOST. -/
theorem not_lostHosts : ¬ Obligations.LostHosts := by
  unfold Obligations.LostHosts
  rintro ⟨-, -, -, -, -, hretire, -⟩
  have hwritable : Writable overfullLost .root .DEV_COH_HOST 0 := by unfold Writable; decide
  have hheld : overfullLost.fld .root F.DEV_COH_LOST_LOST = 2 ^ 64 + 1 := by decide
  have htrimmed : (after (.hostRetire .headwater 0 0) overfullLost).fld .root F.DEV_COH_LOST_LOST = 1 := by decide
  obtain ⟨-, -, -, hagain⟩ := hretire overfullLost .headwater 0 0 hwritable
  obtain ⟨-, hkept, -⟩ := (hagain (by decide) (by decide) (by rw [hheld]; decide) List.not_mem_nil).after
  rw [htrimmed, hheld] at hkept
  exact absurd hkept (by decide)

/-! ### O39: a lookup that corrects an error in the extent cache

O39 says that an atomic operation on an UNMAPPED extent changes nothing but what noting an event does. It does not say that the extent's line in the extent cache
is free of errors. The operation looks its extent up there, and a single-bit error that the lookup meets is corrected and logged as EV047 (R61). -/

/-- Noting events leaves address translation as it is. -/
theorem Notes.xlat {u : UnitId} {r t : State} (h : Notes u r t) : t.dev.xlat = r.dev.xlat := by
  obtain ⟨-, _, _, _, hkept⟩ := h
  rw [hkept]

/-- Extent 0 is UNMAPPED, and its line in the extent cache has a single-bit error. The state satisfies the device's invariant. -/
def flippedExtent : { s : State // s.Inv } :=
  ⟨{ State.reset with dev := { Dev.cold with xlat := { Dev.cold.xlat with cached := [(xcSet 0, [0])], hurt := [(0, .corrected)] } } },
    rfl, rfl, Nat.zero_le _, Nat.zero_le _, Nat.zero_le _⟩

/-- The lookup has corrected the error. -/
theorem flippedExtent_corrected : (after (.atomicOp (.mill 0 0) (.fadd64 1) 0) flippedExtent.val).dev.xlat.hurt = [] := by decide +kernel

/-- Refutes O39: the operation on extent 0 that `flippedExtent` answers with code 3 corrects that error. -/
theorem not_atomicOperations : ¬ Obligations.AtomicOperations := by
  unfold Obligations.AtomicOperations
  rintro ⟨hstart, -⟩
  have hunheld : Unheld flippedExtent.val := by unfold Unheld; decide
  obtain ⟨hfails, -⟩ := hstart flippedExtent.val (.mill 0 0) (.fadd64 1) 0 3 (by decide)
  obtain ⟨hnotes, -⟩ := (hfails (by decide) hunheld (.inl rfl)).after
  have hkept : [] = flippedExtent.val.dev.xlat.hurt := flippedExtent_corrected.symm.trans (congrArg Xlat.hurt hnotes.xlat)
  exact absurd hkept (by nofun)

end Sys2Proof.Statements
end
